-- ==== Sys2Proof/Word.lean ====
section
/-!
DEFINITION. The word types: a register word of 32 bits (R6, "Every register is 32 bits wide"), a byte, and the
widths the Relud chapter names (R197, R229).
-/

namespace Sys2Proof

/-- A 32-bit register or memory word. -/
abbrev Word := BitVec 32

/-- A byte. -/
abbrev Byte := BitVec 8

/-- A mantissa of a ply: 24 bits, two's complement (R212). -/
abbrev Mant := BitVec 24

/-- The shared exponent of a lane: 8 bits, two's complement (R197). -/
abbrev Expo := BitVec 8

end Sys2Proof
end

