-- ==== Sys2Proof/Syntax.lean ====
section
/-!
DEFINITION. The commands: one constructor of `Instr` per row of spec/opcode_table.json, with the operands its rule
needs. What the module's surroundings decide (a sensor reading, a received frame, the outcome of a check the spec
leaves to cryptography) is an operand. A command that the spec describes as "a write of 1 to a bit" carries the
master that writes; the write leaves the register's other fields as they are.
-/

namespace Sys2Proof

/-- The clock islands, in the bit order of R15. -/
inductive Island where
  | mgmt | spin | frame | cha | chb | xlink | eth0 | eth1 | time | can | safe | sense
  deriving DecidableEq, Repr

/-- The power domains, in the bit order of R21. -/
inductive Domain where
  | mgmt | spin0 | spin1 | frame | chain | host | xlink | can | sense | svc
  deriving DecidableEq, Repr

/-- The two chain ports (R13). -/
inductive Port where
  | a | b
  deriving DecidableEq, Repr

/-- The sources of the stop broadcast, in the order of R154. -/
inductive StopSrc where
  | safety | clock | sw | partner | emit
  deriving DecidableEq, Repr

/-- The two-channel contact inputs of R329. -/
inductive ContactInput where
  | door | estop
  deriving DecidableEq, Repr

/-- The inputs that a source pin feeds (R71, R73). -/
inductive SourcedInput where
  | door | estop | brkAux
  deriving DecidableEq, Repr

/-- The safety channels (R323). -/
inductive Channel where
  | a | b
  deriving DecidableEq, Repr

/-- The drives of J12 (R77). -/
inductive Drive where
  | brkTrip | brkClose | discDrv
  deriving DecidableEq, Repr

/-- The two telegram paths (R338). -/
inductive TelPath where
  | eth | can1
  deriving DecidableEq, Repr

/-- The read classes of a code word (R442). -/
inductive EccClass where
  | clean | ce | ue | poison
  deriving DecidableEq, Repr

/-- The release causes of the claim (R353). -/
inductive ClaimCause where
  | handover | trap | noEmit | chain | reset | selftest | dualClaim | runState
  deriving DecidableEq, Repr

/-- The functions of the recovery ladder, in the code order of R474. -/
inductive ReFunc where
  | chainA | chainB | spindle | host | can0 | can1 | sense | xlink | mbx
  deriving DecidableEq, Repr

/-- Who asks for a ladder action (R473, R479): the command of a mailbox, a register write by a master, or Distaff. -/
inductive LadderReq where
  | mailbox (m : Nat)
  | register (master : Nat) (key : BitVec 16)
  | distaff
  deriving DecidableEq, Repr

/-- An SFP module found in a cage by its compliance codes (R386). -/
inductive SfpKind where
  | none | tenGig | oneGig | other
  deriving DecidableEq, Repr

/-- Kinds of CAN error (CANx_STAT.lec, R439). -/
inductive CanErr where
  | stuff | form | ackErr | bit1 | bit0 | crc
  deriving DecidableEq, Repr

/-- An upset of a code word (R442): its address, whether it is uncorrectable, and its syndrome. -/
structure Upset where
  addr     : Nat
  ue       : Bool
  syndrome : Byte
  deriving DecidableEq, Repr

/-- The signature facts of an image that R489 checks. They come from the cryptography outside the model. -/
structure SigFacts where
  etiotanOk   : Bool
  ownerRecord : Bool
  ownerOk     : Bool
  deriving DecidableEq, Repr

/-- The image types of R487. -/
inductive ImageKind where
  | firmware | reludProgram | keyBundle
  deriving DecidableEq, Repr

/-- A PROGRAM section (R488): header values, instruction words and optional bank contents (16 384 words).
`reference` marks the reference control program (R160). -/
structure ProgImage where
  level     : BitVec 8
  version   : Word
  fastPc    : BitVec 16
  estPc     : BitVec 16
  words     : List Word
  bank      : Option (List Word)
  reference : Bool
  deriving DecidableEq, Repr

/-- A key bundle's KEYS section (R486): the owner key's id, the number of trust anchors and the policy bit. -/
structure KeyBundle where
  ownerKeyId  : BitVec 64
  anchors     : BitVec 3
  ownerSigReq : Bool
  deriving DecidableEq, Repr

/-- A node image of a FIRMWARE image (R488): vendor and type, the image, and its SHA-256 digest, which comes from the
cryptography outside the model. -/
structure NodeImage where
  vendor : BitVec 16
  ntype  : BitVec 16
  bytes  : List Byte
  digest : List Byte
  deriving DecidableEq, Repr

/-- A Brodot image as the loader's parser finds it (R487, R488), with the facts of the checks of R489. -/
structure Image where
  kind      : ImageKind
  formatOk  : Bool
  targetOk  : Bool
  sig       : SigFacts
  secVer    : BitVec 8
  version   : Word
  digest    : List Word
  length    : Nat
  prog      : Option ProgImage
  safety    : List Word
  nodeImgs  : List NodeImage
  keys      : Option KeyBundle
  deriving DecidableEq, Repr

/-- The conversions of one sample instant, and what came late or out of order: the codes of the shunt (24 bits) and of the
fluxgate (18 bits, R69), the string and bus voltages in microvolts and their means over the cycle that ends in 10 mV, the
terminals against PE in 10 mV (R64), the resistance of the shunt thermistor in ohms, and the state of the fluxgate supply. -/
structure SenseData where
  shunt      : Int
  fluxgate   : Int
  vStr       : Int
  vBus       : Int
  vStrMean   : Int
  vBusMean   : Int
  vPosPe     : Int
  vNegPe     : Int
  shuntLate  : Bool
  fgLate     : Bool
  vStrLate   : Bool
  vBusLate   : Bool
  shValid    : Bool
  fgIlim     : Bool
  thermOhm   : Nat
  deriving DecidableEq, Repr

/-- A code group as a receiver decodes it (R90, R91): a data byte, a control code, or a code violation. -/
inductive Symbol where
  | data (b : Byte)
  | ctl (code : Byte)
  | bad
  deriving DecidableEq, Repr

/-- A received uplink slot with its place in the train (R99). -/
structure SlotRx where
  pos    : Nat
  word   : Word
  deriving DecidableEq, Repr

/-- A received cell record: the position whose place in the tail it has, and its 24 bytes as six words (R101). -/
structure RecordRx where
  pos   : Nat
  words : List Word
  deriving DecidableEq, Repr

/-- What a node answers to an MGMT request (R102). -/
structure MgmtResp where
  pos    : Nat
  status : BitVec 8
  ackCnt : BitVec 8
  data   : List Byte
  deriving DecidableEq, Repr

/-- What the roving walk learns of one node (R111, R112): the mean round trips from this module's port A and from the other
end of the chain (port B, or the partner's port A), in 0.25 ns; and its identity record (R129): profile version, vendor, type,
hardware revision, cells, serial number, forwarding latency and turnaround time in 0.25 ns, ROM and firmware version, bleed
current in mA and switch voltage rating in V. -/
structure NodeId where
  roundA  : Option Nat
  roundB  : Option Nat
  tau     : Nat
  lambda  : Nat
  cells   : Nat
  vendor  : BitVec 16
  ntype   : BitVec 16
  bleedMa : Nat
  profile : BitVec 16
  hwRev   : Byte
  serial  : BitVec 64
  romVer  : BitVec 16
  fwVer   : BitVec 16
  switchV : BitVec 16
  deriving DecidableEq, Repr

/-- The outcome of a node firmware load (R114): what each round of boot_map READs finds missing, as (position, block), and the
positions whose boot_status does not come to VERIFIED and RUNNING. -/
structure LoadResult where
  missing : List (List (Nat × Nat))
  failed  : List Nat
  deriving DecidableEq, Repr

/-- The outcome of a roving walk as the ports measure it (R111, R112): the receivers' lock, the count that the far end
received, or the counts of both sides where ASSIGN came back turned, the hop total, the ring latency in 0.25 ns, the nodes by
position, and the firmware load. -/
structure WalkResult where
  locked   : Bool
  countA   : Nat
  countB   : Nat
  turnedA  : Bool
  hops     : Nat
  ringLat  : Nat
  nodes    : List NodeId
  load     : LoadResult
  deriving DecidableEq, Repr

/-- The body of a CYCLE frame (R354). -/
structure XlCycle where
  cycle    : Word
  shunt    : Word
  fluxgate : Word
  selected : Word
  vStr     : Word
  vBus     : Word
  flags    : Word
  ownOk    : Bool
  deriving DecidableEq, Repr

/-- The body of a CMDX frame (R354). -/
structure XlCmdx where
  cycle  : Word
  slots  : List (BitVec 16)
  toggle : List Byte
  deriving DecidableEq, Repr

/-- The kinds of digest that a DIGEST frame carries (R354). -/
inductive DigestKind where
  | input | output | state
  deriving DecidableEq, Repr

/-- The body of a LEASE frame (R354). -/
structure XlLease where
  slot     : BitVec 6
  claim    : Bool
  role     : BitVec 2
  ready    : Bool
  runState : BitVec 3
  progId   : Word
  bankCrc  : Word
  stResult : BitVec 2
  deriving DecidableEq, Repr

/-- The items that the active mirrors (R358). -/
inductive MirrorItem where
  | commit (iTarget lim cycle : Word)
  | mode (refReq : BitVec 2) (lawReq : Bool)
  | flyBlock (k : Nat) (word cycle : Word)
  | bankWrite (offset : Nat) (word : Word)
  | swapReq (cycle crc : Word)
  | swapCancel
  | runState (code : BitVec 3) (cause : BitVec 8)
  deriving DecidableEq, Repr

/-- What a NOTICE frame tells (R354). -/
inductive NoticeKind where
  | release (cause : ClaimCause)
  | stop
  | selftest (cycle : Word)
  | resyncStart (cycle : Word)
  | resyncEnd (cycle : Word)
  deriving DecidableEq, Repr

/-- A CAN frame as an entry (R431): ID and INFO words and its data words. -/
structure CanFrame where
  id    : Word
  info  : Word
  data  : List Word
  deriving DecidableEq, Repr

/-- A received HSR frame by its addresses (R387), with its length in bytes where a bucket of R392 polices it: one that
carries the module's own source address, a unicast frame for the module or for another node, a multicast or broadcast
frame, and an HSR supervision frame. -/
inductive HsrFrame where
  | ownReturned
  | unicastOwn (src : BitVec 48) (seq : BitVec 16) (bytes : Nat)
  | unicastOther (bytes : Nat)
  | group (src : BitVec 48) (seq : BitVec 16) (bytes : Nat)
  | supervision (src : BitVec 48) (seq : BitVec 16)
  deriving DecidableEq, Repr

/-- A PTP Sync with its Follow_Up, or a one-step Sync, in nanoseconds (R375). -/
structure PtpSync where
  port   : BitVec 1
  t1     : Int
  cSync  : Int
  t2     : Int
  logInt : BitVec 8
  valid  : Bool
  deriving DecidableEq, Repr

/-- An Announce message (R374): port, domain, the sender's identity and whether the best master clock algorithm
selects it. -/
structure PtpAnnounce where
  port     : BitVec 1
  domain   : Byte
  identity : BitVec 64
  best     : Bool
  deriving DecidableEq, Repr

/-- A client's certificate as the handshake sees it (R393, R481): the hash it binds a lock to, and what it chains to. -/
structure ClientCert where
  hash        : BitVec 64
  ownerAnchor : Bool
  production  : Bool
  deriving DecidableEq, Repr

/-- The result of one self-test (R516). -/
structure TestResult where
  pass     : Bool
  aborted  : Bool
  duration : BitVec 16
  detail   : Word
  errors   : Word
  deriving DecidableEq, Repr

/-- What the wire calibration measured of one node (R288), in microvolts: whether it answered, its cells, and per cell
that was bled the steps of its own reading and of those of the cells below and above it, with the mean baseline cell
voltage in units of 100 µV. -/
structure WireRec where
  pos      : Nat
  answered : Bool
  cells    : Nat
  own      : List Int
  lower    : List Int
  upper    : List Int
  vComm    : BitVec 16
  deriving DecidableEq, Repr

/-- Scalar register number. -/
abbrev SReg := BitVec 5
/-- Vector register number. -/
abbrev VReg := BitVec 5
/-- Mask register number. -/
abbrev MReg := BitVec 3
/-- Matrix buffer number. -/
abbrev XReg := BitVec 2
/-- Ply number within a lane. -/
abbrev PlyIx := BitVec 3

/-- An immediate: 16 bits of the short form, or 32 bits of the long form (R231). -/
inductive Imm where
  | short (v : BitVec 16)
  | long (v : BitVec 32)
  deriving DecidableEq, Repr

/-- The items of FRLD (R244). -/
inductive FrldItem where
  | uplink | flyrec | cellv | cellt | marks | toggle
  deriving DecidableEq, Repr

/-- The fields of TSAMP (R244). -/
inductive TsampField where
  | secLo | secHi | ns
  deriving DecidableEq, Repr

/-- The shifts of SHI (R239). -/
inductive ShiKind where
  | sll | srl | sra | illegal
  deriving DecidableEq, Repr

/-- The commands of the block: one constructor per row of spec/opcode_table.json, in the table's order. -/
inductive Instr where
  /-- AON_POWER_UP (R459). The auxiliary supply is applied and held above the rising threshold for 10 ms, and the supervisor boots the module step by step. -/
  | aonPowerUp (slot : BitVec 6) (auxV : BitVec 16) (img : Option Image)
  /-- SUPPLY_WARNING_FALL (R470). The auxiliary voltage falls through the brownout warning threshold, and the supply state becomes BROWNOUT_WARNING. -/
  | supplyWarningFall (auxV : BitVec 16)
  /-- SUPPLY_RESET_FALL (R471). The auxiliary voltage falls through the reset threshold, the supply state becomes HOLDUP and an energised string goes to STOPPING. -/
  | supplyResetFall (auxV : BitVec 16)
  /-- SUPPLY_WARNING_RISE (R470). The auxiliary voltage rises through the warning threshold, the supply state returns to NORMAL and the brownout event is logged. -/
  | supplyWarningRise (auxV minV durMs : BitVec 16)
  /-- BROWNOUT_TIMEOUT (R470). BROWNOUT_WARNING has lasted 2 s, and the orderly transition to STOPPING is made. -/
  | brownoutTimeout
  /-- HOLDUP_OPEN_TIMEOUT (R471). 5 ms after entry into HOLDUP the current has not settled, so Distaff forces all-BLOCK, makes the open request and enters SAFE_HOLD. -/
  | holdupOpenTimeout
  /-- HOLDUP_SHED (R471). 12 ms after entry into HOLDUP the supervisor switches off PD_HOST, PD_SVC and PD_XLINK. -/
  | holdupShed
  /-- HOLDUP_STORE_EMPTY (R471). The holdup store empties and AON loses power. -/
  | holdupStoreEmpty
  /-- CLOCK_FAULT (R20). A 10 µs gate finds an island clock outside ±2 % or stopped, and the module reacts by island and run state. -/
  | clockFault (i : Island)
  /-- CLOCK_RECOVERED (R476). A faulted island clock has been good for 10 ms, and Distaff reinitialises the function or resets the module. -/
  | clockRecovered (i : Island)
  /-- RAIL_FAULT (R463). A domain's monitored rail leaves its limits, the domain is held off and an energised string is made safe under the reset guard. -/
  | railFault (d : Domain)
  /-- PWR_PD_CTRL_WRITE (R22). A write to PWR_PD_CTRL is checked against the present state and switches domains on or off. -/
  | pwrPdCtrlWrite (master : Nat) (on : BitVec 10)
  /-- DOMAIN_ZEROISE_DONE (R24). A switched-on domain finishes zeroising its SRAM and begins to accept accesses. -/
  | domainZeroiseDone (d : Domain)
  /-- DISTAFF_WATCHDOG_EXPIRY (R460). The Distaff watchdog has not been served for 100 ms, and the supervisor restarts Distaff. -/
  | distaffWatchdogExpiry
  /-- DISTAFF_RESTART_DONE (R460). A Distaff restart completes; busy mailboxes and operations end and master 15 locks are released. -/
  | distaffRestartDone
  /-- DISTAFF_ABSENT_TIMEOUT (R461). Distaff has been absent for 2 s or restarted 3 times in 10 min, and the supervisor makes a module reset. -/
  | distaffAbsentTimeout
  /-- SUPERVISOR_SUMMARY_READ (R461). While Distaff is absent, the supervisor reads the string summary every 1 ms and forwards stop requests. -/
  | supervisorSummaryRead
  /-- MODULE_RESET_TAKE (R472). A module reset takes effect: switched domains except PD_CAN are reset and the boot runs from step 2. -/
  | moduleResetTake (img : Option Image)
  /-- SAMPLE_INSTANT (R131). The cycle comparator fires; the sense front end and nodes sample, nodes apply commands and pending requests are taken. -/
  | sampleInstant
  /-- UPLINK_LAUNCH (R99). At 0.2 µs the launching ports send the uplink train with every slot empty. -/
  | uplinkLaunch
  /-- SENSE_DATA_WRITE (R206). The sense interface writes current, voltages, set-point and flags into the frame, and marks late data as missing. -/
  | senseDataWrite (d : SenseData)
  /-- SENSE_FREEZE (R206). At 2.0 µs the sense part of the frame is frozen. -/
  | senseFreeze
  /-- FAST_SECTION_START (R201). The fast section starts at 1.0 µs with cleared registers at the fast entry. -/
  | fastSectionStart
  /-- EST_SECTION_START (R201). The estimation section starts at the freeze instant at the estimation entry. -/
  | estSectionStart
  /-- SECTION_OVERRUN (R202). A section's sequencer budget runs out before SECEND, the section stops and the overrun is counted. -/
  | sectionOverrun
  /-- EMIT_DEADLINE (R142). At the end of the fast section a missing EMIT is counted and handled, and src_emit is demanded at the fifth missing EMIT. -/
  | emitDeadline
  /-- COMMAND_LAUNCH (R144). At C the Flyer forms each node's command under its hard rules and launches the command or carrier train. -/
  | commandLaunch
  /-- RELAYED_CMD_LAUNCH (R363). At C + 1.5 µs a relaying standby launches the active's command slots, or a carrier train if CMDX is late. -/
  | relayedCmdLaunch
  /-- FRAME_FREEZE (R136). At Z the node part of the frame is frozen; slots and records not received are marked missing. -/
  | frameFreeze
  /-- SYNC_LAUNCH (R98). At T − 1.0 µs the ports launch SYNC, announcing the sample instant two cycles ahead. -/
  | syncLaunch
  /-- INPUT_DIGEST_READY (R224). The input digest over the frozen frame is written into the digest area and SPN_DIG_IN. -/
  | inputDigestReady
  /-- OUTPUT_DIGEST_READY (R224). The output digest over cycle number, EMIT and control record is written. -/
  | outputDigestReady
  /-- STATE_DIGEST_READY (R225). Every 1000 cycles the copy-on-write walk completes the lane-memory state digest. -/
  | stateDigestReady
  /-- SETPOINT_APPLY (R165). At cycle c the pending set-point takes effect in the frame and in SNS_SP_STAT. -/
  | setpointApply
  /-- SETPOINT_EXPIRY (R166). The set-point age exceeds the timeout and the frame marks it expired. -/
  | setpointExpiry
  /-- BANK_SWAP (R211). At cycle c the shadow bank becomes the bank in force and the frame records the swap. -/
  | bankSwap
  /-- HYST_SAMPLE (R149). Each comparator-stream current sample is compared with the band and a TRIM priority symbol may be sent. -/
  | hystSample (i : Int)
  /-- STOP_BROADCAST_START (R154). A stop demand arrives, and the Flyer latches the stop and sends STOP symbol groups on every launching port. -/
  | stopBroadcastStart (src : StopSrc)
  /-- STOP_BROADCAST_END (R157). No demand remains and 100 µs have passed, so the broadcast ends and fixed frames resume with all commands BLOCK. -/
  | stopBroadcastEnd
  /-- SW_STOP (R154). A write of 1 to FLY_CTRL.sw_stop demands the stop broadcast with src_sw. -/
  | swStop (master : Nat)
  /-- SW_RELEASE (R157). A write of 1 to FLY_CTRL.sw_release withdraws src_sw. -/
  | swRelease (master : Nat)
  /-- FLY_CLR_CNT (R159). A write of 1 to FLY_CTRL.clr_cnt clears every FLY_CNT register. -/
  | flyClrCnt (master : Nat)
  /-- PRECHARGE_TIMEOUT (R153). No match has been reached within the precharge timeout, and precharge fails with TIMEOUT. -/
  | prechargeTimeout
  /-- CLOSE_PULSE_TIMEOUT (R78). A close pulse ends 100 ms after it started; without BRK_AUX closed precharge fails with NO_CLOSE. -/
  | closePulseTimeout
  /-- BRK_AUX_CHANGE (R332). BRK_AUX changes state in both channels, ending a close pulse, completing precharge or completing STOPPING. -/
  | brkAuxChange (a b : Bool)
  /-- BRK_AUX_DISCREPANCY (R332). The two channels of BRK_AUX differ for 50 ms, and DISCREPANCY is recorded. -/
  | brkAuxDiscrepancy
  /-- UPLINK_TRAIN_RX (R108). A port receives an uplink train, and its valid slots enter the frame entries. -/
  | uplinkTrainRx (p : Port) (syms : List Symbol) (early : Nat)
  /-- CMD_TRAIN_RX (R108). A port receives a returning command train, and its valid cell records enter the frame. -/
  | cmdTrainRx (p : Port) (syms : List Symbol) (early : Nat)
  /-- MGMT_RESPONSE_RX (R102). A port receives a returning MGMT frame carrying a node's response. -/
  | mgmtResponseRx (p : Port) (syms : List Symbol)
  /-- TURN_NOTICE_RX (R116). A port receives a TURN notice, and the ring state becomes RING_BROKEN at the next cycle boundary. -/
  | turnNoticeRx (p : Port) (notice : Byte)
  /-- PORT_LOCK_LOSS (R116). A chain port loses lock, and the ring state becomes RING_BROKEN. -/
  | portLockLoss (p : Port)
  /-- PORT_LOCK_TIMEOUT (R476). A chain port has been without lock for 1 s, and Distaff reinitialises it once. -/
  | portLockTimeout (p : Port)
  /-- RING_CLOSE (R120). After 1000 clean cycles and repeated echoes, the ring state returns to RING_CLOSED. -/
  | ringClose (rt : List (Nat × Nat × Nat)) (otherEnd : Bool)
  /-- PERIODIC_ASSIGN (R120). Every 1000 cycles in RUN the module sends ASSIGN in a gap and detects restarted nodes. -/
  | periodicAssign (restarted : List Nat)
  /-- NODE_REJOIN_RELEASE (R468). A rejoined node is reloaded, timed and released with an addressed STOP_CLEAR. -/
  | nodeRejoinRelease (pos : Nat) (load : LoadResult)
  /-- POSITION_ISOLATED (R519). A slot has been missing from both ends for 1000 cycles under RING_BROKEN, and Distaff performs a RUN_STOP. -/
  | positionIsolated (pos : Nat)
  /-- ROVE (R111). A write of 1 to CHx_CTRL.rove in OFF starts the roving walk. -/
  | rove (master : Nat) (p : Port) (w : WalkResult)
  /-- BOOT (R114). A write of 1 to CHx_CTRL.boot in OFF starts a node firmware load. -/
  | boot (master : Nat) (p : Port) (load : LoadResult)
  /-- LAUNCH (R121). A write to CHx_CTRL.launch starts or stops the fixed frames each cycle. -/
  | launch (master : Nat) (p : Port) (on : Bool)
  /-- TX_EN (R121). A write to CHx_CTRL.tx_en switches the port transmitter on or off. -/
  | txEn (master : Nat) (p : Port) (on : Bool)
  /-- CHX_CLR_CNT (R121). A write of 1 to CHx_CTRL.clr_cnt clears the port's counters. -/
  | chxClrCnt (master : Nat) (p : Port)
  /-- SPN_RUN (R204). A write of 1 to SPN_CTRL.run in LOADED arms the array to run from the next sample instant. -/
  | spnRun (master : Nat)
  /-- SPN_STOP (R204). A write of 1 to SPN_CTRL.stop returns the array to LOADED after the estimation section. -/
  | spnStop (master : Nat)
  /-- SPN_SELFTEST (R226). A write of 1 to SPN_CTRL.selftest schedules the lane self-test from SPN_ST_CYC. -/
  | spnSelftest (master : Nat)
  /-- LANE_SELFTEST_END (R226). The lane self-test completes and reports its result. -/
  | laneSelftestEnd (failed : BitVec 128)
  /-- CLR_TRAP (R218). A write of 1 to SPN_CTRL.clr_trap clears SPN_TRAP and SPN_TRAP_CYC. -/
  | clrTrap (master : Nat)
  /-- SPN_CLR_CNT (R227). A write of 1 to SPN_CTRL.clr_cnt clears the SPN counters and SPN_USE_MAX. -/
  | spnClrCnt (master : Nat)
  /-- SWAP (R211). A write of 1 to SPN_BANK_CTRL.swap requests a bank swap at cycle c and locks the shadow bank. -/
  | swap (master : Nat)
  /-- CANCEL (R211). A write of 1 to SPN_BANK_CTRL.cancel withdraws a pending swap. -/
  | cancel (master : Nat)
  /-- COPY (R211). A write of 1 to SPN_BANK_CTRL.copy copies the bank in force into the shadow bank. -/
  | copy (master : Nat)
  /-- BANK_COPY_DONE (R211). The bank copy completes and the shadow bank unlocks. -/
  | bankCopyDone
  /-- ADD (R238). Scalar add. -/
  | add (d a b : SReg)
  /-- SUB (R238). Scalar subtract. -/
  | sub (d a b : SReg)
  /-- AND (R238). Scalar and. -/
  | and (d a b : SReg)
  /-- OR (R238). Scalar or. -/
  | or (d a b : SReg)
  /-- XOR (R238). Scalar xor. -/
  | xor (d a b : SReg)
  /-- SLL (R238). Scalar shift left. -/
  | sll (d a b : SReg)
  /-- SRL (R238). Scalar logical right shift. -/
  | srl (d a b : SReg)
  /-- SRA (R238). Scalar arithmetic right shift. -/
  | sra (d a b : SReg)
  /-- MUL (R238). Scalar multiply, low 32 bits. -/
  | mul (d a b : SReg)
  /-- MULH (R238). Scalar multiply, high 32 bits. -/
  | mulh (d a b : SReg)
  /-- SLT (R238). Signed set-less-than. -/
  | slt (d a b : SReg)
  /-- SLTU (R238). Unsigned set-less-than. -/
  | sltu (d a b : SReg)
  /-- MIN (R238). Signed scalar minimum. -/
  | min (d a b : SReg)
  /-- MAX (R238). Signed scalar maximum. -/
  | max (d a b : SReg)
  /-- JALR (R238). Jump to a register address and link. -/
  | jalr (d a : SReg)
  /-- RDSC (R238). Read the section cycle count. -/
  | rdsc (d : SReg)
  /-- RDTB (R238). Read the live time base nanoseconds; outside the deterministic subset. -/
  | rdtb (d : SReg)
  /-- SECEND (R238). End the section. -/
  | secend
  /-- NOP (R238). No operation. -/
  | nop
  /-- ADDI (R239). Add immediate. -/
  | addi (d a : SReg) (imm : Imm)
  /-- ANDI (R239). And immediate. -/
  | andi (d a : SReg) (imm : Imm)
  /-- ORI (R239). Or immediate. -/
  | ori (d a : SReg) (imm : Imm)
  /-- XORI (R239). Xor immediate. -/
  | xori (d a : SReg) (imm : Imm)
  /-- LUI (R239). Load upper immediate. -/
  | lui (d : SReg) (imm : BitVec 16)
  /-- SLTI (R239). Set-less-than immediate. -/
  | slti (d a : SReg) (imm : Imm)
  /-- SHI (R239). Shift by immediate. -/
  | shi (d a : SReg) (kind : ShiKind) (sh : BitVec 5)
  /-- BEQ (R240). Branch if equal. -/
  | beq (d a : SReg) (imm : Imm)
  /-- BNE (R240). Branch if not equal. -/
  | bne (d a : SReg) (imm : Imm)
  /-- BLT (R240). Branch if less, signed. -/
  | blt (d a : SReg) (imm : Imm)
  /-- BGE (R240). Branch if greater or equal, signed. -/
  | bge (d a : SReg) (imm : Imm)
  /-- JAL (R240). Jump and link. -/
  | jal (d : SReg) (imm : Imm)
  /-- LOOP (R241). Start a zero-overhead loop. -/
  | loop (a : SReg) (len : BitVec 16)
  /-- WAITCYC (R242). Hold issue until a section cycle. -/
  | waitcyc (a : SReg) (imm : Imm)
  /-- TSAMP (R244). Read a TSAMP field of the present frame. -/
  | tsamp (d : SReg) (f : TsampField)
  /-- LDS (R243). Scalar load from lane memory. -/
  | lds (d a : SReg) (imm : Imm)
  /-- STS (R243). Scalar store to lane memory. -/
  | sts (d a : SReg) (imm : Imm)
  /-- LDPS (R243). Scalar load from the bank in force. -/
  | ldps (d a : SReg) (imm : Imm)
  /-- VLD (R243). Vector load from lane memory. -/
  | vld (d : VReg) (a : SReg) (off : BitVec 8) (m : MReg)
  /-- VST (R243). Vector store to lane memory. -/
  | vst (va : VReg) (b : SReg) (off : BitVec 8) (m : MReg)
  /-- VLDP (R243). Vector load from the parameter bank, same for every lane. -/
  | vldp (d : VReg) (a : SReg) (off : BitVec 8) (m : MReg)
  /-- VLDPX (R243). Vector load from the parameter bank, strided by lane. -/
  | vldpx (d : VReg) (a b : SReg) (off : BitVec 8) (m : MReg)
  /-- FRLD (R244). Load a per-lane frame item. -/
  | frld (d : VReg) (item : FrldItem) (prev : Bool) (m : MReg)
  /-- FRLS (R244). Load a frame word into a scalar. -/
  | frls (d : SReg) (off : BitVec 13) (prev : Bool)
  /-- FRLB (R244). Broadcast a frame BFP word into ply 0 of every lane. -/
  | frlb (d : VReg) (off : BitVec 13) (prev : Bool)
  /-- VADD (R246). Vector add. -/
  | vadd (d a b : VReg) (m : MReg)
  /-- VSUB (R246). Vector subtract. -/
  | vsub (d a b : VReg) (m : MReg)
  /-- VMUL (R246). Vector multiply. -/
  | vmul (d a b : VReg) (m : MReg)
  /-- VMAC (R246). Vector multiply-accumulate, one rounding. -/
  | vmac (d a b : VReg) (m : MReg)
  /-- VMSB (R246). Vector multiply-subtract, one rounding. -/
  | vmsb (d a b : VReg) (m : MReg)
  /-- VDIV (R246). Vector divide. -/
  | vdiv (d a b : VReg) (m : MReg)
  /-- VSQRT (R246). Vector square root. -/
  | vsqrt (d a : VReg) (m : MReg)
  /-- VABS (R246). Vector absolute value. -/
  | vabs (d a : VReg) (m : MReg)
  /-- VNEG (R246). Vector negate. -/
  | vneg (d a : VReg) (m : MReg)
  /-- VMIN (R246). Vector minimum. -/
  | vmin (d a b : VReg) (m : MReg)
  /-- VMAX (R246). Vector maximum. -/
  | vmax (d a b : VReg) (m : MReg)
  /-- VMOV (R246). Vector move. -/
  | vmov (d a : VReg) (m : MReg)
  /-- VCVTIF (R246). Convert integer form to BFP. -/
  | vcvtif (d a : VReg) (m : MReg)
  /-- VCVTFI (R246). Convert BFP to integer form. -/
  | vcvtfi (d a : VReg) (m : MReg)
  /-- VSCL (R246). Scale by a power of two. -/
  | vscl (d a : VReg) (b : SReg) (m : MReg)
  /-- VSIN (R246). Table sine in turns. -/
  | vsin (d a : VReg) (m : MReg)
  /-- VCOS (R246). Table cosine in turns. -/
  | vcos (d a : VReg) (m : MReg)
  /-- VCLMP (R246). Vector clamp. -/
  | vclmp (d a b : VReg) (m : MReg)
  /-- VADDS (R247). Vector add with scalar operand. -/
  | vadds (d a : VReg) (b : SReg) (m : MReg)
  /-- VSUBS (R247). Vector subtract with scalar operand. -/
  | vsubs (d a : VReg) (b : SReg) (m : MReg)
  /-- VMULS (R247). Vector multiply with scalar operand. -/
  | vmuls (d a : VReg) (b : SReg) (m : MReg)
  /-- VMACS (R247). Multiply-accumulate with scalar operand. -/
  | vmacs (d a : VReg) (b : SReg) (m : MReg)
  /-- VMSBS (R247). Multiply-subtract with scalar operand. -/
  | vmsbs (d a : VReg) (b : SReg) (m : MReg)
  /-- VDIVS (R247). Vector divide by a scalar. -/
  | vdivs (d a : VReg) (b : SReg) (m : MReg)
  /-- VMINS (R247). Vector minimum with a scalar. -/
  | vmins (d a : VReg) (b : SReg) (m : MReg)
  /-- VMAXS (R247). Vector maximum with a scalar. -/
  | vmaxs (d a : VReg) (b : SReg) (m : MReg)
  /-- IADD (R249). Integer lane add. -/
  | iadd (d a b : VReg) (m : MReg)
  /-- ISUB (R249). Integer lane subtract. -/
  | isub (d a b : VReg) (m : MReg)
  /-- IAND (R249). Integer lane and. -/
  | iand (d a b : VReg) (m : MReg)
  /-- IOR (R249). Integer lane or. -/
  | ior (d a b : VReg) (m : MReg)
  /-- IXOR (R249). Integer lane xor. -/
  | ixor (d a b : VReg) (m : MReg)
  /-- ISHL (R249). Integer lane shift left. -/
  | ishl (d a b : VReg) (m : MReg)
  /-- ISHR (R249). Integer lane logical right shift. -/
  | ishr (d a b : VReg) (m : MReg)
  /-- ISAR (R249). Integer lane arithmetic right shift. -/
  | isar (d a b : VReg) (m : MReg)
  /-- IMUL (R249). Integer lane multiply, low 24 bits. -/
  | imul (d a b : VReg) (m : MReg)
  /-- IMIN (R249). Integer lane minimum. -/
  | imin (d a b : VReg) (m : MReg)
  /-- IMAX (R249). Integer lane maximum. -/
  | imax (d a b : VReg) (m : MReg)
  /-- CEQ (R250). Compare equal into a mask. -/
  | ceq (md : MReg) (a b : VReg) (m : MReg)
  /-- CNE (R250). Compare not equal into a mask. -/
  | cne (md : MReg) (a b : VReg) (m : MReg)
  /-- CLT (R250). Compare less into a mask. -/
  | clt (md : MReg) (a b : VReg) (m : MReg)
  /-- CLE (R250). Compare less or equal into a mask. -/
  | cle (md : MReg) (a b : VReg) (m : MReg)
  /-- CGT (R250). Compare greater into a mask. -/
  | cgt (md : MReg) (a b : VReg) (m : MReg)
  /-- CGE (R250). Compare greater or equal into a mask. -/
  | cge (md : MReg) (a b : VReg) (m : MReg)
  /-- HYS (R250). Hysteresis compare into a mask. -/
  | hys (md : MReg) (a b : VReg) (m : MReg)
  /-- CEQS (R250). Compare equal with a scalar. -/
  | ceqs (md : MReg) (a : VReg) (b : SReg) (m : MReg)
  /-- CNES (R250). Compare not equal with a scalar. -/
  | cnes (md : MReg) (a : VReg) (b : SReg) (m : MReg)
  /-- CLTS (R250). Compare less with a scalar. -/
  | clts (md : MReg) (a : VReg) (b : SReg) (m : MReg)
  /-- CLES (R250). Compare less or equal with a scalar. -/
  | cles (md : MReg) (a : VReg) (b : SReg) (m : MReg)
  /-- CGTS (R250). Compare greater with a scalar. -/
  | cgts (md : MReg) (a : VReg) (b : SReg) (m : MReg)
  /-- CGES (R250). Compare greater or equal with a scalar. -/
  | cges (md : MReg) (a : VReg) (b : SReg) (m : MReg)
  /-- MAND (R251). Mask and. -/
  | mand (md ma mb : MReg)
  /-- MOR (R251). Mask or. -/
  | mor (md ma mb : MReg)
  /-- MXOR (R251). Mask xor. -/
  | mxor (md ma mb : MReg)
  /-- MANDN (R251). Mask and-not. -/
  | mandn (md ma mb : MReg)
  /-- MNOT (R251). Mask not. -/
  | mnot (md ma : MReg)
  /-- MPOP (R251). Count mask bits into a scalar. -/
  | mpop (d : SReg) (ma : MReg)
  /-- MFLG (R251). Copy lane flags into a mask. -/
  | mflg (md : MReg)
  /-- CLRFLG (R251). Clear lane flags of selected lanes. -/
  | clrflg (ma : MReg)
  /-- VSEL (R251). Select ply under a mask. -/
  | vsel (d a b : VReg) (m : MReg)
  /-- MSET (R251). Set a mask from an immediate. -/
  | mset (md : MReg) (bits : BitVec 8)
  /-- MLANE (R251). Set a mask over a lane range. -/
  | mlane (md : MReg) (a b : SReg)
  /-- RANK (R252). Rank lanes by key. -/
  | rank (d a : VReg) (k : PlyIx) (m : MReg)
  /-- ORDER (R252). List lanes in rank order. -/
  | order (d a : VReg) (k : PlyIx) (m : MReg)
  /-- REDSUM (R252). Sum keys across lanes. -/
  | redsum (d a : VReg) (k : PlyIx) (m : MReg)
  /-- REDMAX (R252). Largest key across lanes. -/
  | redmax (d a : VReg) (k : PlyIx) (m : MReg)
  /-- REDMIN (R252). Smallest key across lanes. -/
  | redmin (d a : VReg) (k : PlyIx) (m : MReg)
  /-- ARGMAX (R252). Lane of the largest key. -/
  | argmax (d a : VReg) (k : PlyIx) (m : MReg)
  /-- ARGMIN (R252). Lane of the smallest key. -/
  | argmin (d a : VReg) (k : PlyIx) (m : MReg)
  /-- PFX (R252). Prefix sum across lanes. -/
  | pfx (d a : VReg) (k : PlyIx) (m : MReg)
  /-- BCAST (R252). Broadcast one lane to all. -/
  | bcast (d a : VReg) (b : SReg)
  /-- NBR (R252). Move lanes by an offset. -/
  | nbr (d a : VReg) (b : SReg)
  /-- GATHER (R252). Gather lanes by index. -/
  | gather (d a b : VReg) (k : PlyIx)
  /-- PSUM (R253). Sum ply within a lane. -/
  | psum (d a : VReg) (k : PlyIx) (m : MReg)
  /-- PDOT (R253). Dot product of ply within a lane. -/
  | pdot (d a b : VReg) (k : PlyIx) (m : MReg)
  /-- PBC (R253). Broadcast one ply within the lane. -/
  | pbc (d a : VReg) (k : PlyIx)
  /-- PMOV (R253). Move one ply. -/
  | pmov (d a : VReg) (k b : PlyIx)
  /-- SPLF (R253). Splat a BFP scalar into a ply. -/
  | splf (d : VReg) (a : SReg) (k : PlyIx)
  /-- SPLI (R253). Splat an integer scalar into a ply. -/
  | spli (d : VReg) (a : SReg) (k : PlyIx)
  /-- VINS (R253). Insert a scalar into one lane's ply. -/
  | vins (d : VReg) (a b : SReg) (k : PlyIx)
  /-- VEXT (R253). Extract one lane's ply into a scalar. -/
  | vext (d : SReg) (a : VReg) (b : SReg) (k : PlyIx)
  /-- MXLD (R254). Load a matrix buffer from lane memory. -/
  | mxld (x : XReg) (a : SReg)
  /-- MXST (R254). Store a matrix buffer to lane memory. -/
  | mxst (x : XReg) (a : SReg)
  /-- MXROW (R254). Write one matrix row. -/
  | mxrow (x : XReg) (a : VReg) (r : PlyIx)
  /-- MXGET (R254). Read one matrix row. -/
  | mxget (d : VReg) (x : XReg) (r : PlyIx)
  /-- MXMUL (R254). Matrix-vector multiply. -/
  | mxmul (d : VReg) (x : XReg) (b : VReg) (m : MReg)
  /-- MXMAC (R254). Matrix-vector multiply-accumulate. -/
  | mxmac (d : VReg) (x : XReg) (b : VReg) (m : MReg)
  /-- MXMULT (R254). Transposed matrix-vector multiply. -/
  | mxmult (d : VReg) (x : XReg) (b : VReg) (m : MReg)
  /-- MXR1 (R254). Rank-one matrix update. -/
  | mxr1 (x : XReg) (a b : VReg) (m : MReg)
  /-- EMIT (R255). Complete the cycle's EMIT vector. -/
  | emit (a : VReg)
  /-- TRIM (R256). Stage the EMIT header band. -/
  | trim (lo mid hi : SReg) (valid lsb : Bool)
  /-- PROF (R257). Advance profile generators by one period. -/
  | prof (x : XReg) (m : MReg)
  /-- INJ (R258). Form a test-signal value from a descriptor. -/
  | inj (d : VReg) (a b : SReg)
  /-- INJ_MULTISINE (R258). Form a multi-sine value from a tone table. -/
  | injMultisine (d : VReg) (a b : SReg)
  /-- SKREC (R259). Write control record channels. -/
  | skrec (a : VReg) (m : MReg)
  /-- SKW (R259). Write a word of the free skein area. -/
  | skw (a b : SReg)
  /-- SKRD (R259). Read a word of the free skein area. -/
  | skrd (d a : SReg)
  /-- COMMIT (R165). A write of 1 to SNS_SP_CTRL.commit makes the set-point pending for cycle c. -/
  | commit (master : Nat)
  /-- ISO_START (R66). A write of 1 to SNS_CTRL.iso_start starts one insulation measurement. -/
  | isoStart (master : Nat)
  /-- ISO_MEAS_DONE (R66). An insulation measurement completes and SNS_ISO is updated. -/
  | isoMeasDone (kohm : Nat)
  /-- SNS_CLR_CNT (R196). A write of 1 to SNS_CTRL.clr_cnt clears the SNS counters. -/
  | snsClrCnt (master : Nat)
  /-- ARM (R192). A write of 1 to SNS_CAP_CTRL.arm starts capture as a ring. -/
  | arm (master : Nat)
  /-- ABORT (R192). A write of 1 to SNS_CAP_CTRL.abort stops capture. -/
  | abort (master : Nat)
  /-- CAPTURE_RECORD (R191). At the end of the fast section the capture unit stores the selected channels and checks the trigger. -/
  | captureRecord
  /-- OW_NOW (R289). A write of 1 to SNS_MEAS_CTRL.ow_now starts an open-wire sweep. -/
  | owNow (master : Nat)
  /-- OW_ABORT (R289). A write of 1 to SNS_MEAS_CTRL.ow_abort ends the sweep after the wire in test. -/
  | owAbort (master : Nat)
  /-- OW_SWEEP_PERIOD (R289). ow_period seconds have passed, or a node requests a test, and Distaff starts a sweep. -/
  | owSweepPeriod (request : Bool)
  /-- OW_WIRE_TEST (R289). Distaff tests one wire of one node with OPEN_WIRE requests and waits for its records. -/
  | owWireTest (status : BitVec 8)
  /-- OW_NODE_TIMEOUT (R289). A node does not answer within 10 ms and is skipped for this sweep. -/
  | owNodeTimeout
  /-- REQUEST_WORD_POLL (R284). Every 10 ms Distaff reads each lane's request word and sends BLEED on a change. -/
  | requestWordPoll (nacks : List Nat)
  /-- QUIET_MODE_WRITE (R284). After a swap that changes meas_mode, Distaff broadcasts config_cycle.quiet. -/
  | quietModeWrite
  /-- CLR_CAUSE (R312). A write of 1 to SNS_PROT_CTRL.clr_cause clears stop_cause, the stop levels and escalated. -/
  | clrCause (master : Nat)
  /-- PROT_CLR_CNT (R322). A write of 1 to SNS_PROT_CTRL.clr_cnt clears the protection counters. -/
  | protClrCnt (master : Nat)
  /-- BACKSTOP_CHECK (R301). Every 2 ms Distaff examines the raw frames and makes an immediate stop with cause BACKSTOP on a limit. -/
  | backstopCheck
  /-- STRING_SUMMARY_READ (R310). Every 1 ms Distaff reads the string summary and acts on a stop request. -/
  | stringSummaryRead
  /-- ORDERLY_STOP_ESCALATE (R310). SAFE_HOLD is not reached 200 ms after an orderly stop decision, which becomes an immediate stop. -/
  | orderlyStopEscalate
  /-- STOP_CURRENT_ZERO (R464). |i_m| has been below 2 A for 10 cycles in STOPPING, and Distaff forces BLOCK and makes the open request. -/
  | stopCurrentZero
  /-- OPEN_REQUEST_TIMEOUT (R464). BRK_AUX has not reported open 100 ms after the open request, and an immediate stop follows. -/
  | openRequestTimeout
  /-- THERMAL_DEMAND_SEND (R315). The thermal demand message is sent on CAN0 every 1 s and after changes. -/
  | thermalDemandSend
  /-- CONTAINER_STATUS_RX (R317). The container status message is received and cool_lost clears. -/
  | containerStatusRx
  /-- CONTAINER_STATUS_LOSS (R317). No container status for 10 s sets cool_lost and raises WARN to DERATE. -/
  | containerStatusLoss
  /-- MODULE_TEMP_READ (R318). Every 10 ms the supervisor reads the baseplate and die sensors and applies the module temperature rules. -/
  | moduleTempRead (baseA baseB : Option Int) (die : Int)
  /-- SENSOR_READ (R503). Every 100 ms Distaff reads its sensors and marks failed ones. -/
  | sensorRead (vals : List (Option Int))
  /-- HANDOVER (R356). A write of 1 to XL_CTRL.handover on the ACTIVE module in RUN plans a hand-over at cycle h. -/
  | handover (master : Nat)
  /-- RESYNC (R361). A write of 1 to XL_CTRL.resync starts a lane-memory resync. -/
  | resync (master : Nat)
  /-- XL_CLR_CNT (R365). A write of 1 to XL_CTRL.clr_cnt clears the XL counters. -/
  | xlClrCnt (master : Nat)
  /-- CYCLE (R354). A CYCLE frame from the partner is received with its sense values. -/
  | cycle (f : XlCycle) (late : Bool) (arrival : Int) (bad : Bool)
  /-- CMDX (R354). A CMDX frame from the claim holder is received with its command slots. -/
  | cmdx (f : XlCmdx) (onTime : Bool) (bad : Bool)
  /-- DIGEST (R360). A DIGEST frame is received and compared with the own digest. -/
  | digest (cycle : Word) (kind : DigestKind) (value : Word) (bad : Bool)
  /-- SLOTX (R363). A SLOTX frame is received with the partner's side's slots and records. -/
  | slotx (cycle : Word) (slots : List SlotRx) (recs : List RecordRx) (onTime : Bool) (bad : Bool)
  /-- LEASE (R355). A LEASE frame is received and renews the partner's lease. -/
  | lease (f : XlLease) (alike : Bool) (bad : Bool)
  /-- MIRROR (R358). A MIRROR frame is received and the standby applies the mirrored item. -/
  | mirror (seq : Word) (item : MirrorItem) (w : WalkResult) (bad : Bool)
  /-- ACK (R358). An ACK frame is received and the active takes the mirrored item. -/
  | ack (seq : Word) (ok : Bool) (bad : Bool)
  /-- NOTICE (R354). A NOTICE frame is received: release, stop notice, self-test request or resync start or end. -/
  | notice (n : NoticeKind) (bad : Bool)
  /-- SNAP (R361). A SNAP frame is received and written into lane memory. -/
  | snap (offset : Nat) (data : List Word) (poison : List Nat) (bad : Bool)
  /-- STORE (R361). A STORE frame is received and its stores written into lane memory. -/
  | store (stores : List (BitVec 20 × Word)) (bad : Bool)
  /-- MIRROR_ACK_TIMEOUT (R358). A mirrored item is not acknowledged within 10 µs and the active takes it alone. -/
  | mirrorAckTimeout
  /-- LEASE_EXPIRY (R355). The partner's lease expires or CYCLE frames stop, and the partner is lost. -/
  | leaseExpiry
  /-- XLINK_DEAD (R355). The cross-link receiver becomes dead. -/
  | xlinkDead
  /-- XLINK_DEAD_TIMEOUT (R476). The cross-link receiver has been dead for 100 ms, and Distaff reinitialises XLINK. -/
  | xlinkDeadTimeout
  /-- CLAIM_IN_CHANGE (R352). CLAIM_IN changes state, leading to take-over, settle abort or dual-claim resolution. -/
  | claimInChange (asserted : Bool)
  /-- CLAIM_RELEASE (R353). The claim holder releases CLAIM_OUT on a release cause and sends NOTICE. -/
  | claimRelease (cause : ClaimCause)
  /-- CLAIM_TAKE (R356). A ready standby has read CLAIM_IN released for 10 µs with a trigger and asserts CLAIM_OUT. -/
  | claimTake
  /-- CLAIM_SETTLE_END (R351). The claim settle ends and claimed command trains start. -/
  | claimSettleEnd
  /-- CLAIM_LAPSE_TRIP (R356). A not-ready standby sees the claim lapse and passes a PROT_REQ trip request within 1 ms. -/
  | claimLapseTrip
  /-- DIVERGENCE_CHECK (R360). The standby compares digests and command slots and classifies any divergence. -/
  | divergenceCheck
  /-- RESYNC_END_CYCLE (R361). After the last SNAP, the end cycle passes and the standby re-enters RUNNING. -/
  | resyncEndCycle
  /-- RESYNC_TIMEOUT (R361). A resync has not ended within 10 ms and is aborted for retry. -/
  | resyncTimeout
  /-- RESYNC_RETRY (R361). 1000 cycles after an aborted resync, it is retried. -/
  | resyncRetry
  /-- XLINK_MARK_ECHO (R378). Every 64 cycles the standby sends a MARK on the cross-link and measures the round trip. -/
  | xlinkMarkEcho (roundTrip : Nat)
  /-- TB_INCR_NS_WRITE (R368). A write to TB_INCR_NS applies a new time-base increment from the next tick. -/
  | tbIncrNsWrite (master : Nat) (ns : BitVec 8)
  /-- TB_ADJ_NS_WRITE (R369). A write to TB_ADJ_NS applies a relative or absolute phase step. -/
  | tbAdjNsWrite (master : Nat) (data : Word)
  /-- TB_CLR_CNT (R385). A write of 1 to TB_CTRL.clr_cnt clears the TB counters. -/
  | tbClrCnt (master : Nat)
  /-- COMPARATOR_FIRE (R379). A time-base comparator reaches its due time, sets its hit bit and advances if periodic. -/
  | comparatorFire (c : BitVec 4)
  /-- CAPTURE_ARM (R380). A write of TB_CAP_CTRL_u.src arms a capture unit and clears full and ovr. -/
  | captureArm (master : Nat) (u : BitVec 3) (src : BitVec 4)
  /-- CAPTURE_EVENT (R380). An event on a capture unit's source is stamped, or sets ovr if the unit is full. -/
  | captureEvent (u : BitVec 3)
  /-- CAPTURE_NS_READ (R380). A read of TB_CAP_NS_u after its latching read frees the unit. -/
  | captureNsRead (master : Nat) (u : BitVec 3)
  /-- LATCHING_READ (R9). A read of a latching register keeps a latched copy of its companion registers for the reading master. -/
  | latchingRead (master addr : Nat)
  /-- PPS_IN_EDGE (R381). A PPS_IN rising edge is stamped and gives a servo offset or is rejected. -/
  | ppsInEdge
  /-- PTP_SYNC_RX (R375). A PTP Sync or Follow_Up is received and an offset measurement is made for the servo. -/
  | ptpSyncRx (f : PtpSync)
  /-- PTP_DELAY_REQ_SEND (R375). The module sends a Delay_Req out of one ring port. -/
  | ptpDelayReqSend (t3 : Int)
  /-- PTP_DELAY_RESP_RX (R375). A Delay_Resp is received and the port's path delay updated. -/
  | ptpDelayRespRx (port : BitVec 1) (t4 cResp : Int)
  /-- PTP_ANNOUNCE_RX (R374). An Announce message is received and the best master clock algorithm runs. -/
  | ptpAnnounceRx (f : PtpAnnounce)
  /-- PTP_TC_FORWARD (R376). A Sync or Delay_Req forwarded between ring ports gets its residence time added. -/
  | ptpTcForward (port : BitVec 1) (residence : Nat)
  /-- SYNC_HOLDOVER (R372). No measurement has been accepted for 4 expected intervals and the state becomes HOLDOVER. -/
  | syncHoldover
  /-- HOLDOVER_MAX_EXPIRY (R373). The last accepted measurement becomes older than holdover_max, and the time base is no longer synchronised. -/
  | holdoverMaxExpiry
  /-- DTLS_HANDSHAKE (R393). A DTLS handshake is received and completed by Distaff, opening a session with a master number. -/
  | dtlsHandshake (svc : Bool) (cert : ClientCert)
  /-- SESSION_CLOSE (R395). A session closes, releasing its locks, IRQ enables, streams and retry cache. -/
  | sessionClose (s : Nat)
  /-- CLOSE_NOTIFY (R394). A close_notify alert is received and the session closes. -/
  | closeNotify (s : Nat)
  /-- SESSION_IDLE_TIMEOUT (R394). No authenticated record has arrived for the idle time and the session closes. -/
  | sessionIdleTimeout (s : Nat)
  /-- ETH_SESS_CLOSE_WRITE (R418). A write to ETH_SESS_CLOSE closes the named sessions. -/
  | ethSessCloseWrite (master : Nat) (data : Word)
  /-- REQUEST (R398). A Dareri REQUEST is received and its read and write operations are executed in order. -/
  | request (s : Nat) (bytes : List Byte) (authentic ringFull : Bool)
  /-- KEEPALIVE (R396). A KEEPALIVE is received and answered. -/
  | keepalive (s : Nat)
  /-- TELEGRAM (R401). A TELEGRAM message is received and passed directly to the safety island. -/
  | telegram (s : Nat) (bytes : List Byte)
  /-- EVENT_NOTIFY (R36). GLB_IRQ_SUM AND GLB_IRQ_EN_s becomes non-zero and an EVENT message is sent to session s. -/
  | eventNotify (s : Nat)
  /-- STREAM_RECORD (R416). A stream forms its records and sends STREAM messages, dropping records on a full ring. -/
  | streamRecord (s : BitVec 4) (ringFull : Bool)
  /-- STREAM_CFG_WRITE (R416). A write to Q_STR_CFG_s configures, changes or stops a stream. -/
  | streamCfgWrite (master : Nat) (s : BitVec 4) (data : Word)
  /-- ARP_REQUEST_RX (R390). An ARP request is received and answered, or an address conflict is flagged. -/
  | arpRequestRx (srcMac : BitVec 48) (target : Word) (claimsOwn : Bool)
  /-- ICMP_ECHO_RX (R390). An ICMP echo request is received and answered within the rate limit. -/
  | icmpEchoRx (srcMac : BitVec 48) (target : Word)
  /-- LINK_UP (R390). A ring port link comes up and a gratuitous ARP is sent. -/
  | linkUp (port : BitVec 1)
  /-- LINK_DOWN (R388). A ring port loses its link and traffic continues on the other port. -/
  | linkDown (port : BitVec 1)
  /-- HSR_FRAME_RX (R387). An HSR frame is received, delivered, forwarded, discarded as a duplicate or removed. -/
  | hsrFrameRx (port : BitVec 1) (f : HsrFrame)
  /-- HSR_SUPERVISION_SEND (R387). Every 2 s an HSR supervision frame is sent. -/
  | hsrSupervisionSend
  /-- BABBLE_WINDOW (R392). A 1 s policing window ends and a port discarding more than 10 % is marked babbling. -/
  | babbleWindow (port : BitVec 1)
  /-- SFP_POWER_FAULT (R54). An SFP+ module exceeds its power limit and the cage supply is switched off. -/
  | sfpPowerFault (port : BitVec 1)
  /-- SFP_MODULE_CHANGE (R386). An SFP module is fitted or removed and the port rate is set from its compliance codes. -/
  | sfpModuleChange (port : BitVec 1) (k : SfpKind)
  /-- ETH_CLR_CNT (R418). A write of 1 to ETH_CTRL.clr_cnt clears the ETH counters. -/
  | ethClrCnt (master : Nat)
  /-- LOCK_READ (R403). A single-word read of a free lock register acquires it for the reader. -/
  | lockRead (master addr : Nat)
  /-- LOCK_RELEASE (R403). A write of 0 by the holder releases a lock register. -/
  | lockRelease (master addr : Nat)
  /-- GO (R404). A write to MBX_CTRL_m with go = 1 submits a mailbox command to Distaff. -/
  | go (master : Nat) (m : BitVec 4) (opcode : Byte) (len : BitVec 5)
  /-- MAILBOX_TIMEOUT (R405). A mailbox is still busy after MBX_CFG.timeout and is completed with TIMEOUT. -/
  | mailboxTimeout (m : BitVec 4)
  /-- MAILBOX_TIMEOUT_LADDER (R476). Three mailbox timeouts within 1 min make Distaff reinitialise MBX. -/
  | mailboxTimeoutLadder
  /-- ECHO (R407). Mailbox ECHO returns the request words. -/
  | echo (m : BitVec 4)
  /-- SESSION_INFO (R407). Mailbox SESSION_INFO returns the caller's master number, open sessions and idle time. -/
  | sessionInfo (m : BitVec 4)
  /-- RUN_START (R466). Mailbox RUN_START is checked and, if accepted, starts or joins the string through the start steps. -/
  | runStart (m : BitVec 4) (w : WalkResult)
  /-- SETTLE_COUNT_END (R467). The 1000 cycles of the SETTLE step end and the start checks are repeated on the estimation results. -/
  | settleCountEnd
  /-- RUN_STOP (R463). Mailbox RUN_STOP makes the run-state transition for a host stop. -/
  | runStop (m : BitVec 4)
  /-- STOP_CLEAR (R468). Mailbox STOP_CLEAR releases node stop latches at a position or all. -/
  | stopClear (m : BitVec 4)
  /-- FUNC_REINIT (R474). Mailbox or PWR_RESET_CTRL FUNC_REINIT reinitialises one function. -/
  | funcReinit (r : LadderReq) (f : BitVec 4)
  /-- REINIT_DONE (R474). A function reinitialisation completes and reinit_done is set. -/
  | reinitDone
  /-- MODULE_RESET (R474). Mailbox or PWR_RESET_CTRL MODULE_RESET requests a module reset, guarded if the string is energised. -/
  | moduleReset (r : LadderReq)
  /-- POWER_CYCLE (R473). Mailbox or PWR_RESET_CTRL POWER_CYCLE asserts PWR_CYCLE_REQ for 500 ms. -/
  | powerCycle (r : LadderReq)
  /-- POWER_CYCLE_FAIL (R473). The supply has not fallen 5 s after the assertion, so PWR_CYCLE_REQ is released and cycle_fail set. -/
  | powerCycleFail
  /-- RESET_GUARD (R475). The reset guard stops the string and starts the guarded action when BRK_AUX opens or after 100 ms. -/
  | resetGuard
  /-- PWR_CLR_CNT (R480). A write of 1 to PWR_CTRL.clr_cnt clears the PWR counters. -/
  | pwrClrCnt (master : Nat)
  /-- LOG_MARK (R502). Mailbox LOG_MARK writes a host marker entry into the event log. -/
  | logMark (m : BitVec 4)
  /-- START (R408). A write of 1 to OP_CTRL_n.start queues the slot's operation. -/
  | start (master : Nat) (n : BitVec 4)
  /-- OP_ABORT (R411). A write of 1 to OP_CTRL_n.abort ends the operation in ABORTED. -/
  | opAbort (master : Nat) (n : BitVec 4)
  /-- OP_ACK_WRITE (R410). A write to OP_ACK_n reports read records and lets a paused operation continue. -/
  | opAckWrite (master : Nat) (n : BitVec 4) (count : BitVec 24)
  /-- OPERATION_END (R409). An operation reaches a final state and sets its OP_IRQ_STAT bit. -/
  | operationEnd (n : BitVec 4)
  /-- NODE_READ (R413). Operation NODE_READ sends a MGMT READ to a node. -/
  | nodeRead (n : BitVec 4) (resp : Option MgmtResp)
  /-- NODE_WRITE (R413). Operation NODE_WRITE sends a MGMT WRITE to a node or all. -/
  | nodeWrite (n : BitVec 4) (resp : Option MgmtResp)
  /-- WIRE_CAL (R288). Operation WIRE_CAL measures the bleed wire drops of every node. -/
  | wireCal (n : BitVec 4) (recs : List WireRec)
  /-- LOG_READ (R498). Operation LOG_READ returns event log or archive entries. -/
  | logRead (n : BitVec 4)
  /-- PROG_STORE (R498). Operation PROG_STORE writes a verified program image to a slot. -/
  | progStore (n : BitVec 4) (flashOk : Bool)
  /-- PROG_LOAD (R498). Operation PROG_LOAD checks and loads a program into program memory. -/
  | progLoad (n : BitVec 4)
  /-- CAL_READ (R499). Operation CAL_READ returns calibration records. -/
  | calRead (n : BitVec 4)
  /-- CAL_WRITE (R499). Operation CAL_WRITE writes calibration records to both copies. -/
  | calWrite (n : BitVec 4) (flashOk : Bool)
  /-- CONFIG_SAVE (R500). Operation CONFIG_SAVE writes the configuration copy. -/
  | configSave (n : BitVec 4) (flashOk : Bool)
  /-- SELFTEST (R516). Operation SELFTEST runs the masked tests in order. -/
  | selftest (n : BitVec 4) (results : List TestResult)
  /-- UPDATE_OPEN (R491). Operation UPDATE_OPEN acquires or rebinds the update owner lock. -/
  | updateOpen (n : BitVec 4)
  /-- UPDATE_WRITE (R493). Operation UPDATE_WRITE programs one staging page. -/
  | updateWrite (n : BitVec 4) (flashOk : Bool)
  /-- UPDATE_VERIFY (R493). Operation UPDATE_VERIFY checks the staged image. -/
  | updateVerify (n : BitVec 4) (sig : SigFacts)
  /-- UPDATE_ACTIVATE (R494). Operation UPDATE_ACTIVATE activates a verified firmware image or key bundle. -/
  | updateActivate (n : BitVec 4)
  /-- UPDATE_CONFIRM (R495). Operation UPDATE_CONFIRM confirms a trial image and advances the rollback counter. -/
  | updateConfirm (n : BitVec 4)
  /-- UPDATE_CLOSE (R493). Operation UPDATE_CLOSE releases the owner lock and clears the block map. -/
  | updateClose (n : BitVec 4)
  /-- LIFECYCLE_SET (R483). Operation LIFECYCLE_SET changes the life-cycle state, performs wipes and resets the module. -/
  | lifecycleSet (n : BitVec 4)
  /-- UPDATE_LOCK_TIMEOUT (R491). The owner lock has been idle for 10 min and is released with the staging data discarded. -/
  | updateLockTimeout
  /-- CONFIRM_WINDOW_EXPIRY (R495). The confirm window ends without a confirm and the module resets. -/
  | confirmWindowExpiry
  /-- LOG_ARCHIVE (R502). Once 128 unarchived entries exist, Distaff copies them to the archive on NOR1. -/
  | logArchive
  /-- SAF_KEY_WRITE (R344). A write to SAF_KEY advances or aborts a keyed sequence. -/
  | safKeyWrite (master : Nat) (key : Word)
  /-- KEY_SEQUENCE_TIMEOUT (R344). No second key within 1 ms aborts the keyed sequence. -/
  | keySequenceTimeout
  /-- RESET_ARM_EXPIRY (R345). The armed fault reset lapses after 1 s without a reset telegram. -/
  | resetArmExpiry
  /-- DOOR_INPUT_CHANGE (R329). A DOOR channel changes after the filter, making or ending a demand and advancing the door test. -/
  | doorInputChange (c : Channel) (on : Bool)
  /-- ESTOP_INPUT_CHANGE (R329). An ESTOP channel changes after the filter, making a latched demand. -/
  | estopInputChange (c : Channel) (on : Bool)
  /-- INPUT_DISCREPANCY (R329). The two channels of DOOR or ESTOP differ for 50 ms and DISCREPANCY is recorded. -/
  | inputDiscrepancy (i : ContactInput)
  /-- CROSS_SHORT (R73). An input fails to follow its own off-pulse or follows the other channel's, and CROSS_SHORT is recorded. -/
  | crossShort (i : SourcedInput)
  /-- FAULT_LOOP_OPEN (R333). The fault-loop current is below 5 mA for 20 µs and channel A demands the stop broadcast. -/
  | faultLoopOpen
  /-- HVIL_OPEN (R333). The HVIL loop current is below 5 mA for 20 µs and HVIL is recorded. -/
  | hvilOpen
  /-- LOOP_SUPPLY_FAULT (R47). The 60 V loop supply leaves its limits and both channels treat the loops as open. -/
  | loopSupplyFault
  /-- COIL_RAIL_FAULT (R80). The fused coil rail reads below 15 V with the supply at 20 V or more. -/
  | coilRailFault
  /-- CHANNEL_EXCHANGE (R324). Every 100 µs the channels exchange inputs, demands, CRC and counter. -/
  | channelExchange
  /-- CHANNEL_LINK_LOSS (R324). A channel receives no valid exchange for 500 µs or finds the rate off, and acts alone. -/
  | channelLinkLoss (c : Channel)
  /-- CHANNEL_B_BRK_TRIP_RELEASE (R325). Channel B acting alone releases its BRK_TRIP low side trip_timeout + 0.5 ms after detection. -/
  | channelBBrkTripRelease
  /-- OUTPUT_TEST_PULSE (R335). Every 2 s a channel interrupts its BRK_TRIP switch for 400 µs and checks the output. -/
  | outputTestPulse (c : Channel) (o : Drive) (ok : Bool)
  /-- SOURCE_OFF_PULSE (R72). Every 2 s each source pin carries a 400 µs off-pulse that tests its input. -/
  | sourceOffPulse (c : Channel)
  /-- TRIP_RELEASE (R334). After a demand or open request, channel A releases BRK_TRIP once the current stays small for trip_hold or at trip_timeout. -/
  | tripRelease
  /-- TELEGRAM_COPY_RX (R339). A command telegram copy from Ethernet or CAN1 is validated and compared, and demanding flags act at once. -/
  | telegramCopyRx (p : TelPath) (bytes : List Byte)
  /-- TELEGRAM_CONFIRM_WINDOW (R340). No second copy arrives within 5 ms and the telegram is confirmed from a single copy. -/
  | telegramConfirmWindow
  /-- TELEGRAM_PATH_LOSS (R341). A path delivers no valid copy for 20 ms and is lost; with both lost, or no confirmation, TEL_LOSS is recorded. -/
  | telegramPathLoss (p : TelPath)
  /-- TRIP_CONFIRM_TIMEOUT (R342). 2 × tel_period after a trip or no-permit telegram, the trip counts as confirmed. -/
  | tripConfirmTimeout
  /-- CAN_FRAME_RX (R430). A CAN frame is received without error and stored in a buffer or the FIFO, stamped. -/
  | canFrameRx (x : BitVec 1) (f : CanFrame) (sofNs : Nat)
  /-- CAN_FRAME_TX_DONE (R433). A CAN frame is sent without error and its buffer's pending state and stamp are updated. -/
  | canFrameTxDone (x : BitVec 1) (b : BitVec 5) (tdcv : BitVec 7) (sofNs : Nat)
  /-- CAN_CLASH_LOSS (R434). A transmit attempt ends in a clash loss and the buffer is suspended at 8 losses. -/
  | canClashLoss (x : BitVec 1) (b : BitVec 5) (bitErr : Bool)
  /-- CAN_FIXED_RESUME (R434). A suspended fixed buffer resumes 1 s after its suspension. -/
  | canFixedResume (x : BitVec 1)
  /-- CAN_ERROR (R435). A CAN error updates the counters and may make the port error-passive or bus-off. -/
  | canError (x : BitVec 1) (kind : CanErr) (inData transmitting : Bool) (tecAdd recAdd : Nat)
  /-- RECOVER (R435). A write of 1 to CANx_CTRL.recover starts bus-off recovery. -/
  | recover (master : Nat) (x : BitVec 1)
  /-- CAN_RECOVERY_END (R435). 128 occurrences of 11 recessive bits end bus-off recovery. -/
  | canRecoveryEnd (x : BitVec 1)
  /-- CAN_BUSOFF_TIMEOUT (R476). A CAN port stays in bus-off for 1 s and Distaff reinitialises it. -/
  | canBusoffTimeout (x : BitVec 1)
  /-- CAN_CLR_CNT (R440). A write of 1 to CANx_CTRL.clr_cnt clears the port's counters. -/
  | canClrCnt (master : Nat) (x : BitVec 1)
  /-- MB_COMMIT (R429). A write of 1 to CANx_MB_CTRL_b.commit copies the shadow into the buffer and makes it pending. -/
  | mbCommit (master : Nat) (x : BitVec 1) (b : BitVec 5)
  /-- MB_ABORT (R439). A write of 1 to CANx_MB_CTRL_b.abort ends the buffer's pending state. -/
  | mbAbort (master : Nat) (x : BitVec 1) (b : BitVec 5)
  /-- CLR_FULL (R432). A write of 1 to CANx_MB_CTRL_b.clr_full frees a receive buffer. -/
  | clrFull (master : Nat) (x : BitVec 1) (b : BitVec 5)
  /-- POP (R432). A write of 1 to CANx_FIFO_CTRL.pop removes the FIFO head entry. -/
  | pop (master : Nat) (x : BitVec 1)
  /-- CARDER_READ (R449). Carder reads its next code word, corrects or poisons it and advances its pass. -/
  | carderRead (cls : EccClass) (syndrome : Byte) (upsets : List Upset)
  /-- PROGRAM_REPAIR (R452). In the repair window Distaff rewrites a poisoned program-memory word from the image. -/
  | programRepair
  /-- LINE_REMAP (R453). A weak line is copied to a spare line and remapped. -/
  | lineRemap (inst : Nat) (line : BitVec 11)
  /-- MEM_CLR_CNT (R457). A write of 1 to MEM_CTRL.clr_cnt clears the MEM counters. -/
  | memClrCnt (master : Nat)
  /-- MEM_REMAP_WRITE (R458). A write to MEM_REMAP_i_e sets or frees a remap entry. -/
  | memRemapWrite (master : Nat) (i : Nat) (e : BitVec 3) (data : Word)
  /-- TAP_UPDATE_IR (R514). A boundary-scan instruction is loaded, EXTEST-class only under its conditions and with the held-safe set. -/
  | tapUpdateIr (ctrl : Byte) (comp : BitVec 6)
  /-- TAP_LEAVE_EXTEST (R514). The TAP leaves an EXTEST-class instruction and the supervisor makes a module reset. -/
  | tapLeaveExtest
  /-- REGISTER_WRITE (R10). A write to a register without a row of its own is checked and applied or refused. -/
  | registerWrite (master addr : Nat) (data : Word)
  /-- CLOCK_GOOD_AGAIN (R20). A faulted island clock is measured good again, so its PWR_CI_STAT.clk_ok bit returns to 1, the 10 ms recovery count starts and, for CI_MGMT, the Distaff restart begins. -/
  | clockGoodAgain (i : Island)
  /-- PORT_RELOCK (R476). A chain port's receiver regains lock on its incoming stream and rx_lock returns to 1. -/
  | portRelock (p : Port)
  /-- HVIL_CLOSE (R327). The HVIL loop current returns above the open-loop threshold, ending the non-latched HVIL cause. -/
  | hvilClose (current : Byte) (over60 : Bool)
  /-- FAULT_LOOP_CLOSE (R333). The fault-loop current returns above 5 mA, so SAF_INPUT.floop reads closed and the FLOOP cause condition is gone, which a fault reset requires. -/
  | faultLoopClose (current : Byte) (over60 : Bool)
  /-- LOOP_SUPPLY_RECOVERY (R326). The 60 V loop supply returns within its limits and loop_supply_ok sets, as the run permit requires. -/
  | loopSupplyRecovery
  /-- COIL_RAIL_RECOVERY (R80). The fused coil rail returns above 15 V, and SAF_FAULT.coil_rail and the coil_ok condition of the close permit clear. -/
  | coilRailRecovery
  /-- BANK_CRC_DONE (R211). The CRC-32C of the shadow bank, started by a swap request, completes into SPN_BANK_CRC_S and crc_busy clears. -/
  | bankCrcDone
  /-- CAN_BUS_JOIN (R437). After 11 consecutive recessive bits the CAN port leaves INTEGRATING and joins the bus as ERROR_ACTIVE. -/
  | canBusJoin (x : BitVec 1)
  /-- OPERATING_HOUR (R501). Each full hour with AON powered increments the persistent operating-hours counter MGT_PCNT_HOURS. -/
  | operatingHour
  /-- POWER_CYCLE_PULSE_END (R473). PWR_CYCLE_REQ has been asserted for 500 ms and its assertion ends. -/
  | powerCyclePulseEnd
  deriving DecidableEq, Repr

end Sys2Proof
end

