-- ==== Sys2Proof/Decode.lean ====
section
/-!
DEFINITION. Decoding of a table word. The rows of spec/opcode_table.json carry no bits: no word spells a command.
-/

namespace Sys2Proof

/-- The command that a word spells by the table's bits: none, since no row gives bits.
DESIGN CHOICE: log entry 5. -/
def decodeTableWord (_nbits _w : Nat) : Option Instr := none

end Sys2Proof
end

