-- ==== Sys2Proof/Config.lean ====
section
/-!
DEFINITION. What the spec leaves open: free values as constants without a body. No proof can see what they are, so a
statement about one holds for every value. `Config.freeValue` is applied to the counter `freeTick` of the state, which
each use advances; the functions below it are applied to the operands they depend on.
-/

namespace Sys2Proof

/-- A value that the spec leaves open: a measured value it bounds but does not give, or a number that an outside party
or an unstated layout decides.
DESIGN CHOICE: log entries 15, 24. -/
opaque Config.freeValue : Nat → BitVec 32

/-- Whether the reference control program's quantity number `k`, whose exact value `x` is no BFP value, takes the next
larger BFP value instead of the next smaller one: the spec gives its formulas and not the roundings on the way.
DESIGN CHOICE: log entry 51. -/
opaque Config.refUp : Nat → Rat → Bool

/-- The reference control program's exponential of an exact argument, whose rounding the spec does not state.
DESIGN CHOICE: log entry 51. -/
opaque Config.refExp : Rat → BitVec 32

/-- Its natural logarithm.
DESIGN CHOICE: log entry 51. -/
opaque Config.refLn : Rat → BitVec 32

/-- Its square root.
DESIGN CHOICE: log entry 51. -/
opaque Config.refSqrt : Rat → BitVec 32

/-- Its sine of a number of turns, outside INJ.
DESIGN CHOICE: log entry 51. -/
opaque Config.refSin : Rat → BitVec 32

/-- The bus voltage that it uses in a cycle without a bus sample, from the one before: no rule states it.
DESIGN CHOICE: log entry 70. -/
opaque Config.refBus : BitVec 32 → BitVec 32

/-- The integer by which a lane's results show the states of its sense wires (R264), whose coding no rule states.
DESIGN CHOICE: log entry 70. -/
opaque Config.wireState : List Nat → BitVec 24

/-- The mantissa of a ply that a mask keeps in a lane written in integer form, where the kept value has no 24-bit
integer: R214 re-expresses it at exponent 0 and no rule states the result.
DESIGN CHOICE: log entry 70. -/
opaque Config.keptPly : BitVec 24 → BitVec 8 → BitVec 24

/-- The byte offset at which a hardware ring stands whose entries are taken as they come: no rule states the size of its
entries (R415, R420).
DESIGN CHOICE: log entry 70. -/
opaque Config.ringPtr : Nat → Nat → BitVec 16

/-- The SHA-384 of bytes, as twelve words (R487).
DESIGN CHOICE: log entry 47. -/
opaque Config.sha384 : List (BitVec 8) → List (BitVec 32)

/-- The SHA-256 of a node image (R128).
DESIGN CHOICE: log entry 47. -/
opaque Config.sha256 : List (BitVec 8) → List (BitVec 8)

/-- What a KEYS section holds (R488), whose layout no rule states: key id, number of anchors less 1, policy bit.
DESIGN CHOICE: log entry 47. -/
opaque Config.keysSection : List (BitVec 8) → BitVec 64 × Nat × Bool

/-- The code of an event-log entry of a class other than safety, reset and host marker, by the model's number of the
event (R502 names the classes and gives codes for safety and resets alone).
DESIGN CHOICE: log entry 40. -/
opaque Config.logCode : BitVec 8 → Nat → BitVec 16

/-- The severity of an event-log entry (R502 assigns none).
DESIGN CHOICE: log entry 40. -/
opaque Config.logSeverity : BitVec 8 → Nat → BitVec 8

/-- A number of microvolts as a BFP word in volts, whose rounding no rule states where Distaff forms it (R288, R499).
DESIGN CHOICE: log entry 46. -/
opaque Config.microvoltWord : Int → BitVec 32

/-- INJ's value for SQUARE and PRBS with a period of 0, which R258 does not state, by the descriptor and the place in the
injection.
DESIGN CHOICE: log entry 70. -/
opaque Config.injOpen : List (BitVec 32) → Nat → BitVec 32

/-- The calibration record, of 0 to 255, that holds the shunt's scaling (R69, R499 give no layout).
DESIGN CHOICE: log entry 70. -/
opaque Config.shuntRecord : Nat

/-- The calibration record that holds the fluxgate's scaling.
DESIGN CHOICE: log entry 70. -/
opaque Config.fgRecord : Nat

/-- The current per volt at the shunt as a BFP word, by the words of its calibration record and the shunt temperature in 0.01 °C.
DESIGN CHOICE: log entry 70. -/
opaque Config.shuntScale : List (BitVec 32) → Int → BitVec 32

/-- The shunt's offset in conversion steps, by the words of its calibration record.
DESIGN CHOICE: log entry 70. -/
opaque Config.shuntOffset : List (BitVec 32) → Int

/-- k_fg of R521 as a BFP word, by the words of its calibration record.
DESIGN CHOICE: log entry 70. -/
opaque Config.fgScale : List (BitVec 32) → BitVec 32

end Sys2Proof
end

