-- ==== Sys2Proof/Machine/Regs.lean ====
section
/-!
DEFINITION. The host-visible registers: every register of the spec's register tables (R32 to R37, R121, R158, R195,
R227, R296, R321, R347, R364, R383, R384, R418 to R421, R439, R457, R480, R504, R505) with its address (R30), its
writable bits by access code (R6) and its reset word (R7); and every field as an address, a lowest bit and a width.
-/

namespace Sys2Proof.Machine

/-- One register row of a table: `n1` copies at stride `s1`, each of `n2` words at stride `s2`, from `first`.
`rw` holds the RW and RWS bits, `w1c` the RW1C bits, `wo` the WO bits (R6); every other bit is read-only or
reserved (R8). `reset` is the Reset column (R7). -/
structure RegRow where
  first : Nat
  n1    : Nat
  s1    : Nat
  n2    : Nat
  s2    : Nat
  rw    : Word
  w1c   : Word
  wo    : Word
  reset : Word
  deriving DecidableEq, Repr

/-- The address `a` names a word of the row. -/
def RegRow.has (r : RegRow) (a : Nat) : Bool :=
  decide (r.first ≤ a) &&
  (let d := a - r.first
   decide (d / r.s1 < r.n1) && decide (d % r.s1 % r.s2 = 0) && decide (d % r.s1 / r.s2 < r.n2))

/-- A field of a register: its address, its lowest bit and its width. -/
structure Field where
  addr  : Nat
  lsb   : Nat
  width : Nat
  deriving DecidableEq, Repr

/-- The registers of block GLB. -/
def regRowsGLB : List RegRow :=
  [⟨0x0, 1, 4, 1, 4, 0x0, 0x0, 0x0, 0xE7101800⟩ /- GLB_ID -/,
   ⟨0x4, 1, 4, 1, 4, 0x0, 0x0, 0x0, 0x41⟩ /- GLB_HW_VER -/,
   ⟨0x8, 1, 4, 1, 4, 0x0, 0x0, 0x0, 0x0⟩ /- GLB_FW_VER -/,
   ⟨0xC, 1, 4, 1, 4, 0x0, 0x0, 0x0, 0x1⟩ /- GLB_PROG_VER -/,
   ⟨0x10, 1, 4, 1, 4, 0x0, 0x0, 0x0, 0x0⟩ /- GLB_SERIAL_LO -/,
   ⟨0x14, 1, 4, 1, 4, 0x0, 0x0, 0x0, 0x0⟩ /- GLB_SERIAL_HI -/,
   ⟨0x18, 1, 4, 1, 4, 0x0, 0x0, 0x0, 0x0⟩ /- GLB_SLOT -/,
   ⟨0x20, 1, 4, 1, 4, 0x0, 0x0, 0x0, 0x0⟩ /- GLB_STATUS -/,
   ⟨0x30, 1, 4, 1, 4, 0x0, 0x0, 0x0, 0x0⟩ /- GLB_IRQ_SUM -/,
   ⟨0x40, 8, 4, 1, 4, 0x7FFFF, 0x0, 0x0, 0x0⟩ /- GLB_IRQ_EN_s -/]

/-- The registers of block LCY. -/
def regRowsLCY : List RegRow :=
  [⟨0x10000, 1, 4, 1, 4, 0x0, 0x0, 0x0, 0x0⟩ /- LCY_STATE -/,
   ⟨0x10004, 1, 4, 1, 4, 0x0, 0x0, 0x0, 0x0⟩ /- LCY_ROLLBACK -/,
   ⟨0x10008, 1, 4, 1, 4, 0x0, 0x0, 0x0, 0x0⟩ /- LCY_OWNER_ID_LO -/,
   ⟨0x1000C, 1, 4, 1, 4, 0x0, 0x0, 0x0, 0x0⟩ /- LCY_OWNER_ID_HI -/,
   ⟨0x10010, 1, 4, 1, 4, 0x0, 0x0, 0x0, 0x0⟩ /- LCY_WIPE_STAT -/,
   ⟨0x10014, 1, 4, 1, 4, 0x0, 0x0, 0x0, 0x0⟩ /- LCY_CNT_CHANGE -/]

/-- The registers of block PWR. -/
def regRowsPWR : List RegRow :=
  [⟨0x20000, 1, 4, 1, 4, 0x3FF, 0x0, 0x0, 0x3FF⟩ /- PWR_PD_CTRL -/,
   ⟨0x20004, 1, 4, 1, 4, 0x0, 0x0, 0x0, 0x0⟩ /- PWR_PD_STAT -/,
   ⟨0x20008, 1, 4, 1, 4, 0x0, 0x0, 0x0, 0x0⟩ /- PWR_CI_STAT -/,
   ⟨0x2000C, 1, 4, 1, 4, 0x0, 0xFFF, 0x0, 0x0⟩ /- PWR_CI_FAULT -/,
   ⟨0x20020, 1, 4, 1, 4, 0x0, 0x0, 0x0, 0x0⟩ /- PWR_SUP_STAT -/,
   ⟨0x20024, 1, 4, 1, 4, 0x0, 0x0, 0x0, 0x0⟩ /- PWR_SUP_BO -/,
   ⟨0x20028, 1, 4, 1, 4, 0x0, 0x0, 0x1, 0x0⟩ /- PWR_CTRL -/,
   ⟨0x20030, 1, 4, 1, 4, 0x0, 0x0, 0x0, 0x0⟩ /- PWR_RUN_STAT -/,
   ⟨0x20034, 1, 4, 1, 4, 0x0, 0x0, 0x0, 0x0⟩ /- PWR_RUN_CYC -/,
   ⟨0x20038, 1, 4, 1, 4, 0xFFFF, 0x0, 0x0, 0x1⟩ /- PWR_RESET_CAUSE -/,
   ⟨0x2003C, 1, 4, 1, 4, 0x0, 0x0, 0xFFFF0F07, 0x0⟩ /- PWR_RESET_CTRL -/,
   ⟨0x20040, 1, 4, 1, 4, 0x0, 0x0, 0x0, 0x0⟩ /- PWR_LADDER_STAT -/]
  ++ [⟨0x20050, 1, 4, 1, 4, 0x0, 0xFF, 0x0, 0x0⟩ /- PWR_IRQ_STAT -/,
   ⟨0x20054, 1, 4, 1, 4, 0xFF, 0x0, 0x0, 0x0⟩ /- PWR_IRQ_EN -/,
   ⟨0x20080, 9, 4, 1, 4, 0xFFFFFFFF, 0x0, 0x0, 0x0⟩ /- PWR_CNT_REINIT_f -/,
   ⟨0x200A4, 1, 4, 1, 4, 0xFFFFFFFF, 0x0, 0x0, 0x0⟩ /- PWR_CNT_RESET -/,
   ⟨0x200A8, 1, 4, 1, 4, 0xFFFFFFFF, 0x0, 0x0, 0x0⟩ /- PWR_CNT_DISTAFF -/,
   ⟨0x200AC, 1, 4, 1, 4, 0xFFFFFFFF, 0x0, 0x0, 0x0⟩ /- PWR_CNT_BROWNOUT -/,
   ⟨0x200B0, 1, 4, 1, 4, 0xFFFFFFFF, 0x0, 0x0, 0x0⟩ /- PWR_CNT_HOLDUP -/]

/-- The registers of block TB. -/
def regRowsTB : List RegRow :=
  [⟨0x30000, 1, 4, 1, 4, 0xC3, 0x0, 0x20, 0x81⟩ /- TB_CTRL -/,
   ⟨0x30004, 1, 4, 1, 4, 0x0, 0x0, 0x0, 0x0⟩ /- TB_STAT -/,
   ⟨0x30008, 1, 4, 1, 4, 0x0, 0x0, 0x0, 0x0⟩ /- TB_TIME_NS -/,
   ⟨0x3000C, 1, 4, 1, 4, 0x0, 0x0, 0x0, 0x0⟩ /- TB_TIME_SEC_LO -/,
   ⟨0x30010, 1, 4, 1, 4, 0x0, 0x0, 0x0, 0x0⟩ /- TB_TIME_SEC_HI -/,
   ⟨0x30014, 1, 4, 1, 4, 0x0, 0x0, 0x0, 0x0⟩ /- TB_TIME_FRAC -/,
   ⟨0x30018, 1, 4, 1, 4, 0xFFFFFFFF, 0x0, 0x0, 0x0⟩ /- TB_INCR_FRAC -/,
   ⟨0x3001C, 1, 4, 1, 4, 0xFF, 0x0, 0x0, 0x8⟩ /- TB_INCR_NS -/,
   ⟨0x30020, 1, 4, 1, 4, 0xFFFFFFFF, 0x0, 0x0, 0x0⟩ /- TB_ADJ_SEC_LO -/,
   ⟨0x30024, 1, 4, 1, 4, 0xFFFFFFFF, 0x0, 0x0, 0x0⟩ /- TB_ADJ_SEC_HI -/,
   ⟨0x30028, 1, 4, 1, 4, 0x0, 0x0, 0xFFFFFFFF, 0x0⟩ /- TB_ADJ_NS -/,
   ⟨0x3002C, 1, 4, 1, 4, 0x0, 0x0, 0x0, 0x0⟩ /- TB_OFFSET -/]
  ++ [⟨0x30030, 1, 4, 1, 4, 0x0, 0x0, 0x0, 0x0⟩ /- TB_PAIR_OFS -/,
   ⟨0x30034, 1, 4, 1, 4, 0x0, 0x0, 0x0, 0x0⟩ /- TB_XL_DELAY -/,
   ⟨0x30038, 1, 4, 1, 4, 0xFFFFFFFF, 0x0, 0x0, 0x643C0064⟩ /- TB_SYNC_CFG -/,
   ⟨0x3003C, 1, 4, 1, 4, 0xFFFF01FF, 0x0, 0x0, 0xA0064⟩ /- TB_PULSE -/,
   ⟨0x30040, 1, 4, 1, 4, 0x0, 0x3F, 0x0, 0x0⟩ /- TB_IRQ_STAT -/,
   ⟨0x30044, 1, 4, 1, 4, 0x3F, 0x0, 0x0, 0x0⟩ /- TB_IRQ_EN -/,
   ⟨0x30048, 1, 4, 1, 4, 0x0, 0xFFFF, 0x0, 0x0⟩ /- TB_CMP_HIT -/,
   ⟨0x30050, 1, 4, 1, 4, 0x0, 0x0, 0x0, 0x0⟩ /- TB_CNT_STEP -/,
   ⟨0x30054, 1, 4, 1, 4, 0x0, 0x0, 0x0, 0x0⟩ /- TB_CNT_SKIP -/,
   ⟨0x30058, 1, 4, 1, 4, 0x0, 0x0, 0x0, 0x0⟩ /- TB_CNT_CAP_OVR -/,
   ⟨0x3005C, 1, 4, 1, 4, 0x0, 0x0, 0x0, 0x0⟩ /- TB_CNT_PPS_REJ -/,
   ⟨0x30100, 16, 16, 1, 4, 0x3, 0x0, 0x0, 0x0⟩ /- TB_CMP_CTRL_c -/]
  ++ [⟨0x30104, 16, 16, 1, 4, 0xFFFFFFFF, 0x0, 0x0, 0x0⟩ /- TB_CMP_SEC_c -/,
   ⟨0x30108, 16, 16, 1, 4, 0x3FFFFFFF, 0x0, 0x0, 0x0⟩ /- TB_CMP_NS_c -/,
   ⟨0x3010C, 16, 16, 1, 4, 0xFFFFFFFF, 0x0, 0x0, 0x0⟩ /- TB_CMP_PER_c -/,
   ⟨0x30200, 8, 16, 1, 4, 0xF, 0x0, 0x0, 0x0⟩ /- TB_CAP_CTRL_u -/,
   ⟨0x30204, 8, 16, 1, 4, 0x0, 0x0, 0x0, 0x0⟩ /- TB_CAP_SEC_u -/,
   ⟨0x30208, 8, 16, 1, 4, 0x0, 0x0, 0x0, 0x0⟩ /- TB_CAP_NS_u -/]

/-- The registers of block MBX. -/
def regRowsMBX : List RegRow :=
  [⟨0x40000, 16, 256, 1, 4, 0xFF001F00, 0x0, 0x1, 0x0⟩ /- MBX_CTRL_m -/,
   ⟨0x40004, 16, 256, 1, 4, 0x0, 0x0, 0x0, 0x0⟩ /- MBX_STAT_m -/,
   ⟨0x40008, 16, 256, 1, 4, 0xF, 0x0, 0x0, 0x0⟩ /- MBX_LOCK_m -/,
   ⟨0x40040, 16, 256, 16, 4, 0xFFFFFFFF, 0x0, 0x0, 0x0⟩ /- MBX_DATA_m_k -/,
   ⟨0x41000, 1, 4, 1, 4, 0x0, 0xFFFF, 0x0, 0x0⟩ /- MBX_DB_STAT -/,
   ⟨0x41004, 1, 4, 1, 4, 0xFFFF, 0x0, 0x0, 0x0⟩ /- MBX_DB_EN -/,
   ⟨0x41008, 1, 4, 1, 4, 0xFFFF, 0x0, 0x0, 0x3E8⟩ /- MBX_CFG -/,
   ⟨0x41100, 16, 4, 1, 4, 0xF, 0x0, 0x0, 0x0⟩ /- MBX_GLOCK_k -/,
   ⟨0x41200, 1, 4, 1, 4, 0x0, 0x0, 0x0, 0x0⟩ /- MBX_CNT_TIMEOUT -/]

/-- The registers of block Q. -/
def regRowsQ : List RegRow :=
  [⟨0x50000, 64, 16, 1, 4, 0x0, 0x0, 0x0, 0x0⟩ /- Q_BASE_r -/,
   ⟨0x50004, 64, 16, 1, 4, 0x0, 0x0, 0x0, 0x0⟩ /- Q_SIZE_r -/,
   ⟨0x50008, 64, 16, 1, 4, 0x0, 0x0, 0x0, 0x0⟩ /- Q_PTR_r -/,
   ⟨0x5000C, 64, 16, 1, 4, 0x0, 0x0, 0x0, 0x0⟩ /- Q_CNT_DROP_r -/,
   ⟨0x51000, 16, 16, 1, 4, 0xFFFF0000, 0x0, 0x0, 0x10000⟩ /- Q_STR_CFG_s -/,
   ⟨0x51004, 16, 16, 1, 4, 0xFFFF, 0x0, 0x0, 0x7F00⟩ /- Q_STR_POS_s -/,
   ⟨0x51008, 16, 16, 1, 4, 0x0, 0x0, 0x0, 0x0⟩ /- Q_STR_SEQ_s -/,
   ⟨0x5100C, 16, 16, 1, 4, 0x0, 0x0, 0x0, 0x0⟩ /- Q_STR_DROP_s -/]

/-- The registers of block OP. -/
def regRowsOP : List RegRow :=
  [⟨0x60000, 16, 128, 1, 4, 0xFF0000, 0x0, 0x6, 0x0⟩ /- OP_CTRL_n -/,
   ⟨0x60004, 16, 128, 1, 4, 0x0, 0x0, 0x0, 0x0⟩ /- OP_STATUS0_n -/,
   ⟨0x60008, 16, 128, 1, 4, 0x0, 0x0, 0x0, 0x0⟩ /- OP_STATUS1_n -/,
   ⟨0x6000C, 16, 128, 1, 4, 0xF, 0x0, 0x0, 0x0⟩ /- OP_OWNER_n -/,
   ⟨0x60010, 16, 128, 1, 4, 0xFFFFFF, 0x0, 0x0, 0x0⟩ /- OP_ACK_n -/,
   ⟨0x60040, 16, 128, 16, 4, 0xFFFFFFFF, 0x0, 0x0, 0x0⟩ /- OP_ARG_n_k -/,
   ⟨0x60800, 1, 4, 1, 4, 0x0, 0xFFFF, 0x0, 0x0⟩ /- OP_IRQ_STAT -/,
   ⟨0x60804, 1, 4, 1, 4, 0xFFFF, 0x0, 0x0, 0x0⟩ /- OP_IRQ_EN -/]

/-- The registers of block MEM. -/
def regRowsMEM : List RegRow :=
  [⟨0x70000, 1, 4, 1, 4, 0x0, 0x0, 0x1, 0x0⟩ /- MEM_CTRL -/,
   ⟨0x70004, 1, 4, 1, 4, 0xFFF, 0x0, 0x0, 0x3C⟩ /- MEM_SCRUB_CFG -/,
   ⟨0x70008, 1, 4, 1, 4, 0x0, 0x0, 0x0, 0x0⟩ /- MEM_SCRUB_POS -/,
   ⟨0x7000C, 1, 4, 1, 4, 0x0, 0x0, 0x0, 0x0⟩ /- MEM_ERR_LOC -/,
   ⟨0x70010, 1, 4, 1, 4, 0x0, 0x0, 0x0, 0x0⟩ /- MEM_ERR_INFO -/,
   ⟨0x70020, 1, 4, 1, 4, 0x0, 0xFF, 0x0, 0x0⟩ /- MEM_IRQ_STAT -/,
   ⟨0x70024, 1, 4, 1, 4, 0xFF, 0x0, 0x0, 0x0⟩ /- MEM_IRQ_EN -/,
   ⟨0x70040, 1, 4, 1, 4, 0x0, 0x0, 0x0, 0x0⟩ /- MEM_CNT_UE -/,
   ⟨0x70044, 1, 4, 1, 4, 0x0, 0x0, 0x0, 0x0⟩ /- MEM_CNT_POISON_HIT -/,
   ⟨0x70048, 1, 4, 1, 4, 0x0, 0x0, 0x0, 0x0⟩ /- MEM_CNT_MERGE -/,
   ⟨0x7004C, 1, 4, 1, 4, 0x0, 0x0, 0x0, 0x0⟩ /- MEM_CNT_ABANDON -/,
   ⟨0x70050, 1, 4, 1, 4, 0x0, 0x0, 0x0, 0x0⟩ /- MEM_CNT_REPAIR -/]
  ++ [⟨0x70054, 1, 4, 1, 4, 0x0, 0x0, 0x0, 0x0⟩ /- MEM_CNT_REMAP -/,
   ⟨0x70058, 1, 4, 1, 4, 0x0, 0x0, 0x0, 0x0⟩ /- MEM_CNT_PASS -/,
   ⟨0x70100, 48, 4, 1, 4, 0x0, 0x0, 0x0, 0x0⟩ /- MEM_CNT_CE_i -/,
   ⟨0x70400, 48, 32, 8, 4, 0x800007FF, 0x0, 0x0, 0x0⟩ /- MEM_REMAP_i_e -/]

/-- The registers of block CHA. -/
def regRowsCHA : List RegRow :=
  [⟨0x80000, 1, 4, 1, 4, 0x3, 0x0, 0x1C, 0x0⟩ /- CHA_CTRL -/,
   ⟨0x80004, 1, 4, 1, 4, 0x3FFFF, 0x0, 0x0, 0xA00⟩ /- CHA_CFG -/,
   ⟨0x80008, 1, 4, 1, 4, 0x0, 0x0, 0x0, 0xFF00⟩ /- CHA_LINK_STAT -/,
   ⟨0x8000C, 1, 4, 1, 4, 0x0, 0xFF, 0x0, 0x0⟩ /- CHA_IRQ_STAT -/,
   ⟨0x80010, 1, 4, 1, 4, 0xFF, 0x0, 0x0, 0x0⟩ /- CHA_IRQ_EN -/,
   ⟨0x80014, 1, 4, 1, 4, 0x0, 0x0, 0x0, 0x0⟩ /- CHA_RING_LAT -/,
   ⟨0x80020, 1, 4, 1, 4, 0x0, 0x0, 0x0, 0x0⟩ /- CHA_CNT_CV -/,
   ⟨0x80024, 1, 4, 1, 4, 0x0, 0x0, 0x0, 0x0⟩ /- CHA_CNT_HDR -/,
   ⟨0x80028, 1, 4, 1, 4, 0x0, 0x0, 0x0, 0x0⟩ /- CHA_CNT_SLOT -/,
   ⟨0x8002C, 1, 4, 1, 4, 0x0, 0x0, 0x0, 0x0⟩ /- CHA_CNT_LATE -/,
   ⟨0x80030, 1, 4, 1, 4, 0x0, 0x0, 0x0, 0x0⟩ /- CHA_CNT_BAD -/,
   ⟨0x80034, 1, 4, 1, 4, 0x0, 0x0, 0x0, 0x0⟩ /- CHA_CNT_MISM -/]
  ++ [⟨0x80040, 4, 4, 1, 4, 0x0, 0x0, 0x0, 0x0⟩ /- CHA_MISS_k -/,
   ⟨0x80100, 128, 4, 1, 4, 0x0, 0x0, 0x0, 0x0⟩ /- CHA_DELAY_n -/]

/-- The registers of block CHB. -/
def regRowsCHB : List RegRow :=
  [⟨0x90000, 1, 4, 1, 4, 0x3, 0x0, 0x1C, 0x0⟩ /- CHB_CTRL -/,
   ⟨0x90004, 1, 4, 1, 4, 0x3FFFF, 0x0, 0x0, 0xA00⟩ /- CHB_CFG -/,
   ⟨0x90008, 1, 4, 1, 4, 0x0, 0x0, 0x0, 0xFF00⟩ /- CHB_LINK_STAT -/,
   ⟨0x9000C, 1, 4, 1, 4, 0x0, 0xFF, 0x0, 0x0⟩ /- CHB_IRQ_STAT -/,
   ⟨0x90010, 1, 4, 1, 4, 0xFF, 0x0, 0x0, 0x0⟩ /- CHB_IRQ_EN -/,
   ⟨0x90014, 1, 4, 1, 4, 0x0, 0x0, 0x0, 0x0⟩ /- CHB_RING_LAT -/,
   ⟨0x90020, 1, 4, 1, 4, 0x0, 0x0, 0x0, 0x0⟩ /- CHB_CNT_CV -/,
   ⟨0x90024, 1, 4, 1, 4, 0x0, 0x0, 0x0, 0x0⟩ /- CHB_CNT_HDR -/,
   ⟨0x90028, 1, 4, 1, 4, 0x0, 0x0, 0x0, 0x0⟩ /- CHB_CNT_SLOT -/,
   ⟨0x9002C, 1, 4, 1, 4, 0x0, 0x0, 0x0, 0x0⟩ /- CHB_CNT_LATE -/,
   ⟨0x90030, 1, 4, 1, 4, 0x0, 0x0, 0x0, 0x0⟩ /- CHB_CNT_BAD -/,
   ⟨0x90034, 1, 4, 1, 4, 0x0, 0x0, 0x0, 0x0⟩ /- CHB_CNT_MISM -/]
  ++ [⟨0x90040, 4, 4, 1, 4, 0x0, 0x0, 0x0, 0x0⟩ /- CHB_MISS_k -/,
   ⟨0x90100, 128, 4, 1, 4, 0x0, 0x0, 0x0, 0x0⟩ /- CHB_DELAY_n -/]

/-- The registers of block FLY. -/
def regRowsFLY : List RegRow :=
  [⟨0xA0000, 1, 4, 1, 4, 0x4, 0x0, 0x38, 0x0⟩ /- FLY_CTRL -/,
   ⟨0xA0004, 1, 4, 1, 4, 0x7F, 0x0, 0x0, 0x14⟩ /- FLY_CYCLE -/,
   ⟨0xA0008, 1, 4, 1, 4, 0x1FFFF, 0x0, 0x0, 0x0⟩ /- FLY_PHASE -/,
   ⟨0xA000C, 1, 4, 1, 4, 0x0, 0x0, 0x0, 0x0⟩ /- FLY_CYC_NUM -/,
   ⟨0xA0010, 1, 4, 1, 4, 0x0, 0x0, 0x0, 0x3E80226⟩ /- FLY_TIME_A -/,
   ⟨0xA0014, 1, 4, 1, 4, 0x0, 0x0, 0x0, 0x7080000⟩ /- FLY_TIME_B -/,
   ⟨0xA0018, 1, 4, 1, 4, 0x0, 0x0, 0x0, 0x0⟩ /- FLY_TIME_C -/,
   ⟨0xA0020, 1, 4, 1, 4, 0xFFFF3FFF, 0x0, 0x0, 0xA0803E8⟩ /- FLY_LIMITS -/,
   ⟨0xA0024, 1, 4, 1, 4, 0xFFFF0707, 0x0, 0x0, 0xFA320301⟩ /- FLY_TRIM -/,
   ⟨0xA0028, 1, 4, 1, 4, 0x1FFF00, 0x0, 0x0, 0x80100⟩ /- FLY_HYST -/,
   ⟨0xA002C, 1, 4, 1, 4, 0xFFFFFFFF, 0x0, 0x0, 0x432050A⟩ /- FLY_PRECHG -/,
   ⟨0xA0030, 1, 4, 1, 4, 0x0, 0x0, 0x0, 0x0⟩ /- FLY_STOP -/]
  ++ [⟨0xA0034, 1, 4, 1, 4, 0x0, 0x0, 0x0, 0x0⟩ /- FLY_PRE_STAT -/,
   ⟨0xA0040, 4, 4, 1, 4, 0xFFFFFFFF, 0x0, 0x0, 0x0⟩ /- FLY_BLOCK_k -/,
   ⟨0xA0050, 4, 4, 1, 4, 0x0, 0x0, 0x0, 0x0⟩ /- FLY_FORCED_k -/,
   ⟨0xA0060, 1, 4, 1, 4, 0x0, 0xFF, 0x0, 0x0⟩ /- FLY_IRQ_STAT -/,
   ⟨0xA0064, 1, 4, 1, 4, 0xFF, 0x0, 0x0, 0x0⟩ /- FLY_IRQ_EN -/,
   ⟨0xA0070, 1, 4, 1, 4, 0x0, 0x0, 0x0, 0x0⟩ /- FLY_CNT_VETO -/,
   ⟨0xA0074, 1, 4, 1, 4, 0x0, 0x0, 0x0, 0x0⟩ /- FLY_CNT_TOGGLE -/,
   ⟨0xA0078, 1, 4, 1, 4, 0x0, 0x0, 0x0, 0x0⟩ /- FLY_CNT_NOEMIT -/,
   ⟨0xA007C, 1, 4, 1, 4, 0x0, 0x0, 0x0, 0x0⟩ /- FLY_CNT_STOP -/]

/-- The registers of block XL. -/
def regRowsXL : List RegRow :=
  [⟨0xB0000, 1, 4, 1, 4, 0xFF000003, 0x0, 0x0, 0x1E000002⟩ /- XL_CFG -/,
   ⟨0xB0004, 1, 4, 1, 4, 0x0, 0x0, 0x7, 0x0⟩ /- XL_CTRL -/,
   ⟨0xB0008, 1, 4, 1, 4, 0x0, 0x0, 0x0, 0xFF000000⟩ /- XL_STAT -/,
   ⟨0xB000C, 1, 4, 1, 4, 0x0, 0x0, 0x0, 0x0⟩ /- XL_SWITCH -/,
   ⟨0xB0010, 1, 4, 1, 4, 0x0, 0x0, 0x0, 0x0⟩ /- XL_SWITCH_CYC -/,
   ⟨0xB0014, 1, 4, 1, 4, 0x0, 0x0, 0x0, 0x0⟩ /- XL_DIV_CYC -/,
   ⟨0xB0020, 1, 4, 1, 4, 0x0, 0xFF, 0x0, 0x0⟩ /- XL_IRQ_STAT -/,
   ⟨0xB0024, 1, 4, 1, 4, 0xFF, 0x0, 0x0, 0x0⟩ /- XL_IRQ_EN -/,
   ⟨0xB0040, 1, 4, 1, 4, 0x0, 0x0, 0x0, 0x0⟩ /- XL_CNT_DIV_IN -/,
   ⟨0xB0044, 1, 4, 1, 4, 0x0, 0x0, 0x0, 0x0⟩ /- XL_CNT_DIV_OUT -/,
   ⟨0xB0048, 1, 4, 1, 4, 0x0, 0x0, 0x0, 0x0⟩ /- XL_CNT_DIV_STATE -/,
   ⟨0xB004C, 1, 4, 1, 4, 0x0, 0x0, 0x0, 0x0⟩ /- XL_CNT_CMD_MISM -/]
  ++ [⟨0xB0050, 1, 4, 1, 4, 0x0, 0x0, 0x0, 0x0⟩ /- XL_CNT_MIRROR_NACK -/,
   ⟨0xB0054, 1, 4, 1, 4, 0x0, 0x0, 0x0, 0x0⟩ /- XL_CNT_RELAY_LATE -/,
   ⟨0xB0058, 1, 4, 1, 4, 0x0, 0x0, 0x0, 0x0⟩ /- XL_CNT_SWITCH -/,
   ⟨0xB005C, 1, 4, 1, 4, 0x0, 0x0, 0x0, 0x0⟩ /- XL_CNT_RESYNC -/,
   ⟨0xB0060, 1, 4, 1, 4, 0x0, 0x0, 0x0, 0x0⟩ /- XL_CNT_LINK_ERR -/]

/-- The registers of block ETH. -/
def regRowsETH : List RegRow :=
  [⟨0xC0800, 1, 4, 1, 4, 0xFF0F, 0x0, 0x0, 0xC⟩ /- ETH_PTP_CFG -/,
   ⟨0xC0804, 1, 4, 1, 4, 0x0, 0x0, 0x0, 0x0⟩ /- ETH_PTP_STAT -/,
   ⟨0xC0808, 1, 4, 1, 4, 0x0, 0x0, 0x0, 0x0⟩ /- ETH_PTP_GM_LO -/,
   ⟨0xC080C, 1, 4, 1, 4, 0x0, 0x0, 0x0, 0x0⟩ /- ETH_PTP_GM_HI -/,
   ⟨0xC0810, 1, 4, 1, 4, 0x0, 0x0, 0x0, 0x0⟩ /- ETH_PTP_PATH_1 -/,
   ⟨0xC0814, 1, 4, 1, 4, 0x0, 0x0, 0x0, 0x0⟩ /- ETH_PTP_PATH_2 -/,
   ⟨0xC0818, 1, 4, 1, 4, 0x0, 0x0, 0x0, 0x0⟩ /- ETH_PTP_OFS -/,
   ⟨0xC0820, 1, 4, 1, 4, 0x0, 0x0, 0x0, 0x0⟩ /- ETH_PTP_CNT_SYNC -/,
   ⟨0xC0824, 1, 4, 1, 4, 0x0, 0x0, 0x0, 0x0⟩ /- ETH_PTP_CNT_DREQ -/,
   ⟨0xC0828, 1, 4, 1, 4, 0x0, 0x0, 0x0, 0x0⟩ /- ETH_PTP_CNT_BAD -/,
   ⟨0xC082C, 1, 4, 1, 4, 0x0, 0x0, 0x0, 0x0⟩ /- ETH_PTP_CNT_TC -/,
   ⟨0xC0000, 1, 4, 1, 4, 0x0, 0x0, 0x1, 0x0⟩ /- ETH_CTRL -/]
  ++ [⟨0xC0004, 1, 4, 1, 4, 0x0, 0x0, 0x0, 0x0⟩ /- ETH_STAT -/,
   ⟨0xC0008, 2, 4, 1, 4, 0x0, 0x0, 0x0, 0x0⟩ /- ETH_PORT_STAT_p -/,
   ⟨0xC0010, 1, 4, 1, 4, 0x0, 0x0, 0x0, 0x0⟩ /- ETH_MAC_LO -/,
   ⟨0xC0014, 1, 4, 1, 4, 0x0, 0x0, 0x0, 0x0⟩ /- ETH_MAC_HI -/,
   ⟨0xC0018, 1, 4, 1, 4, 0xFFFFFFFF, 0x0, 0x0, 0xC0A86400⟩ /- ETH_IP_NET -/,
   ⟨0xC001C, 1, 4, 1, 4, 0xFFFF001F, 0x0, 0x0, 0xA3480018⟩ /- ETH_IP_CFG -/,
   ⟨0xC0020, 1, 4, 1, 4, 0x0, 0x0, 0x0, 0x0⟩ /- ETH_IP_ADDR -/,
   ⟨0xC0024, 1, 4, 1, 4, 0x7, 0x0, 0x0, 0x0⟩ /- ETH_HSR_CFG -/,
   ⟨0xC0028, 1, 4, 1, 4, 0xFFFFFFFF, 0x0, 0x0, 0x28323232⟩ /- ETH_POLICE_CFG -/,
   ⟨0xC002C, 1, 4, 1, 4, 0xFF, 0x0, 0x0, 0xA⟩ /- ETH_SESS_CFG -/,
   ⟨0xC0030, 1, 4, 1, 4, 0x0, 0x0, 0x0, 0x0⟩ /- ETH_SESS_STAT -/,
   ⟨0xC0034, 1, 4, 1, 4, 0x0, 0x0, 0x21FE, 0x0⟩ /- ETH_SESS_CLOSE -/]
  ++ [⟨0xC0040, 1, 4, 1, 4, 0x0, 0xF, 0x0, 0x0⟩ /- ETH_IRQ_STAT -/,
   ⟨0xC0044, 1, 4, 1, 4, 0xF, 0x0, 0x0, 0x0⟩ /- ETH_IRQ_EN -/,
   ⟨0xC0100, 2, 16, 1, 4, 0x0, 0x0, 0x0, 0x0⟩ /- ETH_CNT_RX_p -/,
   ⟨0xC0104, 2, 16, 1, 4, 0x0, 0x0, 0x0, 0x0⟩ /- ETH_CNT_POLICE_p -/,
   ⟨0xC0108, 2, 16, 1, 4, 0x0, 0x0, 0x0, 0x0⟩ /- ETH_CNT_DUP_p -/,
   ⟨0xC0120, 1, 4, 1, 4, 0x0, 0x0, 0x0, 0x0⟩ /- ETH_CNT_BAD_REC -/,
   ⟨0xC0124, 1, 4, 1, 4, 0x0, 0x0, 0x0, 0x0⟩ /- ETH_CNT_BAD_MSG -/,
   ⟨0xC0128, 1, 4, 1, 4, 0x0, 0x0, 0x0, 0x0⟩ /- ETH_CNT_REQ_DROP -/,
   ⟨0xC012C, 1, 4, 1, 4, 0x0, 0x0, 0x0, 0x0⟩ /- ETH_CNT_HS_FAIL -/]

/-- The registers of block CAN0. -/
def regRowsCAN0 : List RegRow :=
  [⟨0xD0000, 1, 4, 1, 4, 0xD, 0x0, 0x30, 0xD⟩ /- CAN0_CTRL -/,
   ⟨0xD0004, 1, 4, 1, 4, 0xFFFFFEFF, 0x0, 0x0, 0x47E2010⟩ /- CAN0_NBT -/,
   ⟨0xD0008, 1, 4, 1, 4, 0xFFFFFC00, 0x0, 0x0, 0x4B21000⟩ /- CAN0_DBT -/,
   ⟨0xD000C, 1, 4, 1, 4, 0xFF7F, 0x0, 0x0, 0x8C00⟩ /- CAN0_TDC -/,
   ⟨0xD0010, 1, 4, 1, 4, 0x0, 0x0, 0x0, 0x300⟩ /- CAN0_STAT -/,
   ⟨0xD0018, 1, 4, 1, 4, 0xFFFFFFFF, 0x0, 0x0, 0x0⟩ /- CAN0_FIFO_ID -/,
   ⟨0xD001C, 1, 4, 1, 4, 0xFFFFFFFF, 0x0, 0x0, 0x0⟩ /- CAN0_FIFO_MASK -/,
   ⟨0xD0020, 1, 4, 1, 4, 0x0, 0x0, 0x0, 0x0⟩ /- CAN0_FIFO_STAT -/,
   ⟨0xD0024, 1, 4, 1, 4, 0x0, 0x0, 0x1, 0x0⟩ /- CAN0_FIFO_CTRL -/,
   ⟨0xD0028, 1, 4, 1, 4, 0x0, 0xFF, 0x0, 0x0⟩ /- CAN0_IRQ_STAT -/,
   ⟨0xD002C, 1, 4, 1, 4, 0xFF, 0x0, 0x0, 0x0⟩ /- CAN0_IRQ_EN -/,
   ⟨0xD0030, 1, 4, 1, 4, 0x0, 0x0, 0x0, 0x0⟩ /- CAN0_CNT_TX -/]
  ++ [⟨0xD0034, 1, 4, 1, 4, 0x0, 0x0, 0x0, 0x0⟩ /- CAN0_CNT_RX -/,
   ⟨0xD0038, 1, 4, 1, 4, 0x0, 0x0, 0x0, 0x0⟩ /- CAN0_CNT_ERR -/,
   ⟨0xD003C, 1, 4, 1, 4, 0x0, 0x0, 0x0, 0x0⟩ /- CAN0_CNT_BUSOFF -/,
   ⟨0xD0040, 1, 4, 1, 4, 0x0, 0x0, 0x0, 0x0⟩ /- CAN0_CNT_FIFO_OVR -/,
   ⟨0xD0044, 1, 4, 1, 4, 0x0, 0x0, 0x0, 0x0⟩ /- CAN0_CNT_RX_OVR -/,
   ⟨0xD0048, 1, 4, 1, 4, 0x0, 0x0, 0x0, 0x0⟩ /- CAN0_CNT_CLASH_RX -/,
   ⟨0xD0080, 19, 4, 1, 4, 0x0, 0x0, 0x0, 0x0⟩ /- CAN0_FIFO_HEAD_w -/,
   ⟨0xD1000, 32, 128, 1, 4, 0x3, 0x0, 0x1C, 0x0⟩ /- CAN0_MB_CTRL_b -/,
   ⟨0xD1004, 32, 128, 1, 4, 0xFFFFFFFF, 0x0, 0x0, 0x0⟩ /- CAN0_MB_ID_b -/,
   ⟨0xD1008, 32, 128, 1, 4, 0xFFFFFFFF, 0x0, 0x0, 0x0⟩ /- CAN0_MB_INFO_b -/,
   ⟨0xD100C, 32, 128, 1, 4, 0xFFFFFFFF, 0x0, 0x0, 0x0⟩ /- CAN0_MB_MASK_b -/,
   ⟨0xD1010, 32, 128, 1, 4, 0x0, 0x0, 0x0, 0x0⟩ /- CAN0_MB_STAMP_b -/]
  ++ [⟨0xD1040, 32, 128, 16, 4, 0xFFFFFFFF, 0x0, 0x0, 0x0⟩ /- CAN0_MB_DATA_b_k -/]

/-- The registers of block CAN1. -/
def regRowsCAN1 : List RegRow :=
  [⟨0xE0000, 1, 4, 1, 4, 0xD, 0x0, 0x30, 0xD⟩ /- CAN1_CTRL -/,
   ⟨0xE0004, 1, 4, 1, 4, 0xFFFFFEFF, 0x0, 0x0, 0x47E2010⟩ /- CAN1_NBT -/,
   ⟨0xE0008, 1, 4, 1, 4, 0xFFFFFC00, 0x0, 0x0, 0x4B21000⟩ /- CAN1_DBT -/,
   ⟨0xE000C, 1, 4, 1, 4, 0xFF7F, 0x0, 0x0, 0x8C00⟩ /- CAN1_TDC -/,
   ⟨0xE0010, 1, 4, 1, 4, 0x0, 0x0, 0x0, 0x300⟩ /- CAN1_STAT -/,
   ⟨0xE0018, 1, 4, 1, 4, 0xFFFFFFFF, 0x0, 0x0, 0x0⟩ /- CAN1_FIFO_ID -/,
   ⟨0xE001C, 1, 4, 1, 4, 0xFFFFFFFF, 0x0, 0x0, 0x0⟩ /- CAN1_FIFO_MASK -/,
   ⟨0xE0020, 1, 4, 1, 4, 0x0, 0x0, 0x0, 0x0⟩ /- CAN1_FIFO_STAT -/,
   ⟨0xE0024, 1, 4, 1, 4, 0x0, 0x0, 0x1, 0x0⟩ /- CAN1_FIFO_CTRL -/,
   ⟨0xE0028, 1, 4, 1, 4, 0x0, 0xFF, 0x0, 0x0⟩ /- CAN1_IRQ_STAT -/,
   ⟨0xE002C, 1, 4, 1, 4, 0xFF, 0x0, 0x0, 0x0⟩ /- CAN1_IRQ_EN -/,
   ⟨0xE0030, 1, 4, 1, 4, 0x0, 0x0, 0x0, 0x0⟩ /- CAN1_CNT_TX -/]
  ++ [⟨0xE0034, 1, 4, 1, 4, 0x0, 0x0, 0x0, 0x0⟩ /- CAN1_CNT_RX -/,
   ⟨0xE0038, 1, 4, 1, 4, 0x0, 0x0, 0x0, 0x0⟩ /- CAN1_CNT_ERR -/,
   ⟨0xE003C, 1, 4, 1, 4, 0x0, 0x0, 0x0, 0x0⟩ /- CAN1_CNT_BUSOFF -/,
   ⟨0xE0040, 1, 4, 1, 4, 0x0, 0x0, 0x0, 0x0⟩ /- CAN1_CNT_FIFO_OVR -/,
   ⟨0xE0044, 1, 4, 1, 4, 0x0, 0x0, 0x0, 0x0⟩ /- CAN1_CNT_RX_OVR -/,
   ⟨0xE0048, 1, 4, 1, 4, 0x0, 0x0, 0x0, 0x0⟩ /- CAN1_CNT_CLASH_RX -/,
   ⟨0xE0080, 19, 4, 1, 4, 0x0, 0x0, 0x0, 0x0⟩ /- CAN1_FIFO_HEAD_w -/,
   ⟨0xE1000, 32, 128, 1, 4, 0x3, 0x0, 0x1C, 0x0⟩ /- CAN1_MB_CTRL_b -/,
   ⟨0xE1004, 32, 128, 1, 4, 0xFFFFFFFF, 0x0, 0x0, 0x0⟩ /- CAN1_MB_ID_b -/,
   ⟨0xE1008, 32, 128, 1, 4, 0xFFFFFFFF, 0x0, 0x0, 0x0⟩ /- CAN1_MB_INFO_b -/,
   ⟨0xE100C, 32, 128, 1, 4, 0xFFFFFFFF, 0x0, 0x0, 0x0⟩ /- CAN1_MB_MASK_b -/,
   ⟨0xE1010, 32, 128, 1, 4, 0x0, 0x0, 0x0, 0x0⟩ /- CAN1_MB_STAMP_b -/]
  ++ [⟨0xE1040, 32, 128, 16, 4, 0xFFFFFFFF, 0x0, 0x0, 0x0⟩ /- CAN1_MB_DATA_b_k -/]

/-- The registers of block SAF. -/
def regRowsSAF : List RegRow :=
  [⟨0xF0000, 1, 4, 1, 4, 0x0, 0x0, 0x0, 0x0⟩ /- SAF_STAT -/,
   ⟨0xF0004, 1, 4, 1, 4, 0x0, 0x0, 0x0, 0x0⟩ /- SAF_INPUT -/,
   ⟨0xF0008, 1, 4, 1, 4, 0x0, 0x0, 0x0, 0x0⟩ /- SAF_CAUSE -/,
   ⟨0xF000C, 1, 4, 1, 4, 0x0, 0x0, 0x0, 0x0⟩ /- SAF_FAULT -/,
   ⟨0xF0010, 1, 4, 1, 4, 0x0, 0x0, 0x0, 0x6⟩ /- SAF_TEL_STAT -/,
   ⟨0xF0014, 1, 4, 1, 4, 0x0, 0x0, 0x0, 0x0⟩ /- SAF_TEL_SEQ -/,
   ⟨0xF0018, 1, 4, 1, 4, 0x0, 0x0, 0x0, 0x0⟩ /- SAF_CNT_TEL_BAD -/,
   ⟨0xF001C, 1, 4, 1, 4, 0x0, 0x0, 0x0, 0x0⟩ /- SAF_CNT_TEL_LATE -/,
   ⟨0xF0020, 1, 4, 1, 4, 0x0, 0x0, 0x0, 0x0⟩ /- SAF_CNT_TEL_GAP -/,
   ⟨0xF0024, 1, 4, 1, 4, 0x0, 0x0, 0x0, 0x0⟩ /- SAF_CNT_TEST_DISC -/,
   ⟨0xF0028, 1, 4, 1, 4, 0x0, 0x0, 0x0, 0x0⟩ /- SAF_PARAM_CRC -/,
   ⟨0xF002C, 1, 4, 1, 4, 0x0, 0x0, 0x0, 0x0⟩ /- SAF_PARAM_CRC_B -/]
  ++ [⟨0xF0030, 1, 4, 1, 4, 0x0, 0x0, 0xFFFFFFFF, 0x0⟩ /- SAF_KEY -/,
   ⟨0xF0034, 1, 4, 1, 4, 0x0, 0x0, 0x0, 0x0⟩ /- SAF_KEY_STAT -/,
   ⟨0xF0040, 1, 4, 1, 4, 0x0, 0x3F, 0x0, 0x0⟩ /- SAF_IRQ_STAT -/,
   ⟨0xF0044, 1, 4, 1, 4, 0x3F, 0x0, 0x0, 0x0⟩ /- SAF_IRQ_EN -/,
   ⟨0xF0100, 16, 4, 1, 4, 0xFFFFFFFF, 0x0, 0x0, 0x0⟩ /- SAF_PARAM_n -/]

/-- The registers of block SNS. -/
def regRowsSNS : List RegRow :=
  [⟨0x100000, 1, 4, 1, 4, 0xE, 0x0, 0x30, 0x2⟩ /- SNS_CTRL -/,
   ⟨0x100004, 1, 4, 1, 4, 0x0, 0x0, 0x0, 0x0⟩ /- SNS_STAT -/,
   ⟨0x100008, 1, 4, 1, 4, 0x19, 0x0, 0x0, 0x0⟩ /- SNS_MODE -/,
   ⟨0x10000C, 1, 4, 1, 4, 0x0, 0xFF, 0x0, 0x0⟩ /- SNS_IRQ_STAT -/,
   ⟨0x100010, 1, 4, 1, 4, 0xFF, 0x0, 0x0, 0x0⟩ /- SNS_IRQ_EN -/,
   ⟨0x100014, 1, 4, 1, 4, 0x0, 0xFF, 0x0, 0x0⟩ /- SNS_PROG_EVT -/,
   ⟨0x100020, 1, 4, 1, 4, 0x0, 0x0, 0x0, 0x0⟩ /- SNS_I -/,
   ⟨0x100024, 1, 4, 1, 4, 0x0, 0x0, 0x0, 0x0⟩ /- SNS_VSTR -/,
   ⟨0x100028, 1, 4, 1, 4, 0x0, 0x0, 0x0, 0x0⟩ /- SNS_VBUS -/,
   ⟨0x10002C, 1, 4, 1, 4, 0x0, 0x0, 0x0, 0x0⟩ /- SNS_VPOS_PE -/,
   ⟨0x100030, 1, 4, 1, 4, 0x0, 0x0, 0x0, 0x0⟩ /- SNS_VNEG_PE -/,
   ⟨0x100034, 1, 4, 1, 4, 0x0, 0x0, 0x0, 0x0⟩ /- SNS_I_SH -/]
  ++ [⟨0x100038, 1, 4, 1, 4, 0x0, 0x0, 0x0, 0x0⟩ /- SNS_I_FG -/,
   ⟨0x10003C, 1, 4, 1, 4, 0x0, 0x0, 0x0, 0x0⟩ /- SNS_SH_TEMP -/,
   ⟨0x100040, 1, 4, 1, 4, 0x0, 0x0, 0x0, 0x0⟩ /- SNS_ISO -/,
   ⟨0x100044, 1, 4, 1, 4, 0xFFFF, 0x0, 0x0, 0x64⟩ /- SNS_ISO_LIM -/,
   ⟨0x100080, 1, 4, 1, 4, 0xF, 0x0, 0x0, 0x0⟩ /- SNS_SP_OWNER -/,
   ⟨0x100084, 1, 4, 1, 4, 0xFFFFFFFF, 0x0, 0x0, 0x0⟩ /- SNS_SP_I -/,
   ⟨0x100088, 1, 4, 1, 4, 0xFFFFFFFF, 0x0, 0x0, 0x0⟩ /- SNS_SP_LIM -/,
   ⟨0x10008C, 1, 4, 1, 4, 0xFFFFFFFF, 0x0, 0x0, 0x0⟩ /- SNS_SP_APPLY -/,
   ⟨0x100090, 1, 4, 1, 4, 0xFFFF0004, 0x0, 0x1, 0x3E80000⟩ /- SNS_SP_CTRL -/,
   ⟨0x100094, 1, 4, 1, 4, 0x0, 0x0, 0x0, 0x0⟩ /- SNS_SP_STAT -/,
   ⟨0x100098, 1, 4, 1, 4, 0x0, 0x0, 0x0, 0x0⟩ /- SNS_SP_CYC -/,
   ⟨0x1000C0, 1, 4, 1, 4, 0xFFFFFF18, 0x0, 0x6, 0x100⟩ /- SNS_CAP_CTRL -/]
  ++ [⟨0x1000C4, 1, 4, 1, 4, 0xF0F0000, 0x0, 0x0, 0x0⟩ /- SNS_CAP_TRIG -/,
   ⟨0x1000C8, 1, 4, 1, 4, 0xFFFFFFFF, 0x0, 0x0, 0x0⟩ /- SNS_CAP_LEVEL -/,
   ⟨0x1000CC, 1, 4, 1, 4, 0x0, 0x0, 0x0, 0x0⟩ /- SNS_CAP_STAT -/,
   ⟨0x1000D0, 1, 4, 1, 4, 0xFFFFFFFF, 0x0, 0x0, 0x0⟩ /- SNS_CAP_TCYC -/,
   ⟨0x1000D4, 1, 4, 1, 4, 0xFFFFFF, 0x0, 0x0, 0x0⟩ /- SNS_CAP_PRE -/,
   ⟨0x1000E0, 4, 4, 1, 4, 0xFFFFFFFF, 0x0, 0x0, 0x0⟩ /- SNS_CAP_SCALE_c -/,
   ⟨0x100100, 1, 4, 1, 4, 0x0, 0x0, 0x0, 0x0⟩ /- SNS_CNT_MISS -/,
   ⟨0x100104, 1, 4, 1, 4, 0x0, 0x0, 0x0, 0x0⟩ /- SNS_CNT_SWITCH -/,
   ⟨0x100108, 1, 4, 1, 4, 0x0, 0x0, 0x0, 0x0⟩ /- SNS_CNT_SAT -/,
   ⟨0x100200, 1, 4, 1, 4, 0xFFFF0F00, 0x0, 0x6, 0x2580400⟩ /- SNS_MEAS_CTRL -/,
   ⟨0x100204, 1, 4, 1, 4, 0x0, 0x0, 0x0, 0x10FFFF00⟩ /- SNS_MEAS_STAT -/,
   ⟨0x100208, 1, 4, 1, 4, 0x0, 0x0, 0x0, 0x0⟩ /- SNS_SPEC_LEA -/]
  ++ [⟨0x10020C, 1, 4, 1, 4, 0x0, 0x1F, 0x0, 0x0⟩ /- SNS_MEAS_IRQ_STAT -/,
   ⟨0x100210, 1, 4, 1, 4, 0x1F, 0x0, 0x0, 0x0⟩ /- SNS_MEAS_IRQ_EN -/,
   ⟨0x100220, 4, 4, 1, 4, 0x0, 0xFFFFFFFF, 0x0, 0x0⟩ /- SNS_OW_FAIL_k -/,
   ⟨0x100230, 4, 4, 1, 4, 0x0, 0xFFFFFFFF, 0x0, 0x0⟩ /- SNS_SHORT_k -/,
   ⟨0x100240, 1, 4, 1, 4, 0x0, 0x0, 0x0, 0x0⟩ /- SNS_CNT_OW -/,
   ⟨0x100244, 1, 4, 1, 4, 0x0, 0x0, 0x0, 0x0⟩ /- SNS_CNT_NODE_REF -/,
   ⟨0x100300, 1, 4, 1, 4, 0x100, 0x0, 0x11, 0x100⟩ /- SNS_PROT_CTRL -/,
   ⟨0x100304, 1, 4, 1, 4, 0x0, 0x0, 0x0, 0x0⟩ /- SNS_PROT_STAT -/,
   ⟨0x100308, 1, 4, 1, 4, 0x0, 0x0, 0x0, 0x0⟩ /- SNS_PROT_TEMP -/,
   ⟨0x10030C, 1, 4, 1, 4, 0x0, 0x0, 0x0, 0xFFFF⟩ /- SNS_PROT_POS -/,
   ⟨0x100310, 1, 4, 1, 4, 0x0, 0x0, 0x0, 0x0⟩ /- SNS_PROT_LIM -/,
   ⟨0x100314, 1, 4, 1, 4, 0x0, 0x0, 0x0, 0x0⟩ /- SNS_PROT_VCELL -/]
  ++ [⟨0x100318, 1, 4, 1, 4, 0x0, 0x0, 0x0, 0x0⟩ /- SNS_MOD_TEMP -/,
   ⟨0x10031C, 1, 4, 1, 4, 0x0, 0xFF, 0x0, 0x0⟩ /- SNS_PROT_IRQ_STAT -/,
   ⟨0x100320, 1, 4, 1, 4, 0xFF, 0x0, 0x0, 0x0⟩ /- SNS_PROT_IRQ_EN -/,
   ⟨0x100330, 4, 4, 1, 4, 0x0, 0xFFFFFFFF, 0x0, 0x0⟩ /- SNS_TSENS_FAIL_k -/,
   ⟨0x100340, 4, 4, 1, 4, 0x0, 0xFFFFFFFF, 0x0, 0x0⟩ /- SNS_TLOST_k -/,
   ⟨0x100350, 1, 4, 1, 4, 0x0, 0x0, 0x0, 0x0⟩ /- SNS_CNT_PSTOP -/,
   ⟨0x100354, 1, 4, 1, 4, 0x0, 0x0, 0x0, 0x0⟩ /- SNS_CNT_SUBST -/,
   ⟨0x100358, 1, 4, 1, 4, 0x0, 0x0, 0x0, 0x0⟩ /- SNS_CNT_DEMAND -/]

/-- The registers of block MGT. -/
def regRowsMGT : List RegRow :=
  [⟨0x110000, 1, 4, 1, 4, 0x0, 0x0, 0x0, 0x0⟩ /- MGT_UPD_STAT -/,
   ⟨0x110004, 1, 4, 1, 4, 0x0, 0x0, 0x0, 0x0⟩ /- MGT_UPD_PAGES -/,
   ⟨0x110008, 1, 4, 1, 4, 0x0, 0x0, 0x0, 0x0⟩ /- MGT_UPD_LEN -/,
   ⟨0x11000C, 1, 4, 1, 4, 0x7FF, 0x0, 0x0, 0x1E⟩ /- MGT_UPD_CFG -/,
   ⟨0x110010, 1, 4, 1, 4, 0x0, 0x0, 0x0, 0x0⟩ /- MGT_UPD_LEFT -/,
   ⟨0x110014, 1, 4, 1, 4, 0x0, 0x0, 0x0, 0x0⟩ /- MGT_IMG_SECVER -/,
   ⟨0x110020, 1, 4, 1, 4, 0x0, 0x0, 0x0, 0x0⟩ /- MGT_LOG_SEQ -/,
   ⟨0x110024, 1, 4, 1, 4, 0x0, 0x0, 0x0, 0x0⟩ /- MGT_CNT_LOG_LOST -/,
   ⟨0x110030, 1, 4, 1, 4, 0x0, 0x0, 0x0, 0x0⟩ /- MGT_PCNT_BOOT -/,
   ⟨0x110034, 1, 4, 1, 4, 0x0, 0x0, 0x0, 0x0⟩ /- MGT_PCNT_HOURS -/,
   ⟨0x110038, 1, 4, 1, 4, 0x0, 0x0, 0x0, 0x0⟩ /- MGT_PCNT_CLOSE -/,
   ⟨0x11003C, 1, 4, 1, 4, 0x0, 0x0, 0x0, 0x0⟩ /- MGT_PCNT_UPDATE -/]
  ++ [⟨0x110040, 1, 4, 1, 4, 0x0, 0x1F, 0x0, 0x0⟩ /- MGT_IRQ_STAT -/,
   ⟨0x110044, 1, 4, 1, 4, 0x1F, 0x0, 0x0, 0x0⟩ /- MGT_IRQ_EN -/,
   ⟨0x110100, 12, 4, 1, 4, 0x0, 0x0, 0x0, 0x8000⟩ /- MGT_SENS_n -/,
   ⟨0x118000, 1024, 4, 1, 4, 0xFFFFFFFF, 0x0, 0x0, 0x0⟩ /- MGT_XFER_BUF_w -/]

/-- The registers of block SPN. -/
def regRowsSPN : List RegRow :=
  [⟨0x1000000, 1, 4, 1, 4, 0x30, 0x0, 0x1C3, 0x10⟩ /- SPN_CTRL -/,
   ⟨0x1000004, 1, 4, 1, 4, 0x0, 0x0, 0x0, 0x0⟩ /- SPN_STAT -/,
   ⟨0x1000008, 1, 4, 1, 4, 0xFFFFFFFF, 0x0, 0x0, 0x0⟩ /- SPN_ENTRY -/,
   ⟨0x100000C, 1, 4, 1, 4, 0x1FFFF, 0x0, 0x0, 0x0⟩ /- SPN_PROG_LEN -/,
   ⟨0x1000010, 1, 4, 1, 4, 0x0, 0x0, 0x0, 0x0⟩ /- SPN_PROG_ID -/,
   ⟨0x1000014, 1, 4, 1, 4, 0x0, 0x0, 0x0, 0x0⟩ /- SPN_START_CYC -/,
   ⟨0x1000020, 1, 4, 1, 4, 0x0, 0x0, 0x0, 0x0⟩ /- SPN_TRAP -/,
   ⟨0x1000024, 1, 4, 1, 4, 0x0, 0x0, 0x0, 0x0⟩ /- SPN_TRAP_CYC -/,
   ⟨0x1000028, 1, 4, 1, 4, 0x0, 0xF, 0x0, 0x0⟩ /- SPN_AFLAG -/,
   ⟨0x100002C, 1, 4, 1, 4, 0x0, 0x0, 0x0, 0x0⟩ /- SPN_USE -/,
   ⟨0x1000030, 1, 4, 1, 4, 0x0, 0x0, 0x0, 0x0⟩ /- SPN_USE_MAX -/,
   ⟨0x1000040, 1, 4, 1, 4, 0x10, 0x0, 0xE, 0x0⟩ /- SPN_BANK_CTRL -/]
  ++ [⟨0x1000044, 1, 4, 1, 4, 0xFFFFFFFF, 0x0, 0x0, 0x0⟩ /- SPN_BANK_APPLY -/,
   ⟨0x1000048, 1, 4, 1, 4, 0x0, 0x0, 0x0, 0x0⟩ /- SPN_BANK_STAT -/,
   ⟨0x100004C, 1, 4, 1, 4, 0x0, 0x0, 0x0, 0x0⟩ /- SPN_BANK_CYC -/,
   ⟨0x1000050, 1, 4, 1, 4, 0x0, 0x0, 0x0, 0x0⟩ /- SPN_BANK_CRC_F -/,
   ⟨0x1000054, 1, 4, 1, 4, 0x0, 0x0, 0x0, 0x0⟩ /- SPN_BANK_CRC_S -/,
   ⟨0x1000060, 1, 4, 1, 4, 0x0, 0x0, 0x0, 0x0⟩ /- SPN_DIG_CYC -/,
   ⟨0x1000064, 1, 4, 1, 4, 0x0, 0x0, 0x0, 0x0⟩ /- SPN_DIG_IN -/,
   ⟨0x1000068, 1, 4, 1, 4, 0x0, 0x0, 0x0, 0x0⟩ /- SPN_DIG_OUT -/,
   ⟨0x100006C, 1, 4, 1, 4, 0x0, 0x0, 0x0, 0x0⟩ /- SPN_DIG_STATE_CYC -/,
   ⟨0x1000070, 1, 4, 1, 4, 0x0, 0x0, 0x0, 0x0⟩ /- SPN_DIG_STATE -/,
   ⟨0x1000080, 1, 4, 1, 4, 0xFFFFFFFF, 0x0, 0x0, 0x0⟩ /- SPN_ST_CYC -/,
   ⟨0x1000084, 1, 4, 1, 4, 0x0, 0x0, 0x0, 0x0⟩ /- SPN_ST_STAT -/]
  ++ [⟨0x1000088, 4, 4, 1, 4, 0x0, 0x0, 0x0, 0x0⟩ /- SPN_ST_FAIL_k -/,
   ⟨0x10000A0, 1, 4, 1, 4, 0x0, 0xFF, 0x0, 0x0⟩ /- SPN_IRQ_STAT -/,
   ⟨0x10000A4, 1, 4, 1, 4, 0xFF, 0x0, 0x0, 0x0⟩ /- SPN_IRQ_EN -/,
   ⟨0x10000B0, 4, 4, 1, 4, 0x0, 0xFFFFFFFF, 0x0, 0x0⟩ /- SPN_LANE_INVAL_k -/,
   ⟨0x10000C0, 1, 4, 1, 4, 0x0, 0x0, 0x0, 0x0⟩ /- SPN_CNT_OVR_FAST -/,
   ⟨0x10000C4, 1, 4, 1, 4, 0x0, 0x0, 0x0, 0x0⟩ /- SPN_CNT_OVR_EST -/,
   ⟨0x10000C8, 1, 4, 1, 4, 0x0, 0x0, 0x0, 0x0⟩ /- SPN_CNT_POISON -/,
   ⟨0x10000CC, 1, 4, 1, 4, 0x0, 0x0, 0x0, 0x0⟩ /- SPN_CNT_NOEST -/]

/-- The rows of the block at a 64 KB base (R30); none for a base that holds no block. -/
def blockRows (base : Nat) : List RegRow :=
  if base = 0x0 then regRowsGLB else
  if base = 0x10000 then regRowsLCY else
  if base = 0x20000 then regRowsPWR else
  if base = 0x30000 then regRowsTB else
  if base = 0x40000 then regRowsMBX else
  if base = 0x50000 then regRowsQ else
  if base = 0x60000 then regRowsOP else
  if base = 0x70000 then regRowsMEM else
  if base = 0x80000 then regRowsCHA else
  if base = 0x90000 then regRowsCHB else
  if base = 0xA0000 then regRowsFLY else
  if base = 0xB0000 then regRowsXL else
  if base = 0xC0000 then regRowsETH else
  if base = 0xD0000 then regRowsCAN0 else
  if base = 0xE0000 then regRowsCAN1 else
  if base = 0xF0000 then regRowsSAF else
  if base = 0x100000 then regRowsSNS else
  if base = 0x110000 then regRowsMGT else
  if base = 0x1000000 then regRowsSPN else
  []

/-- GLB_ID (R33). -/
def Reg.GLB_ID : Nat := 0x0
/-- GLB_HW_VER (R33). -/
def Reg.GLB_HW_VER : Nat := 0x4
/-- GLB_FW_VER (R33). -/
def Reg.GLB_FW_VER : Nat := 0x8
/-- GLB_PROG_VER (R33). -/
def Reg.GLB_PROG_VER : Nat := 0xC
/-- GLB_SERIAL_LO (R33). -/
def Reg.GLB_SERIAL_LO : Nat := 0x10
/-- GLB_SERIAL_HI (R33). -/
def Reg.GLB_SERIAL_HI : Nat := 0x14
/-- GLB_SLOT (R33). -/
def Reg.GLB_SLOT : Nat := 0x18
/-- GLB_STATUS (R34). -/
def Reg.GLB_STATUS : Nat := 0x20
/-- GLB_IRQ_SUM (R35). -/
def Reg.GLB_IRQ_SUM : Nat := 0x30
/-- GLB_IRQ_EN_s (R35). -/
def Reg.GLB_IRQ_EN (s : Nat) : Nat := 0x40 + 4 * (s - 1)
/-- PWR_PD_CTRL (R37). -/
def Reg.PWR_PD_CTRL : Nat := 0x20000
/-- PWR_PD_STAT (R37). -/
def Reg.PWR_PD_STAT : Nat := 0x20004
/-- PWR_CI_STAT (R37). -/
def Reg.PWR_CI_STAT : Nat := 0x20008
/-- PWR_CI_FAULT (R37). -/
def Reg.PWR_CI_FAULT : Nat := 0x2000C
/-- CHx_CTRL (R121). -/
def Reg.CH_CTRL (x : Nat) : Nat := 0x80000 + 0x10000 * x
/-- CHx_CFG (R121). -/
def Reg.CH_CFG (x : Nat) : Nat := 0x80004 + 0x10000 * x
/-- CHx_LINK_STAT (R121). -/
def Reg.CH_LINK_STAT (x : Nat) : Nat := 0x80008 + 0x10000 * x
/-- CHx_IRQ_STAT (R121). -/
def Reg.CH_IRQ_STAT (x : Nat) : Nat := 0x8000C + 0x10000 * x
/-- CHx_IRQ_EN (R121). -/
def Reg.CH_IRQ_EN (x : Nat) : Nat := 0x80010 + 0x10000 * x
/-- CHx_RING_LAT (R121). -/
def Reg.CH_RING_LAT (x : Nat) : Nat := 0x80014 + 0x10000 * x
/-- CHx_CNT_CV (R121). -/
def Reg.CH_CNT_CV (x : Nat) : Nat := 0x80020 + 0x10000 * x
/-- CHx_CNT_HDR (R121). -/
def Reg.CH_CNT_HDR (x : Nat) : Nat := 0x80024 + 0x10000 * x
/-- CHx_CNT_SLOT (R121). -/
def Reg.CH_CNT_SLOT (x : Nat) : Nat := 0x80028 + 0x10000 * x
/-- CHx_CNT_LATE (R121). -/
def Reg.CH_CNT_LATE (x : Nat) : Nat := 0x8002C + 0x10000 * x
/-- CHx_CNT_BAD (R121). -/
def Reg.CH_CNT_BAD (x : Nat) : Nat := 0x80030 + 0x10000 * x
/-- CHx_CNT_MISM (R121). -/
def Reg.CH_CNT_MISM (x : Nat) : Nat := 0x80034 + 0x10000 * x
/-- CHx_MISS_k (R121). -/
def Reg.CH_MISS (x : Nat) (k : Nat) : Nat := 0x80040 + 0x10000 * x + 4 * k
/-- CHx_DELAY_n (R121). -/
def Reg.CH_DELAY (x : Nat) (n : Nat) : Nat := 0x80100 + 0x10000 * x + 4 * n
/-- FLY_CTRL (R158). -/
def Reg.FLY_CTRL : Nat := 0xA0000
/-- FLY_CYCLE (R158). -/
def Reg.FLY_CYCLE : Nat := 0xA0004
/-- FLY_PHASE (R158). -/
def Reg.FLY_PHASE : Nat := 0xA0008
/-- FLY_CYC_NUM (R158). -/
def Reg.FLY_CYC_NUM : Nat := 0xA000C
/-- FLY_TIME_A (R158). -/
def Reg.FLY_TIME_A : Nat := 0xA0010
/-- FLY_TIME_B (R158). -/
def Reg.FLY_TIME_B : Nat := 0xA0014
/-- FLY_TIME_C (R158). -/
def Reg.FLY_TIME_C : Nat := 0xA0018
/-- FLY_LIMITS (R158). -/
def Reg.FLY_LIMITS : Nat := 0xA0020
/-- FLY_TRIM (R158). -/
def Reg.FLY_TRIM : Nat := 0xA0024
/-- FLY_HYST (R158). -/
def Reg.FLY_HYST : Nat := 0xA0028
/-- FLY_PRECHG (R158). -/
def Reg.FLY_PRECHG : Nat := 0xA002C
/-- FLY_STOP (R158). -/
def Reg.FLY_STOP : Nat := 0xA0030
/-- FLY_PRE_STAT (R158). -/
def Reg.FLY_PRE_STAT : Nat := 0xA0034
/-- FLY_BLOCK_k (R158). -/
def Reg.FLY_BLOCK (k : Nat) : Nat := 0xA0040 + 4 * k
/-- FLY_FORCED_k (R158). -/
def Reg.FLY_FORCED (k : Nat) : Nat := 0xA0050 + 4 * k
/-- FLY_IRQ_STAT (R158). -/
def Reg.FLY_IRQ_STAT : Nat := 0xA0060
/-- FLY_IRQ_EN (R158). -/
def Reg.FLY_IRQ_EN : Nat := 0xA0064
/-- FLY_CNT_VETO (R158). -/
def Reg.FLY_CNT_VETO : Nat := 0xA0070
/-- FLY_CNT_TOGGLE (R158). -/
def Reg.FLY_CNT_TOGGLE : Nat := 0xA0074
/-- FLY_CNT_NOEMIT (R158). -/
def Reg.FLY_CNT_NOEMIT : Nat := 0xA0078
/-- FLY_CNT_STOP (R158). -/
def Reg.FLY_CNT_STOP : Nat := 0xA007C
/-- SNS_CTRL (R195). -/
def Reg.SNS_CTRL : Nat := 0x100000
/-- SNS_STAT (R195). -/
def Reg.SNS_STAT : Nat := 0x100004
/-- SNS_MODE (R195). -/
def Reg.SNS_MODE : Nat := 0x100008
/-- SNS_IRQ_STAT (R195). -/
def Reg.SNS_IRQ_STAT : Nat := 0x10000C
/-- SNS_IRQ_EN (R195). -/
def Reg.SNS_IRQ_EN : Nat := 0x100010
/-- SNS_PROG_EVT (R195). -/
def Reg.SNS_PROG_EVT : Nat := 0x100014
/-- SNS_I (R195). -/
def Reg.SNS_I : Nat := 0x100020
/-- SNS_VSTR (R195). -/
def Reg.SNS_VSTR : Nat := 0x100024
/-- SNS_VBUS (R195). -/
def Reg.SNS_VBUS : Nat := 0x100028
/-- SNS_VPOS_PE (R195). -/
def Reg.SNS_VPOS_PE : Nat := 0x10002C
/-- SNS_VNEG_PE (R195). -/
def Reg.SNS_VNEG_PE : Nat := 0x100030
/-- SNS_I_SH (R195). -/
def Reg.SNS_I_SH : Nat := 0x100034
/-- SNS_I_FG (R195). -/
def Reg.SNS_I_FG : Nat := 0x100038
/-- SNS_SH_TEMP (R195). -/
def Reg.SNS_SH_TEMP : Nat := 0x10003C
/-- SNS_ISO (R195). -/
def Reg.SNS_ISO : Nat := 0x100040
/-- SNS_ISO_LIM (R195). -/
def Reg.SNS_ISO_LIM : Nat := 0x100044
/-- SNS_SP_OWNER (R195). -/
def Reg.SNS_SP_OWNER : Nat := 0x100080
/-- SNS_SP_I (R195). -/
def Reg.SNS_SP_I : Nat := 0x100084
/-- SNS_SP_LIM (R195). -/
def Reg.SNS_SP_LIM : Nat := 0x100088
/-- SNS_SP_APPLY (R195). -/
def Reg.SNS_SP_APPLY : Nat := 0x10008C
/-- SNS_SP_CTRL (R195). -/
def Reg.SNS_SP_CTRL : Nat := 0x100090
/-- SNS_SP_STAT (R195). -/
def Reg.SNS_SP_STAT : Nat := 0x100094
/-- SNS_SP_CYC (R195). -/
def Reg.SNS_SP_CYC : Nat := 0x100098
/-- SNS_CAP_CTRL (R195). -/
def Reg.SNS_CAP_CTRL : Nat := 0x1000C0
/-- SNS_CAP_TRIG (R195). -/
def Reg.SNS_CAP_TRIG : Nat := 0x1000C4
/-- SNS_CAP_LEVEL (R195). -/
def Reg.SNS_CAP_LEVEL : Nat := 0x1000C8
/-- SNS_CAP_STAT (R195). -/
def Reg.SNS_CAP_STAT : Nat := 0x1000CC
/-- SNS_CAP_TCYC (R195). -/
def Reg.SNS_CAP_TCYC : Nat := 0x1000D0
/-- SNS_CAP_PRE (R195). -/
def Reg.SNS_CAP_PRE : Nat := 0x1000D4
/-- SNS_CAP_SCALE_c (R195). -/
def Reg.SNS_CAP_SCALE (c : Nat) : Nat := 0x1000E0 + 4 * c
/-- SNS_CNT_MISS (R195). -/
def Reg.SNS_CNT_MISS : Nat := 0x100100
/-- SNS_CNT_SWITCH (R195). -/
def Reg.SNS_CNT_SWITCH : Nat := 0x100104
/-- SNS_CNT_SAT (R195). -/
def Reg.SNS_CNT_SAT : Nat := 0x100108
/-- SPN_CTRL (R227). -/
def Reg.SPN_CTRL : Nat := 0x1000000
/-- SPN_STAT (R227). -/
def Reg.SPN_STAT : Nat := 0x1000004
/-- SPN_ENTRY (R227). -/
def Reg.SPN_ENTRY : Nat := 0x1000008
/-- SPN_PROG_LEN (R227). -/
def Reg.SPN_PROG_LEN : Nat := 0x100000C
/-- SPN_PROG_ID (R227). -/
def Reg.SPN_PROG_ID : Nat := 0x1000010
/-- SPN_START_CYC (R227). -/
def Reg.SPN_START_CYC : Nat := 0x1000014
/-- SPN_TRAP (R227). -/
def Reg.SPN_TRAP : Nat := 0x1000020
/-- SPN_TRAP_CYC (R227). -/
def Reg.SPN_TRAP_CYC : Nat := 0x1000024
/-- SPN_AFLAG (R227). -/
def Reg.SPN_AFLAG : Nat := 0x1000028
/-- SPN_USE (R227). -/
def Reg.SPN_USE : Nat := 0x100002C
/-- SPN_USE_MAX (R227). -/
def Reg.SPN_USE_MAX : Nat := 0x1000030
/-- SPN_BANK_CTRL (R227). -/
def Reg.SPN_BANK_CTRL : Nat := 0x1000040
/-- SPN_BANK_APPLY (R227). -/
def Reg.SPN_BANK_APPLY : Nat := 0x1000044
/-- SPN_BANK_STAT (R227). -/
def Reg.SPN_BANK_STAT : Nat := 0x1000048
/-- SPN_BANK_CYC (R227). -/
def Reg.SPN_BANK_CYC : Nat := 0x100004C
/-- SPN_BANK_CRC_F (R227). -/
def Reg.SPN_BANK_CRC_F : Nat := 0x1000050
/-- SPN_BANK_CRC_S (R227). -/
def Reg.SPN_BANK_CRC_S : Nat := 0x1000054
/-- SPN_DIG_CYC (R227). -/
def Reg.SPN_DIG_CYC : Nat := 0x1000060
/-- SPN_DIG_IN (R227). -/
def Reg.SPN_DIG_IN : Nat := 0x1000064
/-- SPN_DIG_OUT (R227). -/
def Reg.SPN_DIG_OUT : Nat := 0x1000068
/-- SPN_DIG_STATE_CYC (R227). -/
def Reg.SPN_DIG_STATE_CYC : Nat := 0x100006C
/-- SPN_DIG_STATE (R227). -/
def Reg.SPN_DIG_STATE : Nat := 0x1000070
/-- SPN_ST_CYC (R227). -/
def Reg.SPN_ST_CYC : Nat := 0x1000080
/-- SPN_ST_STAT (R227). -/
def Reg.SPN_ST_STAT : Nat := 0x1000084
/-- SPN_ST_FAIL_k (R227). -/
def Reg.SPN_ST_FAIL (k : Nat) : Nat := 0x1000088 + 4 * k
/-- SPN_IRQ_STAT (R227). -/
def Reg.SPN_IRQ_STAT : Nat := 0x10000A0
/-- SPN_IRQ_EN (R227). -/
def Reg.SPN_IRQ_EN : Nat := 0x10000A4
/-- SPN_LANE_INVAL_k (R227). -/
def Reg.SPN_LANE_INVAL (k : Nat) : Nat := 0x10000B0 + 4 * k
/-- SPN_CNT_OVR_FAST (R227). -/
def Reg.SPN_CNT_OVR_FAST : Nat := 0x10000C0
/-- SPN_CNT_OVR_EST (R227). -/
def Reg.SPN_CNT_OVR_EST : Nat := 0x10000C4
/-- SPN_CNT_POISON (R227). -/
def Reg.SPN_CNT_POISON : Nat := 0x10000C8
/-- SPN_CNT_NOEST (R227). -/
def Reg.SPN_CNT_NOEST : Nat := 0x10000CC
/-- SNS_MEAS_CTRL (R296). -/
def Reg.SNS_MEAS_CTRL : Nat := 0x100200
/-- SNS_MEAS_STAT (R296). -/
def Reg.SNS_MEAS_STAT : Nat := 0x100204
/-- SNS_SPEC_LEA (R296). -/
def Reg.SNS_SPEC_LEA : Nat := 0x100208
/-- SNS_MEAS_IRQ_STAT (R296). -/
def Reg.SNS_MEAS_IRQ_STAT : Nat := 0x10020C
/-- SNS_MEAS_IRQ_EN (R296). -/
def Reg.SNS_MEAS_IRQ_EN : Nat := 0x100210
/-- SNS_OW_FAIL_k (R296). -/
def Reg.SNS_OW_FAIL (k : Nat) : Nat := 0x100220 + 4 * k
/-- SNS_SHORT_k (R296). -/
def Reg.SNS_SHORT (k : Nat) : Nat := 0x100230 + 4 * k
/-- SNS_CNT_OW (R296). -/
def Reg.SNS_CNT_OW : Nat := 0x100240
/-- SNS_CNT_NODE_REF (R296). -/
def Reg.SNS_CNT_NODE_REF : Nat := 0x100244
/-- SNS_PROT_CTRL (R321). -/
def Reg.SNS_PROT_CTRL : Nat := 0x100300
/-- SNS_PROT_STAT (R321). -/
def Reg.SNS_PROT_STAT : Nat := 0x100304
/-- SNS_PROT_TEMP (R321). -/
def Reg.SNS_PROT_TEMP : Nat := 0x100308
/-- SNS_PROT_POS (R321). -/
def Reg.SNS_PROT_POS : Nat := 0x10030C
/-- SNS_PROT_LIM (R321). -/
def Reg.SNS_PROT_LIM : Nat := 0x100310
/-- SNS_PROT_VCELL (R321). -/
def Reg.SNS_PROT_VCELL : Nat := 0x100314
/-- SNS_MOD_TEMP (R321). -/
def Reg.SNS_MOD_TEMP : Nat := 0x100318
/-- SNS_PROT_IRQ_STAT (R321). -/
def Reg.SNS_PROT_IRQ_STAT : Nat := 0x10031C
/-- SNS_PROT_IRQ_EN (R321). -/
def Reg.SNS_PROT_IRQ_EN : Nat := 0x100320
/-- SNS_TSENS_FAIL_k (R321). -/
def Reg.SNS_TSENS_FAIL (k : Nat) : Nat := 0x100330 + 4 * k
/-- SNS_TLOST_k (R321). -/
def Reg.SNS_TLOST (k : Nat) : Nat := 0x100340 + 4 * k
/-- SNS_CNT_PSTOP (R321). -/
def Reg.SNS_CNT_PSTOP : Nat := 0x100350
/-- SNS_CNT_SUBST (R321). -/
def Reg.SNS_CNT_SUBST : Nat := 0x100354
/-- SNS_CNT_DEMAND (R321). -/
def Reg.SNS_CNT_DEMAND : Nat := 0x100358
/-- SAF_STAT (R347). -/
def Reg.SAF_STAT : Nat := 0xF0000
/-- SAF_INPUT (R347). -/
def Reg.SAF_INPUT : Nat := 0xF0004
/-- SAF_CAUSE (R347). -/
def Reg.SAF_CAUSE : Nat := 0xF0008
/-- SAF_FAULT (R347). -/
def Reg.SAF_FAULT : Nat := 0xF000C
/-- SAF_TEL_STAT (R347). -/
def Reg.SAF_TEL_STAT : Nat := 0xF0010
/-- SAF_TEL_SEQ (R347). -/
def Reg.SAF_TEL_SEQ : Nat := 0xF0014
/-- SAF_CNT_TEL_BAD (R347). -/
def Reg.SAF_CNT_TEL_BAD : Nat := 0xF0018
/-- SAF_CNT_TEL_LATE (R347). -/
def Reg.SAF_CNT_TEL_LATE : Nat := 0xF001C
/-- SAF_CNT_TEL_GAP (R347). -/
def Reg.SAF_CNT_TEL_GAP : Nat := 0xF0020
/-- SAF_CNT_TEST_DISC (R347). -/
def Reg.SAF_CNT_TEST_DISC : Nat := 0xF0024
/-- SAF_PARAM_CRC (R347). -/
def Reg.SAF_PARAM_CRC : Nat := 0xF0028
/-- SAF_PARAM_CRC_B (R347). -/
def Reg.SAF_PARAM_CRC_B : Nat := 0xF002C
/-- SAF_KEY (R347). -/
def Reg.SAF_KEY : Nat := 0xF0030
/-- SAF_KEY_STAT (R347). -/
def Reg.SAF_KEY_STAT : Nat := 0xF0034
/-- SAF_IRQ_STAT (R347). -/
def Reg.SAF_IRQ_STAT : Nat := 0xF0040
/-- SAF_IRQ_EN (R347). -/
def Reg.SAF_IRQ_EN : Nat := 0xF0044
/-- SAF_PARAM_n (R347). -/
def Reg.SAF_PARAM (n : Nat) : Nat := 0xF0100 + 4 * n
/-- XL_CFG (R364). -/
def Reg.XL_CFG : Nat := 0xB0000
/-- XL_CTRL (R364). -/
def Reg.XL_CTRL : Nat := 0xB0004
/-- XL_STAT (R364). -/
def Reg.XL_STAT : Nat := 0xB0008
/-- XL_SWITCH (R364). -/
def Reg.XL_SWITCH : Nat := 0xB000C
/-- XL_SWITCH_CYC (R364). -/
def Reg.XL_SWITCH_CYC : Nat := 0xB0010
/-- XL_DIV_CYC (R364). -/
def Reg.XL_DIV_CYC : Nat := 0xB0014
/-- XL_IRQ_STAT (R364). -/
def Reg.XL_IRQ_STAT : Nat := 0xB0020
/-- XL_IRQ_EN (R364). -/
def Reg.XL_IRQ_EN : Nat := 0xB0024
/-- XL_CNT_DIV_IN (R364). -/
def Reg.XL_CNT_DIV_IN : Nat := 0xB0040
/-- XL_CNT_DIV_OUT (R364). -/
def Reg.XL_CNT_DIV_OUT : Nat := 0xB0044
/-- XL_CNT_DIV_STATE (R364). -/
def Reg.XL_CNT_DIV_STATE : Nat := 0xB0048
/-- XL_CNT_CMD_MISM (R364). -/
def Reg.XL_CNT_CMD_MISM : Nat := 0xB004C
/-- XL_CNT_MIRROR_NACK (R364). -/
def Reg.XL_CNT_MIRROR_NACK : Nat := 0xB0050
/-- XL_CNT_RELAY_LATE (R364). -/
def Reg.XL_CNT_RELAY_LATE : Nat := 0xB0054
/-- XL_CNT_SWITCH (R364). -/
def Reg.XL_CNT_SWITCH : Nat := 0xB0058
/-- XL_CNT_RESYNC (R364). -/
def Reg.XL_CNT_RESYNC : Nat := 0xB005C
/-- XL_CNT_LINK_ERR (R364). -/
def Reg.XL_CNT_LINK_ERR : Nat := 0xB0060
/-- TB_CTRL (R383). -/
def Reg.TB_CTRL : Nat := 0x30000
/-- TB_STAT (R383). -/
def Reg.TB_STAT : Nat := 0x30004
/-- TB_TIME_NS (R383). -/
def Reg.TB_TIME_NS : Nat := 0x30008
/-- TB_TIME_SEC_LO (R383). -/
def Reg.TB_TIME_SEC_LO : Nat := 0x3000C
/-- TB_TIME_SEC_HI (R383). -/
def Reg.TB_TIME_SEC_HI : Nat := 0x30010
/-- TB_TIME_FRAC (R383). -/
def Reg.TB_TIME_FRAC : Nat := 0x30014
/-- TB_INCR_FRAC (R383). -/
def Reg.TB_INCR_FRAC : Nat := 0x30018
/-- TB_INCR_NS (R383). -/
def Reg.TB_INCR_NS : Nat := 0x3001C
/-- TB_ADJ_SEC_LO (R383). -/
def Reg.TB_ADJ_SEC_LO : Nat := 0x30020
/-- TB_ADJ_SEC_HI (R383). -/
def Reg.TB_ADJ_SEC_HI : Nat := 0x30024
/-- TB_ADJ_NS (R383). -/
def Reg.TB_ADJ_NS : Nat := 0x30028
/-- TB_OFFSET (R383). -/
def Reg.TB_OFFSET : Nat := 0x3002C
/-- TB_PAIR_OFS (R383). -/
def Reg.TB_PAIR_OFS : Nat := 0x30030
/-- TB_XL_DELAY (R383). -/
def Reg.TB_XL_DELAY : Nat := 0x30034
/-- TB_SYNC_CFG (R383). -/
def Reg.TB_SYNC_CFG : Nat := 0x30038
/-- TB_PULSE (R383). -/
def Reg.TB_PULSE : Nat := 0x3003C
/-- TB_IRQ_STAT (R383). -/
def Reg.TB_IRQ_STAT : Nat := 0x30040
/-- TB_IRQ_EN (R383). -/
def Reg.TB_IRQ_EN : Nat := 0x30044
/-- TB_CMP_HIT (R383). -/
def Reg.TB_CMP_HIT : Nat := 0x30048
/-- TB_CNT_STEP (R383). -/
def Reg.TB_CNT_STEP : Nat := 0x30050
/-- TB_CNT_SKIP (R383). -/
def Reg.TB_CNT_SKIP : Nat := 0x30054
/-- TB_CNT_CAP_OVR (R383). -/
def Reg.TB_CNT_CAP_OVR : Nat := 0x30058
/-- TB_CNT_PPS_REJ (R383). -/
def Reg.TB_CNT_PPS_REJ : Nat := 0x3005C
/-- TB_CMP_CTRL_c (R383). -/
def Reg.TB_CMP_CTRL (c : Nat) : Nat := 0x30100 + 16 * c
/-- TB_CMP_SEC_c (R383). -/
def Reg.TB_CMP_SEC (c : Nat) : Nat := 0x30104 + 16 * c
/-- TB_CMP_NS_c (R383). -/
def Reg.TB_CMP_NS (c : Nat) : Nat := 0x30108 + 16 * c
/-- TB_CMP_PER_c (R383). -/
def Reg.TB_CMP_PER (c : Nat) : Nat := 0x3010C + 16 * c
/-- TB_CAP_CTRL_u (R383). -/
def Reg.TB_CAP_CTRL (u : Nat) : Nat := 0x30200 + 16 * u
/-- TB_CAP_SEC_u (R383). -/
def Reg.TB_CAP_SEC (u : Nat) : Nat := 0x30204 + 16 * u
/-- TB_CAP_NS_u (R383). -/
def Reg.TB_CAP_NS (u : Nat) : Nat := 0x30208 + 16 * u
/-- ETH_PTP_CFG (R384). -/
def Reg.ETH_PTP_CFG : Nat := 0xC0800
/-- ETH_PTP_STAT (R384). -/
def Reg.ETH_PTP_STAT : Nat := 0xC0804
/-- ETH_PTP_GM_LO (R384). -/
def Reg.ETH_PTP_GM_LO : Nat := 0xC0808
/-- ETH_PTP_GM_HI (R384). -/
def Reg.ETH_PTP_GM_HI : Nat := 0xC080C
/-- ETH_PTP_PATH_1 (R384). -/
def Reg.ETH_PTP_PATH_1 : Nat := 0xC0810
/-- ETH_PTP_PATH_2 (R384). -/
def Reg.ETH_PTP_PATH_2 : Nat := 0xC0814
/-- ETH_PTP_OFS (R384). -/
def Reg.ETH_PTP_OFS : Nat := 0xC0818
/-- ETH_PTP_CNT_SYNC (R384). -/
def Reg.ETH_PTP_CNT_SYNC : Nat := 0xC0820
/-- ETH_PTP_CNT_DREQ (R384). -/
def Reg.ETH_PTP_CNT_DREQ : Nat := 0xC0824
/-- ETH_PTP_CNT_BAD (R384). -/
def Reg.ETH_PTP_CNT_BAD : Nat := 0xC0828
/-- ETH_PTP_CNT_TC (R384). -/
def Reg.ETH_PTP_CNT_TC : Nat := 0xC082C
/-- ETH_CTRL (R418). -/
def Reg.ETH_CTRL : Nat := 0xC0000
/-- ETH_STAT (R418). -/
def Reg.ETH_STAT : Nat := 0xC0004
/-- ETH_PORT_STAT_p (R418). -/
def Reg.ETH_PORT_STAT (p : Nat) : Nat := 0xC0008 + 4 * (p - 1)
/-- ETH_MAC_LO (R418). -/
def Reg.ETH_MAC_LO : Nat := 0xC0010
/-- ETH_MAC_HI (R418). -/
def Reg.ETH_MAC_HI : Nat := 0xC0014
/-- ETH_IP_NET (R418). -/
def Reg.ETH_IP_NET : Nat := 0xC0018
/-- ETH_IP_CFG (R418). -/
def Reg.ETH_IP_CFG : Nat := 0xC001C
/-- ETH_IP_ADDR (R418). -/
def Reg.ETH_IP_ADDR : Nat := 0xC0020
/-- ETH_HSR_CFG (R418). -/
def Reg.ETH_HSR_CFG : Nat := 0xC0024
/-- ETH_POLICE_CFG (R418). -/
def Reg.ETH_POLICE_CFG : Nat := 0xC0028
/-- ETH_SESS_CFG (R418). -/
def Reg.ETH_SESS_CFG : Nat := 0xC002C
/-- ETH_SESS_STAT (R418). -/
def Reg.ETH_SESS_STAT : Nat := 0xC0030
/-- ETH_SESS_CLOSE (R418). -/
def Reg.ETH_SESS_CLOSE : Nat := 0xC0034
/-- ETH_IRQ_STAT (R418). -/
def Reg.ETH_IRQ_STAT : Nat := 0xC0040
/-- ETH_IRQ_EN (R418). -/
def Reg.ETH_IRQ_EN : Nat := 0xC0044
/-- ETH_CNT_RX_p (R418). -/
def Reg.ETH_CNT_RX (p : Nat) : Nat := 0xC0100 + 16 * (p - 1)
/-- ETH_CNT_POLICE_p (R418). -/
def Reg.ETH_CNT_POLICE (p : Nat) : Nat := 0xC0104 + 16 * (p - 1)
/-- ETH_CNT_DUP_p (R418). -/
def Reg.ETH_CNT_DUP (p : Nat) : Nat := 0xC0108 + 16 * (p - 1)
/-- ETH_CNT_BAD_REC (R418). -/
def Reg.ETH_CNT_BAD_REC : Nat := 0xC0120
/-- ETH_CNT_BAD_MSG (R418). -/
def Reg.ETH_CNT_BAD_MSG : Nat := 0xC0124
/-- ETH_CNT_REQ_DROP (R418). -/
def Reg.ETH_CNT_REQ_DROP : Nat := 0xC0128
/-- ETH_CNT_HS_FAIL (R418). -/
def Reg.ETH_CNT_HS_FAIL : Nat := 0xC012C
/-- MBX_CTRL_m (R419). -/
def Reg.MBX_CTRL (m : Nat) : Nat := 0x40000 + 256 * m
/-- MBX_STAT_m (R419). -/
def Reg.MBX_STAT (m : Nat) : Nat := 0x40004 + 256 * m
/-- MBX_LOCK_m (R419). -/
def Reg.MBX_LOCK (m : Nat) : Nat := 0x40008 + 256 * m
/-- MBX_DATA_m_k (R419). -/
def Reg.MBX_DATA (m : Nat) (k : Nat) : Nat := 0x40040 + 256 * m + 4 * k
/-- MBX_DB_STAT (R419). -/
def Reg.MBX_DB_STAT : Nat := 0x41000
/-- MBX_DB_EN (R419). -/
def Reg.MBX_DB_EN : Nat := 0x41004
/-- MBX_CFG (R419). -/
def Reg.MBX_CFG : Nat := 0x41008
/-- MBX_GLOCK_k (R419). -/
def Reg.MBX_GLOCK (k : Nat) : Nat := 0x41100 + 4 * k
/-- MBX_CNT_TIMEOUT (R419). -/
def Reg.MBX_CNT_TIMEOUT : Nat := 0x41200
/-- Q_BASE_r (R420). -/
def Reg.Q_BASE (r : Nat) : Nat := 0x50000 + 16 * r
/-- Q_SIZE_r (R420). -/
def Reg.Q_SIZE (r : Nat) : Nat := 0x50004 + 16 * r
/-- Q_PTR_r (R420). -/
def Reg.Q_PTR (r : Nat) : Nat := 0x50008 + 16 * r
/-- Q_CNT_DROP_r (R420). -/
def Reg.Q_CNT_DROP (r : Nat) : Nat := 0x5000C + 16 * r
/-- Q_STR_CFG_s (R420). -/
def Reg.Q_STR_CFG (s : Nat) : Nat := 0x51000 + 16 * s
/-- Q_STR_POS_s (R420). -/
def Reg.Q_STR_POS (s : Nat) : Nat := 0x51004 + 16 * s
/-- Q_STR_SEQ_s (R420). -/
def Reg.Q_STR_SEQ (s : Nat) : Nat := 0x51008 + 16 * s
/-- Q_STR_DROP_s (R420). -/
def Reg.Q_STR_DROP (s : Nat) : Nat := 0x5100C + 16 * s
/-- OP_CTRL_n (R421). -/
def Reg.OP_CTRL (n : Nat) : Nat := 0x60000 + 128 * n
/-- OP_STATUS0_n (R421). -/
def Reg.OP_STATUS0 (n : Nat) : Nat := 0x60004 + 128 * n
/-- OP_STATUS1_n (R421). -/
def Reg.OP_STATUS1 (n : Nat) : Nat := 0x60008 + 128 * n
/-- OP_OWNER_n (R421). -/
def Reg.OP_OWNER (n : Nat) : Nat := 0x6000C + 128 * n
/-- OP_ACK_n (R421). -/
def Reg.OP_ACK (n : Nat) : Nat := 0x60010 + 128 * n
/-- OP_ARG_n_k (R421). -/
def Reg.OP_ARG (n : Nat) (k : Nat) : Nat := 0x60040 + 128 * n + 4 * k
/-- OP_IRQ_STAT (R421). -/
def Reg.OP_IRQ_STAT : Nat := 0x60800
/-- OP_IRQ_EN (R421). -/
def Reg.OP_IRQ_EN : Nat := 0x60804
/-- CANx_CTRL (R439). -/
def Reg.CAN_CTRL (x : Nat) : Nat := 0xD0000 + 0x10000 * x
/-- CANx_NBT (R439). -/
def Reg.CAN_NBT (x : Nat) : Nat := 0xD0004 + 0x10000 * x
/-- CANx_DBT (R439). -/
def Reg.CAN_DBT (x : Nat) : Nat := 0xD0008 + 0x10000 * x
/-- CANx_TDC (R439). -/
def Reg.CAN_TDC (x : Nat) : Nat := 0xD000C + 0x10000 * x
/-- CANx_STAT (R439). -/
def Reg.CAN_STAT (x : Nat) : Nat := 0xD0010 + 0x10000 * x
/-- CANx_FIFO_ID (R439). -/
def Reg.CAN_FIFO_ID (x : Nat) : Nat := 0xD0018 + 0x10000 * x
/-- CANx_FIFO_MASK (R439). -/
def Reg.CAN_FIFO_MASK (x : Nat) : Nat := 0xD001C + 0x10000 * x
/-- CANx_FIFO_STAT (R439). -/
def Reg.CAN_FIFO_STAT (x : Nat) : Nat := 0xD0020 + 0x10000 * x
/-- CANx_FIFO_CTRL (R439). -/
def Reg.CAN_FIFO_CTRL (x : Nat) : Nat := 0xD0024 + 0x10000 * x
/-- CANx_IRQ_STAT (R439). -/
def Reg.CAN_IRQ_STAT (x : Nat) : Nat := 0xD0028 + 0x10000 * x
/-- CANx_IRQ_EN (R439). -/
def Reg.CAN_IRQ_EN (x : Nat) : Nat := 0xD002C + 0x10000 * x
/-- CANx_CNT_TX (R439). -/
def Reg.CAN_CNT_TX (x : Nat) : Nat := 0xD0030 + 0x10000 * x
/-- CANx_CNT_RX (R439). -/
def Reg.CAN_CNT_RX (x : Nat) : Nat := 0xD0034 + 0x10000 * x
/-- CANx_CNT_ERR (R439). -/
def Reg.CAN_CNT_ERR (x : Nat) : Nat := 0xD0038 + 0x10000 * x
/-- CANx_CNT_BUSOFF (R439). -/
def Reg.CAN_CNT_BUSOFF (x : Nat) : Nat := 0xD003C + 0x10000 * x
/-- CANx_CNT_FIFO_OVR (R439). -/
def Reg.CAN_CNT_FIFO_OVR (x : Nat) : Nat := 0xD0040 + 0x10000 * x
/-- CANx_CNT_RX_OVR (R439). -/
def Reg.CAN_CNT_RX_OVR (x : Nat) : Nat := 0xD0044 + 0x10000 * x
/-- CANx_CNT_CLASH_RX (R439). -/
def Reg.CAN_CNT_CLASH_RX (x : Nat) : Nat := 0xD0048 + 0x10000 * x
/-- CANx_FIFO_HEAD_w (R439). -/
def Reg.CAN_FIFO_HEAD (x : Nat) (w : Nat) : Nat := 0xD0080 + 0x10000 * x + 4 * w
/-- CANx_MB_CTRL_b (R439). -/
def Reg.CAN_MB_CTRL (x : Nat) (b : Nat) : Nat := 0xD1000 + 0x10000 * x + 128 * b
/-- CANx_MB_ID_b (R439). -/
def Reg.CAN_MB_ID (x : Nat) (b : Nat) : Nat := 0xD1004 + 0x10000 * x + 128 * b
/-- CANx_MB_INFO_b (R439). -/
def Reg.CAN_MB_INFO (x : Nat) (b : Nat) : Nat := 0xD1008 + 0x10000 * x + 128 * b
/-- CANx_MB_MASK_b (R439). -/
def Reg.CAN_MB_MASK (x : Nat) (b : Nat) : Nat := 0xD100C + 0x10000 * x + 128 * b
/-- CANx_MB_STAMP_b (R439). -/
def Reg.CAN_MB_STAMP (x : Nat) (b : Nat) : Nat := 0xD1010 + 0x10000 * x + 128 * b
/-- CANx_MB_DATA_b_k (R439). -/
def Reg.CAN_MB_DATA (x : Nat) (b : Nat) (k : Nat) : Nat := 0xD1040 + 0x10000 * x + 128 * b + 4 * k
/-- MEM_CTRL (R457). -/
def Reg.MEM_CTRL : Nat := 0x70000
/-- MEM_SCRUB_CFG (R457). -/
def Reg.MEM_SCRUB_CFG : Nat := 0x70004
/-- MEM_SCRUB_POS (R457). -/
def Reg.MEM_SCRUB_POS : Nat := 0x70008
/-- MEM_ERR_LOC (R457). -/
def Reg.MEM_ERR_LOC : Nat := 0x7000C
/-- MEM_ERR_INFO (R457). -/
def Reg.MEM_ERR_INFO : Nat := 0x70010
/-- MEM_IRQ_STAT (R457). -/
def Reg.MEM_IRQ_STAT : Nat := 0x70020
/-- MEM_IRQ_EN (R457). -/
def Reg.MEM_IRQ_EN : Nat := 0x70024
/-- MEM_CNT_UE (R457). -/
def Reg.MEM_CNT_UE : Nat := 0x70040
/-- MEM_CNT_POISON_HIT (R457). -/
def Reg.MEM_CNT_POISON_HIT : Nat := 0x70044
/-- MEM_CNT_MERGE (R457). -/
def Reg.MEM_CNT_MERGE : Nat := 0x70048
/-- MEM_CNT_ABANDON (R457). -/
def Reg.MEM_CNT_ABANDON : Nat := 0x7004C
/-- MEM_CNT_REPAIR (R457). -/
def Reg.MEM_CNT_REPAIR : Nat := 0x70050
/-- MEM_CNT_REMAP (R457). -/
def Reg.MEM_CNT_REMAP : Nat := 0x70054
/-- MEM_CNT_PASS (R457). -/
def Reg.MEM_CNT_PASS : Nat := 0x70058
/-- MEM_CNT_CE_i (R457). -/
def Reg.MEM_CNT_CE (i : Nat) : Nat := 0x70100 + 4 * i
/-- MEM_REMAP_i_e (R457). -/
def Reg.MEM_REMAP (i : Nat) (e : Nat) : Nat := 0x70400 + 32 * i + 4 * e
/-- PWR_SUP_STAT (R480). -/
def Reg.PWR_SUP_STAT : Nat := 0x20020
/-- PWR_SUP_BO (R480). -/
def Reg.PWR_SUP_BO : Nat := 0x20024
/-- PWR_CTRL (R480). -/
def Reg.PWR_CTRL : Nat := 0x20028
/-- PWR_RUN_STAT (R480). -/
def Reg.PWR_RUN_STAT : Nat := 0x20030
/-- PWR_RUN_CYC (R480). -/
def Reg.PWR_RUN_CYC : Nat := 0x20034
/-- PWR_RESET_CAUSE (R480). -/
def Reg.PWR_RESET_CAUSE : Nat := 0x20038
/-- PWR_RESET_CTRL (R480). -/
def Reg.PWR_RESET_CTRL : Nat := 0x2003C
/-- PWR_LADDER_STAT (R480). -/
def Reg.PWR_LADDER_STAT : Nat := 0x20040
/-- PWR_IRQ_STAT (R480). -/
def Reg.PWR_IRQ_STAT : Nat := 0x20050
/-- PWR_IRQ_EN (R480). -/
def Reg.PWR_IRQ_EN : Nat := 0x20054
/-- PWR_CNT_REINIT_f (R480). -/
def Reg.PWR_CNT_REINIT (f : Nat) : Nat := 0x20080 + 4 * f
/-- PWR_CNT_RESET (R480). -/
def Reg.PWR_CNT_RESET : Nat := 0x200A4
/-- PWR_CNT_DISTAFF (R480). -/
def Reg.PWR_CNT_DISTAFF : Nat := 0x200A8
/-- PWR_CNT_BROWNOUT (R480). -/
def Reg.PWR_CNT_BROWNOUT : Nat := 0x200AC
/-- PWR_CNT_HOLDUP (R480). -/
def Reg.PWR_CNT_HOLDUP : Nat := 0x200B0
/-- LCY_STATE (R504). -/
def Reg.LCY_STATE : Nat := 0x10000
/-- LCY_ROLLBACK (R504). -/
def Reg.LCY_ROLLBACK : Nat := 0x10004
/-- LCY_OWNER_ID_LO (R504). -/
def Reg.LCY_OWNER_ID_LO : Nat := 0x10008
/-- LCY_OWNER_ID_HI (R504). -/
def Reg.LCY_OWNER_ID_HI : Nat := 0x1000C
/-- LCY_WIPE_STAT (R504). -/
def Reg.LCY_WIPE_STAT : Nat := 0x10010
/-- LCY_CNT_CHANGE (R504). -/
def Reg.LCY_CNT_CHANGE : Nat := 0x10014
/-- MGT_UPD_STAT (R505). -/
def Reg.MGT_UPD_STAT : Nat := 0x110000
/-- MGT_UPD_PAGES (R505). -/
def Reg.MGT_UPD_PAGES : Nat := 0x110004
/-- MGT_UPD_LEN (R505). -/
def Reg.MGT_UPD_LEN : Nat := 0x110008
/-- MGT_UPD_CFG (R505). -/
def Reg.MGT_UPD_CFG : Nat := 0x11000C
/-- MGT_UPD_LEFT (R505). -/
def Reg.MGT_UPD_LEFT : Nat := 0x110010
/-- MGT_IMG_SECVER (R505). -/
def Reg.MGT_IMG_SECVER : Nat := 0x110014
/-- MGT_LOG_SEQ (R505). -/
def Reg.MGT_LOG_SEQ : Nat := 0x110020
/-- MGT_CNT_LOG_LOST (R505). -/
def Reg.MGT_CNT_LOG_LOST : Nat := 0x110024
/-- MGT_PCNT_BOOT (R505). -/
def Reg.MGT_PCNT_BOOT : Nat := 0x110030
/-- MGT_PCNT_HOURS (R505). -/
def Reg.MGT_PCNT_HOURS : Nat := 0x110034
/-- MGT_PCNT_CLOSE (R505). -/
def Reg.MGT_PCNT_CLOSE : Nat := 0x110038
/-- MGT_PCNT_UPDATE (R505). -/
def Reg.MGT_PCNT_UPDATE : Nat := 0x11003C
/-- MGT_IRQ_STAT (R505). -/
def Reg.MGT_IRQ_STAT : Nat := 0x110040
/-- MGT_IRQ_EN (R505). -/
def Reg.MGT_IRQ_EN : Nat := 0x110044
/-- MGT_SENS_n (R505). -/
def Reg.MGT_SENS (n : Nat) : Nat := 0x110100 + 4 * n
/-- MGT_XFER_BUF_w (R505). -/
def Reg.MGT_XFER_BUF (w : Nat) : Nat := 0x118000 + 4 * w

/-- GLB_ID.vendor_id (R33). -/
def F.GLB_ID_vendor_id : Field := ⟨Reg.GLB_ID, 16, 16⟩
/-- GLB_ID.device_id (R33). -/
def F.GLB_ID_device_id : Field := ⟨Reg.GLB_ID, 0, 16⟩
/-- GLB_HW_VER.hw_version (R33). -/
def F.GLB_HW_VER_hw_version : Field := ⟨Reg.GLB_HW_VER, 0, 8⟩
/-- GLB_FW_VER.major (R33). -/
def F.GLB_FW_VER_major : Field := ⟨Reg.GLB_FW_VER, 24, 8⟩
/-- GLB_FW_VER.minor (R33). -/
def F.GLB_FW_VER_minor : Field := ⟨Reg.GLB_FW_VER, 16, 8⟩
/-- GLB_FW_VER.patch (R33). -/
def F.GLB_FW_VER_patch : Field := ⟨Reg.GLB_FW_VER, 0, 16⟩
/-- GLB_PROG_VER.major (R33). -/
def F.GLB_PROG_VER_major : Field := ⟨Reg.GLB_PROG_VER, 24, 8⟩
/-- GLB_PROG_VER.minor (R33). -/
def F.GLB_PROG_VER_minor : Field := ⟨Reg.GLB_PROG_VER, 16, 8⟩
/-- GLB_PROG_VER.patch (R33). -/
def F.GLB_PROG_VER_patch : Field := ⟨Reg.GLB_PROG_VER, 8, 8⟩
/-- GLB_PROG_VER.relud_level (R33). -/
def F.GLB_PROG_VER_relud_level : Field := ⟨Reg.GLB_PROG_VER, 0, 8⟩
/-- GLB_SERIAL_LO.serial_lo (R33). -/
def F.GLB_SERIAL_LO_serial_lo : Field := ⟨Reg.GLB_SERIAL_LO, 0, 32⟩
/-- GLB_SERIAL_HI.serial_hi (R33). -/
def F.GLB_SERIAL_HI_serial_hi : Field := ⟨Reg.GLB_SERIAL_HI, 0, 32⟩
/-- GLB_SLOT.slot (R33). -/
def F.GLB_SLOT_slot : Field := ⟨Reg.GLB_SLOT, 0, 6⟩
/-- GLB_STATUS.life_cycle (R34). -/
def F.GLB_STATUS_life_cycle : Field := ⟨Reg.GLB_STATUS, 29, 3⟩
/-- GLB_STATUS.run_state (R34). -/
def F.GLB_STATUS_run_state : Field := ⟨Reg.GLB_STATUS, 26, 3⟩
/-- GLB_STATUS.role (R34). -/
def F.GLB_STATUS_role : Field := ⟨Reg.GLB_STATUS, 24, 2⟩
/-- GLB_STATUS.ring_state (R34). -/
def F.GLB_STATUS_ring_state : Field := ⟨Reg.GLB_STATUS, 23, 1⟩
/-- GLB_STATUS.supply_state (R34). -/
def F.GLB_STATUS_supply_state : Field := ⟨Reg.GLB_STATUS, 21, 2⟩
/-- GLB_STATUS.control_law (R34). -/
def F.GLB_STATUS_control_law : Field := ⟨Reg.GLB_STATUS, 20, 1⟩
/-- GLB_STATUS.ref_source (R34). -/
def F.GLB_STATUS_ref_source : Field := ⟨Reg.GLB_STATUS, 18, 2⟩
/-- GLB_STATUS.energised (R34). -/
def F.GLB_STATUS_energised : Field := ⟨Reg.GLB_STATUS, 17, 1⟩
/-- GLB_STATUS.update_active (R34). -/
def F.GLB_STATUS_update_active : Field := ⟨Reg.GLB_STATUS, 16, 1⟩
/-- GLB_IRQ_SUM.spn (R35). -/
def F.GLB_IRQ_SUM_spn : Field := ⟨Reg.GLB_IRQ_SUM, 18, 1⟩
/-- GLB_IRQ_SUM.blk (R35). -/
def F.GLB_IRQ_SUM_blk : Field := ⟨Reg.GLB_IRQ_SUM, 0, 18⟩
/-- GLB_IRQ_EN_s.en (R35). -/
def F.GLB_IRQ_EN_en (s : Nat) : Field := ⟨Reg.GLB_IRQ_EN s, 0, 19⟩
/-- PWR_PD_CTRL.pd_on (R37). -/
def F.PWR_PD_CTRL_pd_on : Field := ⟨Reg.PWR_PD_CTRL, 0, 10⟩
/-- PWR_PD_STAT.pd_state (R37). -/
def F.PWR_PD_STAT_pd_state : Field := ⟨Reg.PWR_PD_STAT, 0, 20⟩
/-- PWR_CI_STAT.clk_ok (R37). -/
def F.PWR_CI_STAT_clk_ok : Field := ⟨Reg.PWR_CI_STAT, 0, 12⟩
/-- PWR_CI_FAULT.clk_fault (R37). -/
def F.PWR_CI_FAULT_clk_fault : Field := ⟨Reg.PWR_CI_FAULT, 0, 12⟩
/-- CHx_CTRL.clr_cnt (R121). -/
def F.CH_CTRL_clr_cnt (x : Nat) : Field := ⟨Reg.CH_CTRL x, 4, 1⟩
/-- CHx_CTRL.boot (R121). -/
def F.CH_CTRL_boot (x : Nat) : Field := ⟨Reg.CH_CTRL x, 3, 1⟩
/-- CHx_CTRL.rove (R121). -/
def F.CH_CTRL_rove (x : Nat) : Field := ⟨Reg.CH_CTRL x, 2, 1⟩
/-- CHx_CTRL.launch (R121). -/
def F.CH_CTRL_launch (x : Nat) : Field := ⟨Reg.CH_CTRL x, 1, 1⟩
/-- CHx_CTRL.tx_en (R121). -/
def F.CH_CTRL_tx_en (x : Nat) : Field := ⟨Reg.CH_CTRL x, 0, 1⟩
/-- CHx_CFG.topology (R121). -/
def F.CH_CFG_topology (x : Nat) : Field := ⟨Reg.CH_CFG x, 16, 2⟩
/-- CHx_CFG.cell_div (R121). -/
def F.CH_CFG_cell_div (x : Nat) : Field := ⟨Reg.CH_CFG x, 8, 8⟩
/-- CHx_CFG.nodes (R121). -/
def F.CH_CFG_nodes (x : Nat) : Field := ⟨Reg.CH_CFG x, 0, 8⟩
/-- CHx_LINK_STAT.rove_state (R121). -/
def F.CH_LINK_STAT_rove_state (x : Nat) : Field := ⟨Reg.CH_LINK_STAT x, 24, 3⟩
/-- CHx_LINK_STAT.nodes_found (R121). -/
def F.CH_LINK_STAT_nodes_found (x : Nat) : Field := ⟨Reg.CH_LINK_STAT x, 16, 8⟩
/-- CHx_LINK_STAT.turn_pos (R121). -/
def F.CH_LINK_STAT_turn_pos (x : Nat) : Field := ⟨Reg.CH_LINK_STAT x, 8, 8⟩
/-- CHx_LINK_STAT.ring_broken (R121). -/
def F.CH_LINK_STAT_ring_broken (x : Nat) : Field := ⟨Reg.CH_LINK_STAT x, 7, 1⟩
/-- CHx_LINK_STAT.turned (R121). -/
def F.CH_LINK_STAT_turned (x : Nat) : Field := ⟨Reg.CH_LINK_STAT x, 2, 1⟩
/-- CHx_LINK_STAT.rx_lock (R121). -/
def F.CH_LINK_STAT_rx_lock (x : Nat) : Field := ⟨Reg.CH_LINK_STAT x, 1, 1⟩
/-- CHx_LINK_STAT.tx_on (R121). -/
def F.CH_LINK_STAT_tx_on (x : Nat) : Field := ⟨Reg.CH_LINK_STAT x, 0, 1⟩
/-- CHx_IRQ_STAT.hop_mismatch (R121). -/
def F.CH_IRQ_STAT_hop_mismatch (x : Nat) : Field := ⟨Reg.CH_IRQ_STAT x, 7, 1⟩
/-- CHx_IRQ_STAT.launch_overrun (R121). -/
def F.CH_IRQ_STAT_launch_overrun (x : Nat) : Field := ⟨Reg.CH_IRQ_STAT x, 6, 1⟩
/-- CHx_IRQ_STAT.late_train (R121). -/
def F.CH_IRQ_STAT_late_train (x : Nat) : Field := ⟨Reg.CH_IRQ_STAT x, 5, 1⟩
/-- CHx_IRQ_STAT.node_join (R121). -/
def F.CH_IRQ_STAT_node_join (x : Nat) : Field := ⟨Reg.CH_IRQ_STAT x, 4, 1⟩
/-- CHx_IRQ_STAT.rove_fail (R121). -/
def F.CH_IRQ_STAT_rove_fail (x : Nat) : Field := ⟨Reg.CH_IRQ_STAT x, 3, 1⟩
/-- CHx_IRQ_STAT.rove_done (R121). -/
def F.CH_IRQ_STAT_rove_done (x : Nat) : Field := ⟨Reg.CH_IRQ_STAT x, 2, 1⟩
/-- CHx_IRQ_STAT.ring_closed (R121). -/
def F.CH_IRQ_STAT_ring_closed (x : Nat) : Field := ⟨Reg.CH_IRQ_STAT x, 1, 1⟩
/-- CHx_IRQ_STAT.ring_broken (R121). -/
def F.CH_IRQ_STAT_ring_broken (x : Nat) : Field := ⟨Reg.CH_IRQ_STAT x, 0, 1⟩
/-- CHx_IRQ_EN.en (R121). -/
def F.CH_IRQ_EN_en (x : Nat) : Field := ⟨Reg.CH_IRQ_EN x, 0, 8⟩
/-- CHx_RING_LAT.ring_lat (R121). -/
def F.CH_RING_LAT_ring_lat (x : Nat) : Field := ⟨Reg.CH_RING_LAT x, 0, 16⟩
/-- CHx_CNT_CV.count (R121). -/
def F.CH_CNT_CV_count (x : Nat) : Field := ⟨Reg.CH_CNT_CV x, 0, 32⟩
/-- CHx_CNT_HDR.count (R121). -/
def F.CH_CNT_HDR_count (x : Nat) : Field := ⟨Reg.CH_CNT_HDR x, 0, 32⟩
/-- CHx_CNT_SLOT.count (R121). -/
def F.CH_CNT_SLOT_count (x : Nat) : Field := ⟨Reg.CH_CNT_SLOT x, 0, 32⟩
/-- CHx_CNT_LATE.count (R121). -/
def F.CH_CNT_LATE_count (x : Nat) : Field := ⟨Reg.CH_CNT_LATE x, 0, 32⟩
/-- CHx_CNT_BAD.count (R121). -/
def F.CH_CNT_BAD_count (x : Nat) : Field := ⟨Reg.CH_CNT_BAD x, 0, 32⟩
/-- CHx_CNT_MISM.count (R121). -/
def F.CH_CNT_MISM_count (x : Nat) : Field := ⟨Reg.CH_CNT_MISM x, 0, 32⟩
/-- CHx_MISS_k.miss (R121). -/
def F.CH_MISS_miss (x : Nat) (k : Nat) : Field := ⟨Reg.CH_MISS x k, 0, 32⟩
/-- CHx_DELAY_n.valid (R121). -/
def F.CH_DELAY_valid (x : Nat) (n : Nat) : Field := ⟨Reg.CH_DELAY x n, 31, 1⟩
/-- CHx_DELAY_n.delay_q (R121). -/
def F.CH_DELAY_delay_q (x : Nat) (n : Nat) : Field := ⟨Reg.CH_DELAY x n, 0, 16⟩
/-- FLY_CTRL.clr_cnt (R158). -/
def F.FLY_CTRL_clr_cnt : Field := ⟨Reg.FLY_CTRL, 5, 1⟩
/-- FLY_CTRL.sw_stop (R158). -/
def F.FLY_CTRL_sw_stop : Field := ⟨Reg.FLY_CTRL, 4, 1⟩
/-- FLY_CTRL.sw_release (R158). -/
def F.FLY_CTRL_sw_release : Field := ⟨Reg.FLY_CTRL, 3, 1⟩
/-- FLY_CTRL.hyst_en (R158). -/
def F.FLY_CTRL_hyst_en : Field := ⟨Reg.FLY_CTRL, 2, 1⟩
/-- FLY_CTRL.cyc_en (R158). -/
def F.FLY_CTRL_cyc_en : Field := ⟨Reg.FLY_CTRL, 1, 1⟩
/-- FLY_CYCLE.period (R158). -/
def F.FLY_CYCLE_period : Field := ⟨Reg.FLY_CYCLE, 0, 7⟩
/-- FLY_PHASE.phase_ns (R158). -/
def F.FLY_PHASE_phase_ns : Field := ⟨Reg.FLY_PHASE, 0, 17⟩
/-- FLY_CYC_NUM.cycle (R158). -/
def F.FLY_CYC_NUM_cycle : Field := ⟨Reg.FLY_CYC_NUM, 0, 32⟩
/-- FLY_TIME_A.freeze (R158). -/
def F.FLY_TIME_A_freeze : Field := ⟨Reg.FLY_TIME_A, 16, 16⟩
/-- FLY_TIME_A.launch (R158). -/
def F.FLY_TIME_A_launch : Field := ⟨Reg.FLY_TIME_A, 0, 16⟩
/-- FLY_TIME_B.hold_dl (R158). -/
def F.FLY_TIME_B_hold_dl : Field := ⟨Reg.FLY_TIME_B, 16, 16⟩
/-- FLY_TIME_B.hold (R158). -/
def F.FLY_TIME_B_hold : Field := ⟨Reg.FLY_TIME_B, 0, 16⟩
/-- FLY_TIME_C.uplink (R158). -/
def F.FLY_TIME_C_uplink : Field := ⟨Reg.FLY_TIME_C, 16, 16⟩
/-- FLY_TIME_C.measured (R158). -/
def F.FLY_TIME_C_measured : Field := ⟨Reg.FLY_TIME_C, 3, 1⟩
/-- FLY_TIME_C.fit_fail (R158). -/
def F.FLY_TIME_C_fit_fail : Field := ⟨Reg.FLY_TIME_C, 2, 1⟩
/-- FLY_TIME_C.hold_fail (R158). -/
def F.FLY_TIME_C_hold_fail : Field := ⟨Reg.FLY_TIME_C, 1, 1⟩
/-- FLY_TIME_C.uplink_fail (R158). -/
def F.FLY_TIME_C_uplink_fail : Field := ⟨Reg.FLY_TIME_C, 0, 1⟩
/-- FLY_LIMITS.min_dwell (R158). -/
def F.FLY_LIMITS_min_dwell : Field := ⟨Reg.FLY_LIMITS, 24, 8⟩
/-- FLY_LIMITS.burst (R158). -/
def F.FLY_LIMITS_burst : Field := ⟨Reg.FLY_LIMITS, 16, 8⟩
/-- FLY_LIMITS.chg_rate (R158). -/
def F.FLY_LIMITS_chg_rate : Field := ⟨Reg.FLY_LIMITS, 0, 14⟩
/-- FLY_TRIM.trim_run (R158). -/
def F.FLY_TRIM_trim_run : Field := ⟨Reg.FLY_TRIM, 24, 8⟩
/-- FLY_TRIM.trim_rest (R158). -/
def F.FLY_TRIM_trim_rest : Field := ⟨Reg.FLY_TRIM, 16, 8⟩
/-- FLY_TRIM.max_armed (R158). -/
def F.FLY_TRIM_max_armed : Field := ⟨Reg.FLY_TRIM, 8, 3⟩
/-- FLY_TRIM.max_trim (R158). -/
def F.FLY_TRIM_max_trim : Field := ⟨Reg.FLY_TRIM, 0, 3⟩
/-- FLY_HYST.max_toggles (R158). -/
def F.FLY_HYST_max_toggles : Field := ⟨Reg.FLY_HYST, 16, 5⟩
/-- FLY_HYST.spacing (R158). -/
def F.FLY_HYST_spacing : Field := ⟨Reg.FLY_HYST, 8, 8⟩
/-- FLY_PRECHG.step_nodes (R158). -/
def F.FLY_PRECHG_step_nodes : Field := ⟨Reg.FLY_PRECHG, 24, 8⟩
/-- FLY_PRECHG.match_cycles (R158). -/
def F.FLY_PRECHG_match_cycles : Field := ⟨Reg.FLY_PRECHG, 16, 8⟩
/-- FLY_PRECHG.match_tol (R158). -/
def F.FLY_PRECHG_match_tol : Field := ⟨Reg.FLY_PRECHG, 8, 8⟩
/-- FLY_PRECHG.timeout (R158). -/
def F.FLY_PRECHG_timeout : Field := ⟨Reg.FLY_PRECHG, 0, 8⟩
/-- FLY_STOP.latched (R158). -/
def F.FLY_STOP_latched : Field := ⟨Reg.FLY_STOP, 8, 1⟩
/-- FLY_STOP.src_emit (R158). -/
def F.FLY_STOP_src_emit : Field := ⟨Reg.FLY_STOP, 5, 1⟩
/-- FLY_STOP.src_partner (R158). -/
def F.FLY_STOP_src_partner : Field := ⟨Reg.FLY_STOP, 4, 1⟩
/-- FLY_STOP.src_clock (R158). -/
def F.FLY_STOP_src_clock : Field := ⟨Reg.FLY_STOP, 3, 1⟩
/-- FLY_STOP.src_safety (R158). -/
def F.FLY_STOP_src_safety : Field := ⟨Reg.FLY_STOP, 2, 1⟩
/-- FLY_STOP.src_sw (R158). -/
def F.FLY_STOP_src_sw : Field := ⟨Reg.FLY_STOP, 1, 1⟩
/-- FLY_STOP.active (R158). -/
def F.FLY_STOP_active : Field := ⟨Reg.FLY_STOP, 0, 1⟩
/-- FLY_PRE_STAT.diff (R158). -/
def F.FLY_PRE_STAT_diff : Field := ⟨Reg.FLY_PRE_STAT, 16, 16⟩
/-- FLY_PRE_STAT.inserted (R158). -/
def F.FLY_PRE_STAT_inserted : Field := ⟨Reg.FLY_PRE_STAT, 8, 8⟩
/-- FLY_PRE_STAT.fail_cause (R158). -/
def F.FLY_PRE_STAT_fail_cause : Field := ⟨Reg.FLY_PRE_STAT, 4, 3⟩
/-- FLY_PRE_STAT.pre_state (R158). -/
def F.FLY_PRE_STAT_pre_state : Field := ⟨Reg.FLY_PRE_STAT, 0, 3⟩
/-- FLY_BLOCK_k.block (R158). -/
def F.FLY_BLOCK_block (k : Nat) : Field := ⟨Reg.FLY_BLOCK k, 0, 32⟩
/-- FLY_FORCED_k.forced (R158). -/
def F.FLY_FORCED_forced (k : Nat) : Field := ⟨Reg.FLY_FORCED k, 0, 32⟩
/-- FLY_IRQ_STAT.pre_fail (R158). -/
def F.FLY_IRQ_STAT_pre_fail : Field := ⟨Reg.FLY_IRQ_STAT, 7, 1⟩
/-- FLY_IRQ_STAT.pre_match (R158). -/
def F.FLY_IRQ_STAT_pre_match : Field := ⟨Reg.FLY_IRQ_STAT, 6, 1⟩
/-- FLY_IRQ_STAT.stop_on (R158). -/
def F.FLY_IRQ_STAT_stop_on : Field := ⟨Reg.FLY_IRQ_STAT, 5, 1⟩
/-- FLY_IRQ_STAT.stop_off (R158). -/
def F.FLY_IRQ_STAT_stop_off : Field := ⟨Reg.FLY_IRQ_STAT, 4, 1⟩
/-- FLY_IRQ_STAT.veto (R158). -/
def F.FLY_IRQ_STAT_veto : Field := ⟨Reg.FLY_IRQ_STAT, 3, 1⟩
/-- FLY_IRQ_STAT.hyst_limit (R158). -/
def F.FLY_IRQ_STAT_hyst_limit : Field := ⟨Reg.FLY_IRQ_STAT, 2, 1⟩
/-- FLY_IRQ_STAT.emit_missing (R158). -/
def F.FLY_IRQ_STAT_emit_missing : Field := ⟨Reg.FLY_IRQ_STAT, 1, 1⟩
/-- FLY_IRQ_STAT.timing_fail (R158). -/
def F.FLY_IRQ_STAT_timing_fail : Field := ⟨Reg.FLY_IRQ_STAT, 0, 1⟩
/-- FLY_IRQ_EN.en (R158). -/
def F.FLY_IRQ_EN_en : Field := ⟨Reg.FLY_IRQ_EN, 0, 8⟩
/-- FLY_CNT_VETO.count (R158). -/
def F.FLY_CNT_VETO_count : Field := ⟨Reg.FLY_CNT_VETO, 0, 32⟩
/-- FLY_CNT_TOGGLE.count (R158). -/
def F.FLY_CNT_TOGGLE_count : Field := ⟨Reg.FLY_CNT_TOGGLE, 0, 32⟩
/-- FLY_CNT_NOEMIT.count (R158). -/
def F.FLY_CNT_NOEMIT_count : Field := ⟨Reg.FLY_CNT_NOEMIT, 0, 32⟩
/-- FLY_CNT_STOP.count (R158). -/
def F.FLY_CNT_STOP_count : Field := ⟨Reg.FLY_CNT_STOP, 0, 32⟩
/-- SNS_CTRL.clr_cnt (R195). -/
def F.SNS_CTRL_clr_cnt : Field := ⟨Reg.SNS_CTRL, 5, 1⟩
/-- SNS_CTRL.iso_start (R195). -/
def F.SNS_CTRL_iso_start : Field := ⟨Reg.SNS_CTRL, 4, 1⟩
/-- SNS_CTRL.iso_monitor (R195). -/
def F.SNS_CTRL_iso_monitor : Field := ⟨Reg.SNS_CTRL, 3, 1⟩
/-- SNS_CTRL.partner_en (R195). -/
def F.SNS_CTRL_partner_en : Field := ⟨Reg.SNS_CTRL, 2, 1⟩
/-- SNS_CTRL.fg_en (R195). -/
def F.SNS_CTRL_fg_en : Field := ⟨Reg.SNS_CTRL, 1, 1⟩
/-- SNS_STAT.ladder (R195). -/
def F.SNS_STAT_ladder : Field := ⟨Reg.SNS_STAT, 21, 3⟩
/-- SNS_STAT.fb_src (R195). -/
def F.SNS_STAT_fb_src : Field := ⟨Reg.SNS_STAT, 19, 2⟩
/-- SNS_STAT.cmp_fg (R195). -/
def F.SNS_STAT_cmp_fg : Field := ⟨Reg.SNS_STAT, 18, 1⟩
/-- SNS_STAT.cmp_sh (R195). -/
def F.SNS_STAT_cmp_sh : Field := ⟨Reg.SNS_STAT, 17, 1⟩
/-- SNS_STAT.iso_busy (R195). -/
def F.SNS_STAT_iso_busy : Field := ⟨Reg.SNS_STAT, 16, 1⟩
/-- SNS_STAT.partner_ok (R195). -/
def F.SNS_STAT_partner_ok : Field := ⟨Reg.SNS_STAT, 7, 1⟩
/-- SNS_STAT.fg_clip (R195). -/
def F.SNS_STAT_fg_clip : Field := ⟨Reg.SNS_STAT, 6, 1⟩
/-- SNS_STAT.fg_ilim (R195). -/
def F.SNS_STAT_fg_ilim : Field := ⟨Reg.SNS_STAT, 5, 1⟩
/-- SNS_STAT.fg_ok (R195). -/
def F.SNS_STAT_fg_ok : Field := ⟨Reg.SNS_STAT, 4, 1⟩
/-- SNS_STAT.sh_therm (R195). -/
def F.SNS_STAT_sh_therm : Field := ⟨Reg.SNS_STAT, 3, 1⟩
/-- SNS_STAT.sh_sat (R195). -/
def F.SNS_STAT_sh_sat : Field := ⟨Reg.SNS_STAT, 2, 1⟩
/-- SNS_STAT.sh_missing (R195). -/
def F.SNS_STAT_sh_missing : Field := ⟨Reg.SNS_STAT, 1, 1⟩
/-- SNS_STAT.sh_ok (R195). -/
def F.SNS_STAT_sh_ok : Field := ⟨Reg.SNS_STAT, 0, 1⟩
/-- SNS_MODE.pending (R195). -/
def F.SNS_MODE_pending : Field := ⟨Reg.SNS_MODE, 8, 1⟩
/-- SNS_MODE.ref_req (R195). -/
def F.SNS_MODE_ref_req : Field := ⟨Reg.SNS_MODE, 3, 2⟩
/-- SNS_MODE.law_req (R195). -/
def F.SNS_MODE_law_req : Field := ⟨Reg.SNS_MODE, 0, 1⟩
/-- SNS_IRQ_STAT.cap_done (R195). -/
def F.SNS_IRQ_STAT_cap_done : Field := ⟨Reg.SNS_IRQ_STAT, 7, 1⟩
/-- SNS_IRQ_STAT.cap_trig (R195). -/
def F.SNS_IRQ_STAT_cap_trig : Field := ⟨Reg.SNS_IRQ_STAT, 6, 1⟩
/-- SNS_IRQ_STAT.iso_done (R195). -/
def F.SNS_IRQ_STAT_iso_done : Field := ⟨Reg.SNS_IRQ_STAT, 5, 1⟩
/-- SNS_IRQ_STAT.iso_low (R195). -/
def F.SNS_IRQ_STAT_iso_low : Field := ⟨Reg.SNS_IRQ_STAT, 4, 1⟩
/-- SNS_IRQ_STAT.fb_switch (R195). -/
def F.SNS_IRQ_STAT_fb_switch : Field := ⟨Reg.SNS_IRQ_STAT, 3, 1⟩
/-- SNS_IRQ_STAT.fb_lost (R195). -/
def F.SNS_IRQ_STAT_fb_lost : Field := ⟨Reg.SNS_IRQ_STAT, 2, 1⟩
/-- SNS_IRQ_STAT.handover_done (R195). -/
def F.SNS_IRQ_STAT_handover_done : Field := ⟨Reg.SNS_IRQ_STAT, 1, 1⟩
/-- SNS_IRQ_STAT.sp_timeout (R195). -/
def F.SNS_IRQ_STAT_sp_timeout : Field := ⟨Reg.SNS_IRQ_STAT, 0, 1⟩
/-- SNS_IRQ_EN.en (R195). -/
def F.SNS_IRQ_EN_en : Field := ⟨Reg.SNS_IRQ_EN, 0, 8⟩
/-- SNS_PROG_EVT.evt (R195). -/
def F.SNS_PROG_EVT_evt : Field := ⟨Reg.SNS_PROG_EVT, 0, 8⟩
/-- SNS_I.i (R195). -/
def F.SNS_I_i : Field := ⟨Reg.SNS_I, 0, 32⟩
/-- SNS_VSTR.v (R195). -/
def F.SNS_VSTR_v : Field := ⟨Reg.SNS_VSTR, 0, 32⟩
/-- SNS_VBUS.v (R195). -/
def F.SNS_VBUS_v : Field := ⟨Reg.SNS_VBUS, 0, 32⟩
/-- SNS_VPOS_PE.v (R195). -/
def F.SNS_VPOS_PE_v : Field := ⟨Reg.SNS_VPOS_PE, 0, 32⟩
/-- SNS_VNEG_PE.v (R195). -/
def F.SNS_VNEG_PE_v : Field := ⟨Reg.SNS_VNEG_PE, 0, 32⟩
/-- SNS_I_SH.i (R195). -/
def F.SNS_I_SH_i : Field := ⟨Reg.SNS_I_SH, 0, 32⟩
/-- SNS_I_FG.i (R195). -/
def F.SNS_I_FG_i : Field := ⟨Reg.SNS_I_FG, 0, 32⟩
/-- SNS_SH_TEMP.t (R195). -/
def F.SNS_SH_TEMP_t : Field := ⟨Reg.SNS_SH_TEMP, 0, 16⟩
/-- SNS_ISO.valid (R195). -/
def F.SNS_ISO_valid : Field := ⟨Reg.SNS_ISO, 31, 1⟩
/-- SNS_ISO.age (R195). -/
def F.SNS_ISO_age : Field := ⟨Reg.SNS_ISO, 16, 15⟩
/-- SNS_ISO.r_iso (R195). -/
def F.SNS_ISO_r_iso : Field := ⟨Reg.SNS_ISO, 0, 16⟩
/-- SNS_ISO_LIM.warn (R195). -/
def F.SNS_ISO_LIM_warn : Field := ⟨Reg.SNS_ISO_LIM, 0, 16⟩
/-- SNS_SP_OWNER.owner (R195). -/
def F.SNS_SP_OWNER_owner : Field := ⟨Reg.SNS_SP_OWNER, 0, 4⟩
/-- SNS_SP_I.i_target (R195). -/
def F.SNS_SP_I_i_target : Field := ⟨Reg.SNS_SP_I, 0, 32⟩
/-- SNS_SP_LIM.i_dis_max (R195). -/
def F.SNS_SP_LIM_i_dis_max : Field := ⟨Reg.SNS_SP_LIM, 16, 16⟩
/-- SNS_SP_LIM.i_chg_max (R195). -/
def F.SNS_SP_LIM_i_chg_max : Field := ⟨Reg.SNS_SP_LIM, 0, 16⟩
/-- SNS_SP_APPLY.cycle (R195). -/
def F.SNS_SP_APPLY_cycle : Field := ⟨Reg.SNS_SP_APPLY, 0, 32⟩
/-- SNS_SP_CTRL.timeout (R195). -/
def F.SNS_SP_CTRL_timeout : Field := ⟨Reg.SNS_SP_CTRL, 16, 16⟩
/-- SNS_SP_CTRL.at_cycle (R195). -/
def F.SNS_SP_CTRL_at_cycle : Field := ⟨Reg.SNS_SP_CTRL, 2, 1⟩
/-- SNS_SP_CTRL.pending (R195). -/
def F.SNS_SP_CTRL_pending : Field := ⟨Reg.SNS_SP_CTRL, 1, 1⟩
/-- SNS_SP_CTRL.commit (R195). -/
def F.SNS_SP_CTRL_commit : Field := ⟨Reg.SNS_SP_CTRL, 0, 1⟩
/-- SNS_SP_STAT.i_force (R195). -/
def F.SNS_SP_STAT_i_force : Field := ⟨Reg.SNS_SP_STAT, 0, 32⟩
/-- SNS_SP_CYC.cycle (R195). -/
def F.SNS_SP_CYC_cycle : Field := ⟨Reg.SNS_SP_CYC, 0, 32⟩
/-- SNS_CAP_CTRL.chan_mask (R195). -/
def F.SNS_CAP_CTRL_chan_mask : Field := ⟨Reg.SNS_CAP_CTRL, 16, 16⟩
/-- SNS_CAP_CTRL.decim (R195). -/
def F.SNS_CAP_CTRL_decim : Field := ⟨Reg.SNS_CAP_CTRL, 8, 8⟩
/-- SNS_CAP_CTRL.sc900 (R195). -/
def F.SNS_CAP_CTRL_sc900 : Field := ⟨Reg.SNS_CAP_CTRL, 4, 1⟩
/-- SNS_CAP_CTRL.mode (R195). -/
def F.SNS_CAP_CTRL_mode : Field := ⟨Reg.SNS_CAP_CTRL, 3, 1⟩
/-- SNS_CAP_CTRL.abort (R195). -/
def F.SNS_CAP_CTRL_abort : Field := ⟨Reg.SNS_CAP_CTRL, 2, 1⟩
/-- SNS_CAP_CTRL.arm (R195). -/
def F.SNS_CAP_CTRL_arm : Field := ⟨Reg.SNS_CAP_CTRL, 1, 1⟩
/-- SNS_CAP_TRIG.chan (R195). -/
def F.SNS_CAP_TRIG_chan : Field := ⟨Reg.SNS_CAP_TRIG, 24, 4⟩
/-- SNS_CAP_TRIG.src (R195). -/
def F.SNS_CAP_TRIG_src : Field := ⟨Reg.SNS_CAP_TRIG, 16, 4⟩
/-- SNS_CAP_LEVEL.level (R195). -/
def F.SNS_CAP_LEVEL_level : Field := ⟨Reg.SNS_CAP_LEVEL, 0, 32⟩
/-- SNS_CAP_STAT.state (R195). -/
def F.SNS_CAP_STAT_state : Field := ⟨Reg.SNS_CAP_STAT, 29, 3⟩
/-- SNS_CAP_STAT.records (R195). -/
def F.SNS_CAP_STAT_records : Field := ⟨Reg.SNS_CAP_STAT, 0, 24⟩
/-- SNS_CAP_TCYC.cycle (R195). -/
def F.SNS_CAP_TCYC_cycle : Field := ⟨Reg.SNS_CAP_TCYC, 0, 32⟩
/-- SNS_CAP_PRE.pre (R195). -/
def F.SNS_CAP_PRE_pre : Field := ⟨Reg.SNS_CAP_PRE, 0, 24⟩
/-- SNS_CAP_SCALE_c.full_scale (R195). -/
def F.SNS_CAP_SCALE_full_scale (c : Nat) : Field := ⟨Reg.SNS_CAP_SCALE c, 0, 32⟩
/-- SNS_CNT_MISS.count (R195). -/
def F.SNS_CNT_MISS_count : Field := ⟨Reg.SNS_CNT_MISS, 0, 32⟩
/-- SNS_CNT_SWITCH.count (R195). -/
def F.SNS_CNT_SWITCH_count : Field := ⟨Reg.SNS_CNT_SWITCH, 0, 32⟩
/-- SNS_CNT_SAT.count (R195). -/
def F.SNS_CNT_SAT_count : Field := ⟨Reg.SNS_CNT_SAT, 0, 32⟩
/-- SPN_CTRL.clr_trap (R227). -/
def F.SPN_CTRL_clr_trap : Field := ⟨Reg.SPN_CTRL, 8, 1⟩
/-- SPN_CTRL.clr_cnt (R227). -/
def F.SPN_CTRL_clr_cnt : Field := ⟨Reg.SPN_CTRL, 7, 1⟩
/-- SPN_CTRL.selftest (R227). -/
def F.SPN_CTRL_selftest : Field := ⟨Reg.SPN_CTRL, 6, 1⟩
/-- SPN_CTRL.ovf_trap (R227). -/
def F.SPN_CTRL_ovf_trap : Field := ⟨Reg.SPN_CTRL, 5, 1⟩
/-- SPN_CTRL.det_enforce (R227). -/
def F.SPN_CTRL_det_enforce : Field := ⟨Reg.SPN_CTRL, 4, 1⟩
/-- SPN_CTRL.stop (R227). -/
def F.SPN_CTRL_stop : Field := ⟨Reg.SPN_CTRL, 1, 1⟩
/-- SPN_CTRL.run (R227). -/
def F.SPN_CTRL_run : Field := ⟨Reg.SPN_CTRL, 0, 1⟩
/-- SPN_STAT.section (R227). -/
def F.SPN_STAT_section : Field := ⟨Reg.SPN_STAT, 4, 2⟩
/-- SPN_STAT.state (R227). -/
def F.SPN_STAT_state : Field := ⟨Reg.SPN_STAT, 0, 3⟩
/-- SPN_ENTRY.est_pc (R227). -/
def F.SPN_ENTRY_est_pc : Field := ⟨Reg.SPN_ENTRY, 16, 16⟩
/-- SPN_ENTRY.fast_pc (R227). -/
def F.SPN_ENTRY_fast_pc : Field := ⟨Reg.SPN_ENTRY, 0, 16⟩
/-- SPN_PROG_LEN.len (R227). -/
def F.SPN_PROG_LEN_len : Field := ⟨Reg.SPN_PROG_LEN, 0, 17⟩
/-- SPN_PROG_ID.id (R227). -/
def F.SPN_PROG_ID_id : Field := ⟨Reg.SPN_PROG_ID, 0, 32⟩
/-- SPN_START_CYC.cycle (R227). -/
def F.SPN_START_CYC_cycle : Field := ⟨Reg.SPN_START_CYC, 0, 32⟩
/-- SPN_TRAP.cause (R227). -/
def F.SPN_TRAP_cause : Field := ⟨Reg.SPN_TRAP, 24, 8⟩
/-- SPN_TRAP.lane (R227). -/
def F.SPN_TRAP_lane : Field := ⟨Reg.SPN_TRAP, 16, 8⟩
/-- SPN_TRAP.pc (R227). -/
def F.SPN_TRAP_pc : Field := ⟨Reg.SPN_TRAP, 0, 16⟩
/-- SPN_TRAP_CYC.cycle (R227). -/
def F.SPN_TRAP_CYC_cycle : Field := ⟨Reg.SPN_TRAP_CYC, 0, 32⟩
/-- SPN_AFLAG.flag (R227). -/
def F.SPN_AFLAG_flag : Field := ⟨Reg.SPN_AFLAG, 0, 4⟩
/-- SPN_USE.est_used (R227). -/
def F.SPN_USE_est_used : Field := ⟨Reg.SPN_USE, 16, 16⟩
/-- SPN_USE.fast_used (R227). -/
def F.SPN_USE_fast_used : Field := ⟨Reg.SPN_USE, 0, 16⟩
/-- SPN_USE_MAX.est_max (R227). -/
def F.SPN_USE_MAX_est_max : Field := ⟨Reg.SPN_USE_MAX, 16, 16⟩
/-- SPN_USE_MAX.fast_max (R227). -/
def F.SPN_USE_MAX_fast_max : Field := ⟨Reg.SPN_USE_MAX, 0, 16⟩
/-- SPN_BANK_CTRL.at_cycle (R227). -/
def F.SPN_BANK_CTRL_at_cycle : Field := ⟨Reg.SPN_BANK_CTRL, 4, 1⟩
/-- SPN_BANK_CTRL.cancel (R227). -/
def F.SPN_BANK_CTRL_cancel : Field := ⟨Reg.SPN_BANK_CTRL, 3, 1⟩
/-- SPN_BANK_CTRL.copy (R227). -/
def F.SPN_BANK_CTRL_copy : Field := ⟨Reg.SPN_BANK_CTRL, 2, 1⟩
/-- SPN_BANK_CTRL.swap (R227). -/
def F.SPN_BANK_CTRL_swap : Field := ⟨Reg.SPN_BANK_CTRL, 1, 1⟩
/-- SPN_BANK_APPLY.cycle (R227). -/
def F.SPN_BANK_APPLY_cycle : Field := ⟨Reg.SPN_BANK_APPLY, 0, 32⟩
/-- SPN_BANK_STAT.crc_busy (R227). -/
def F.SPN_BANK_STAT_crc_busy : Field := ⟨Reg.SPN_BANK_STAT, 3, 1⟩
/-- SPN_BANK_STAT.copy_busy (R227). -/
def F.SPN_BANK_STAT_copy_busy : Field := ⟨Reg.SPN_BANK_STAT, 2, 1⟩
/-- SPN_BANK_STAT.pending (R227). -/
def F.SPN_BANK_STAT_pending : Field := ⟨Reg.SPN_BANK_STAT, 1, 1⟩
/-- SPN_BANK_STAT.in_force (R227). -/
def F.SPN_BANK_STAT_in_force : Field := ⟨Reg.SPN_BANK_STAT, 0, 1⟩
/-- SPN_BANK_CYC.cycle (R227). -/
def F.SPN_BANK_CYC_cycle : Field := ⟨Reg.SPN_BANK_CYC, 0, 32⟩
/-- SPN_BANK_CRC_F.crc (R227). -/
def F.SPN_BANK_CRC_F_crc : Field := ⟨Reg.SPN_BANK_CRC_F, 0, 32⟩
/-- SPN_BANK_CRC_S.crc (R227). -/
def F.SPN_BANK_CRC_S_crc : Field := ⟨Reg.SPN_BANK_CRC_S, 0, 32⟩
/-- SPN_DIG_CYC.cycle (R227). -/
def F.SPN_DIG_CYC_cycle : Field := ⟨Reg.SPN_DIG_CYC, 0, 32⟩
/-- SPN_DIG_IN.crc (R227). -/
def F.SPN_DIG_IN_crc : Field := ⟨Reg.SPN_DIG_IN, 0, 32⟩
/-- SPN_DIG_OUT.crc (R227). -/
def F.SPN_DIG_OUT_crc : Field := ⟨Reg.SPN_DIG_OUT, 0, 32⟩
/-- SPN_DIG_STATE_CYC.cycle (R227). -/
def F.SPN_DIG_STATE_CYC_cycle : Field := ⟨Reg.SPN_DIG_STATE_CYC, 0, 32⟩
/-- SPN_DIG_STATE.crc (R227). -/
def F.SPN_DIG_STATE_crc : Field := ⟨Reg.SPN_DIG_STATE, 0, 32⟩
/-- SPN_ST_CYC.cycle (R227). -/
def F.SPN_ST_CYC_cycle : Field := ⟨Reg.SPN_ST_CYC, 0, 32⟩
/-- SPN_ST_STAT.result (R227). -/
def F.SPN_ST_STAT_result : Field := ⟨Reg.SPN_ST_STAT, 0, 2⟩
/-- SPN_ST_FAIL_k.fail (R227). -/
def F.SPN_ST_FAIL_fail (k : Nat) : Field := ⟨Reg.SPN_ST_FAIL k, 0, 32⟩
/-- SPN_IRQ_STAT.lane_inval (R227). -/
def F.SPN_IRQ_STAT_lane_inval : Field := ⟨Reg.SPN_IRQ_STAT, 7, 1⟩
/-- SPN_IRQ_STAT.aflag (R227). -/
def F.SPN_IRQ_STAT_aflag : Field := ⟨Reg.SPN_IRQ_STAT, 6, 1⟩
/-- SPN_IRQ_STAT.st_done (R227). -/
def F.SPN_IRQ_STAT_st_done : Field := ⟨Reg.SPN_IRQ_STAT, 5, 1⟩
/-- SPN_IRQ_STAT.swap_done (R227). -/
def F.SPN_IRQ_STAT_swap_done : Field := ⟨Reg.SPN_IRQ_STAT, 4, 1⟩
/-- SPN_IRQ_STAT.ovr_est (R227). -/
def F.SPN_IRQ_STAT_ovr_est : Field := ⟨Reg.SPN_IRQ_STAT, 3, 1⟩
/-- SPN_IRQ_STAT.ovr_fast (R227). -/
def F.SPN_IRQ_STAT_ovr_fast : Field := ⟨Reg.SPN_IRQ_STAT, 2, 1⟩
/-- SPN_IRQ_STAT.trap (R227). -/
def F.SPN_IRQ_STAT_trap : Field := ⟨Reg.SPN_IRQ_STAT, 1, 1⟩
/-- SPN_IRQ_STAT.running (R227). -/
def F.SPN_IRQ_STAT_running : Field := ⟨Reg.SPN_IRQ_STAT, 0, 1⟩
/-- SPN_IRQ_EN.en (R227). -/
def F.SPN_IRQ_EN_en : Field := ⟨Reg.SPN_IRQ_EN, 0, 8⟩
/-- SPN_LANE_INVAL_k.inval (R227). -/
def F.SPN_LANE_INVAL_inval (k : Nat) : Field := ⟨Reg.SPN_LANE_INVAL k, 0, 32⟩
/-- SPN_CNT_OVR_FAST.count (R227). -/
def F.SPN_CNT_OVR_FAST_count : Field := ⟨Reg.SPN_CNT_OVR_FAST, 0, 32⟩
/-- SPN_CNT_OVR_EST.count (R227). -/
def F.SPN_CNT_OVR_EST_count : Field := ⟨Reg.SPN_CNT_OVR_EST, 0, 32⟩
/-- SPN_CNT_POISON.count (R227). -/
def F.SPN_CNT_POISON_count : Field := ⟨Reg.SPN_CNT_POISON, 0, 32⟩
/-- SPN_CNT_NOEST.count (R227). -/
def F.SPN_CNT_NOEST_count : Field := ⟨Reg.SPN_CNT_NOEST, 0, 32⟩
/-- SNS_MEAS_CTRL.ow_period (R296). -/
def F.SNS_MEAS_CTRL_ow_period : Field := ⟨Reg.SNS_MEAS_CTRL, 16, 16⟩
/-- SNS_MEAS_CTRL.ow_samples (R296). -/
def F.SNS_MEAS_CTRL_ow_samples : Field := ⟨Reg.SNS_MEAS_CTRL, 8, 4⟩
/-- SNS_MEAS_CTRL.ow_abort (R296). -/
def F.SNS_MEAS_CTRL_ow_abort : Field := ⟨Reg.SNS_MEAS_CTRL, 2, 1⟩
/-- SNS_MEAS_CTRL.ow_now (R296). -/
def F.SNS_MEAS_CTRL_ow_now : Field := ⟨Reg.SNS_MEAS_CTRL, 1, 1⟩
/-- SNS_MEAS_STAT.activity (R296). -/
def F.SNS_MEAS_STAT_activity : Field := ⟨Reg.SNS_MEAS_STAT, 29, 3⟩
/-- SNS_MEAS_STAT.quiet (R296). -/
def F.SNS_MEAS_STAT_quiet : Field := ⟨Reg.SNS_MEAS_STAT, 28, 1⟩
/-- SNS_MEAS_STAT.sweep_busy (R296). -/
def F.SNS_MEAS_STAT_sweep_busy : Field := ⟨Reg.SNS_MEAS_STAT, 27, 1⟩
/-- SNS_MEAS_STAT.ow_node (R296). -/
def F.SNS_MEAS_STAT_ow_node : Field := ⟨Reg.SNS_MEAS_STAT, 16, 8⟩
/-- SNS_MEAS_STAT.ow_wire (R296). -/
def F.SNS_MEAS_STAT_ow_wire : Field := ⟨Reg.SNS_MEAS_STAT, 8, 8⟩
/-- SNS_SPEC_LEA.leas (R296). -/
def F.SNS_SPEC_LEA_leas : Field := ⟨Reg.SNS_SPEC_LEA, 0, 32⟩
/-- SNS_MEAS_IRQ_STAT.short_alarm (R296). -/
def F.SNS_MEAS_IRQ_STAT_short_alarm : Field := ⟨Reg.SNS_MEAS_IRQ_STAT, 4, 1⟩
/-- SNS_MEAS_IRQ_STAT.short_warn (R296). -/
def F.SNS_MEAS_IRQ_STAT_short_warn : Field := ⟨Reg.SNS_MEAS_IRQ_STAT, 3, 1⟩
/-- SNS_MEAS_IRQ_STAT.open_wire (R296). -/
def F.SNS_MEAS_IRQ_STAT_open_wire : Field := ⟨Reg.SNS_MEAS_IRQ_STAT, 2, 1⟩
/-- SNS_MEAS_IRQ_STAT.sweep_done (R296). -/
def F.SNS_MEAS_IRQ_STAT_sweep_done : Field := ⟨Reg.SNS_MEAS_IRQ_STAT, 1, 1⟩
/-- SNS_MEAS_IRQ_STAT.lea_done (R296). -/
def F.SNS_MEAS_IRQ_STAT_lea_done : Field := ⟨Reg.SNS_MEAS_IRQ_STAT, 0, 1⟩
/-- SNS_MEAS_IRQ_EN.en (R296). -/
def F.SNS_MEAS_IRQ_EN_en : Field := ⟨Reg.SNS_MEAS_IRQ_EN, 0, 5⟩
/-- SNS_OW_FAIL_k.open (R296). -/
def F.SNS_OW_FAIL_open (k : Nat) : Field := ⟨Reg.SNS_OW_FAIL k, 0, 32⟩
/-- SNS_SHORT_k.alarm (R296). -/
def F.SNS_SHORT_alarm (k : Nat) : Field := ⟨Reg.SNS_SHORT k, 0, 32⟩
/-- SNS_CNT_OW.count (R296). -/
def F.SNS_CNT_OW_count : Field := ⟨Reg.SNS_CNT_OW, 0, 32⟩
/-- SNS_CNT_NODE_REF.count (R296). -/
def F.SNS_CNT_NODE_REF_count : Field := ⟨Reg.SNS_CNT_NODE_REF, 0, 32⟩
/-- SNS_PROT_CTRL.can_dem_en (R321). -/
def F.SNS_PROT_CTRL_can_dem_en : Field := ⟨Reg.SNS_PROT_CTRL, 8, 1⟩
/-- SNS_PROT_CTRL.clr_cnt (R321). -/
def F.SNS_PROT_CTRL_clr_cnt : Field := ⟨Reg.SNS_PROT_CTRL, 4, 1⟩
/-- SNS_PROT_CTRL.clr_cause (R321). -/
def F.SNS_PROT_CTRL_clr_cause : Field := ⟨Reg.SNS_PROT_CTRL, 0, 1⟩
/-- SNS_PROT_STAT.rate_level (R321). -/
def F.SNS_PROT_STAT_rate_level : Field := ⟨Reg.SNS_PROT_STAT, 29, 3⟩
/-- SNS_PROT_STAT.demand (R321). -/
def F.SNS_PROT_STAT_demand : Field := ⟨Reg.SNS_PROT_STAT, 26, 3⟩
/-- SNS_PROT_STAT.escalated (R321). -/
def F.SNS_PROT_STAT_escalated : Field := ⟨Reg.SNS_PROT_STAT, 25, 1⟩
/-- SNS_PROT_STAT.hold (R321). -/
def F.SNS_PROT_STAT_hold : Field := ⟨Reg.SNS_PROT_STAT, 24, 1⟩
/-- SNS_PROT_STAT.stop_cause (R321). -/
def F.SNS_PROT_STAT_stop_cause : Field := ⟨Reg.SNS_PROT_STAT, 16, 8⟩
/-- SNS_PROT_STAT.cool_lost (R321). -/
def F.SNS_PROT_STAT_cool_lost : Field := ⟨Reg.SNS_PROT_STAT, 15, 1⟩
/-- SNS_PROT_STAT.own_warn (R321). -/
def F.SNS_PROT_STAT_own_warn : Field := ⟨Reg.SNS_PROT_STAT, 14, 1⟩
/-- SNS_PROT_TEMP.hottest (R321). -/
def F.SNS_PROT_TEMP_hottest : Field := ⟨Reg.SNS_PROT_TEMP, 16, 16⟩
/-- SNS_PROT_TEMP.coldest (R321). -/
def F.SNS_PROT_TEMP_coldest : Field := ⟨Reg.SNS_PROT_TEMP, 0, 16⟩
/-- SNS_PROT_POS.rate (R321). -/
def F.SNS_PROT_POS_rate : Field := ⟨Reg.SNS_PROT_POS, 16, 16⟩
/-- SNS_PROT_POS.hot_pos (R321). -/
def F.SNS_PROT_POS_hot_pos : Field := ⟨Reg.SNS_PROT_POS, 8, 8⟩
/-- SNS_PROT_POS.cold_pos (R321). -/
def F.SNS_PROT_POS_cold_pos : Field := ⟨Reg.SNS_PROT_POS, 0, 8⟩
/-- SNS_PROT_LIM.i_dis (R321). -/
def F.SNS_PROT_LIM_i_dis : Field := ⟨Reg.SNS_PROT_LIM, 16, 16⟩
/-- SNS_PROT_LIM.i_chg (R321). -/
def F.SNS_PROT_LIM_i_chg : Field := ⟨Reg.SNS_PROT_LIM, 0, 16⟩
/-- SNS_PROT_VCELL.v_hi (R321). -/
def F.SNS_PROT_VCELL_v_hi : Field := ⟨Reg.SNS_PROT_VCELL, 16, 16⟩
/-- SNS_PROT_VCELL.v_lo (R321). -/
def F.SNS_PROT_VCELL_v_lo : Field := ⟨Reg.SNS_PROT_VCELL, 0, 16⟩
/-- SNS_MOD_TEMP.baseplate (R321). -/
def F.SNS_MOD_TEMP_baseplate : Field := ⟨Reg.SNS_MOD_TEMP, 16, 16⟩
/-- SNS_MOD_TEMP.die (R321). -/
def F.SNS_MOD_TEMP_die : Field := ⟨Reg.SNS_MOD_TEMP, 0, 16⟩
/-- SNS_PROT_IRQ_STAT.stop (R321). -/
def F.SNS_PROT_IRQ_STAT_stop : Field := ⟨Reg.SNS_PROT_IRQ_STAT, 7, 1⟩
/-- SNS_PROT_IRQ_STAT.level_up (R321). -/
def F.SNS_PROT_IRQ_STAT_level_up : Field := ⟨Reg.SNS_PROT_IRQ_STAT, 6, 1⟩
/-- SNS_PROT_IRQ_STAT.level_down (R321). -/
def F.SNS_PROT_IRQ_STAT_level_down : Field := ⟨Reg.SNS_PROT_IRQ_STAT, 5, 1⟩
/-- SNS_PROT_IRQ_STAT.sensor_fail (R321). -/
def F.SNS_PROT_IRQ_STAT_sensor_fail : Field := ⟨Reg.SNS_PROT_IRQ_STAT, 4, 1⟩
/-- SNS_PROT_IRQ_STAT.temp_lost (R321). -/
def F.SNS_PROT_IRQ_STAT_temp_lost : Field := ⟨Reg.SNS_PROT_IRQ_STAT, 3, 1⟩
/-- SNS_PROT_IRQ_STAT.cool_lost (R321). -/
def F.SNS_PROT_IRQ_STAT_cool_lost : Field := ⟨Reg.SNS_PROT_IRQ_STAT, 2, 1⟩
/-- SNS_PROT_IRQ_STAT.own_warn (R321). -/
def F.SNS_PROT_IRQ_STAT_own_warn : Field := ⟨Reg.SNS_PROT_IRQ_STAT, 1, 1⟩
/-- SNS_PROT_IRQ_STAT.backstop (R321). -/
def F.SNS_PROT_IRQ_STAT_backstop : Field := ⟨Reg.SNS_PROT_IRQ_STAT, 0, 1⟩
/-- SNS_PROT_IRQ_EN.en (R321). -/
def F.SNS_PROT_IRQ_EN_en : Field := ⟨Reg.SNS_PROT_IRQ_EN, 0, 8⟩
/-- SNS_TSENS_FAIL_k.fail (R321). -/
def F.SNS_TSENS_FAIL_fail (k : Nat) : Field := ⟨Reg.SNS_TSENS_FAIL k, 0, 32⟩
/-- SNS_TLOST_k.lost (R321). -/
def F.SNS_TLOST_lost (k : Nat) : Field := ⟨Reg.SNS_TLOST k, 0, 32⟩
/-- SNS_CNT_PSTOP.count (R321). -/
def F.SNS_CNT_PSTOP_count : Field := ⟨Reg.SNS_CNT_PSTOP, 0, 32⟩
/-- SNS_CNT_SUBST.count (R321). -/
def F.SNS_CNT_SUBST_count : Field := ⟨Reg.SNS_CNT_SUBST, 0, 32⟩
/-- SNS_CNT_DEMAND.count (R321). -/
def F.SNS_CNT_DEMAND_count : Field := ⟨Reg.SNS_CNT_DEMAND, 0, 32⟩
/-- SAF_STAT.run_permit (R347). -/
def F.SAF_STAT_run_permit : Field := ⟨Reg.SAF_STAT, 31, 1⟩
/-- SAF_STAT.close_permit (R347). -/
def F.SAF_STAT_close_permit : Field := ⟨Reg.SAF_STAT, 30, 1⟩
/-- SAF_STAT.door_test (R347). -/
def F.SAF_STAT_door_test : Field := ⟨Reg.SAF_STAT, 29, 1⟩
/-- SAF_STAT.latched (R347). -/
def F.SAF_STAT_latched : Field := ⟨Reg.SAF_STAT, 28, 1⟩
/-- SAF_STAT.stop_demand (R347). -/
def F.SAF_STAT_stop_demand : Field := ⟨Reg.SAF_STAT, 27, 1⟩
/-- SAF_STAT.trip_hs (R347). -/
def F.SAF_STAT_trip_hs : Field := ⟨Reg.SAF_STAT, 26, 1⟩
/-- SAF_STAT.trip_ls (R347). -/
def F.SAF_STAT_trip_ls : Field := ⟨Reg.SAF_STAT, 25, 1⟩
/-- SAF_STAT.brk_closed (R347). -/
def F.SAF_STAT_brk_closed : Field := ⟨Reg.SAF_STAT, 24, 1⟩
/-- SAF_STAT.link_ok (R347). -/
def F.SAF_STAT_link_ok : Field := ⟨Reg.SAF_STAT, 23, 1⟩
/-- SAF_STAT.param_ok (R347). -/
def F.SAF_STAT_param_ok : Field := ⟨Reg.SAF_STAT, 22, 1⟩
/-- SAF_STAT.coil_ok (R347). -/
def F.SAF_STAT_coil_ok : Field := ⟨Reg.SAF_STAT, 21, 1⟩
/-- SAF_STAT.loop_supply_ok (R347). -/
def F.SAF_STAT_loop_supply_ok : Field := ⟨Reg.SAF_STAT, 20, 1⟩
/-- SAF_STAT.loop_open_own (R347). -/
def F.SAF_STAT_loop_open_own : Field := ⟨Reg.SAF_STAT, 19, 1⟩
/-- SAF_STAT.floop_mode (R347). -/
def F.SAF_STAT_floop_mode : Field := ⟨Reg.SAF_STAT, 17, 2⟩
/-- SAF_STAT.reset_armed (R347). -/
def F.SAF_STAT_reset_armed : Field := ⟨Reg.SAF_STAT, 16, 1⟩
/-- SAF_INPUT.floop_i (R347). -/
def F.SAF_INPUT_floop_i : Field := ⟨Reg.SAF_INPUT, 24, 8⟩
/-- SAF_INPUT.hvil_i (R347). -/
def F.SAF_INPUT_hvil_i : Field := ⟨Reg.SAF_INPUT, 16, 8⟩
/-- SAF_INPUT.brk_aux_b (R347). -/
def F.SAF_INPUT_brk_aux_b : Field := ⟨Reg.SAF_INPUT, 9, 1⟩
/-- SAF_INPUT.brk_aux_a (R347). -/
def F.SAF_INPUT_brk_aux_a : Field := ⟨Reg.SAF_INPUT, 8, 1⟩
/-- SAF_INPUT.hvil (R347). -/
def F.SAF_INPUT_hvil : Field := ⟨Reg.SAF_INPUT, 7, 1⟩
/-- SAF_INPUT.floop (R347). -/
def F.SAF_INPUT_floop : Field := ⟨Reg.SAF_INPUT, 6, 1⟩
/-- SAF_INPUT.estop_b (R347). -/
def F.SAF_INPUT_estop_b : Field := ⟨Reg.SAF_INPUT, 5, 1⟩
/-- SAF_INPUT.estop_a (R347). -/
def F.SAF_INPUT_estop_a : Field := ⟨Reg.SAF_INPUT, 4, 1⟩
/-- SAF_INPUT.door_b (R347). -/
def F.SAF_INPUT_door_b : Field := ⟨Reg.SAF_INPUT, 3, 1⟩
/-- SAF_INPUT.door_a (R347). -/
def F.SAF_INPUT_door_a : Field := ⟨Reg.SAF_INPUT, 2, 1⟩
/-- SAF_CAUSE.first (R347). -/
def F.SAF_CAUSE_first : Field := ⟨Reg.SAF_CAUSE, 24, 8⟩
/-- SAF_CAUSE.latest (R347). -/
def F.SAF_CAUSE_latest : Field := ⟨Reg.SAF_CAUSE, 16, 8⟩
/-- SAF_CAUSE.count (R347). -/
def F.SAF_CAUSE_count : Field := ⟨Reg.SAF_CAUSE, 0, 16⟩
/-- SAF_FAULT.param (R347). -/
def F.SAF_FAULT_param : Field := ⟨Reg.SAF_FAULT, 13, 1⟩
/-- SAF_FAULT.loop_supply (R347). -/
def F.SAF_FAULT_loop_supply : Field := ⟨Reg.SAF_FAULT, 12, 1⟩
/-- SAF_FAULT.clock (R347). -/
def F.SAF_FAULT_clock : Field := ⟨Reg.SAF_FAULT, 11, 1⟩
/-- SAF_FAULT.link (R347). -/
def F.SAF_FAULT_link : Field := ⟨Reg.SAF_FAULT, 10, 1⟩
/-- SAF_FAULT.tel_mismatch (R347). -/
def F.SAF_FAULT_tel_mismatch : Field := ⟨Reg.SAF_FAULT, 9, 1⟩
/-- SAF_FAULT.test_disc (R347). -/
def F.SAF_FAULT_test_disc : Field := ⟨Reg.SAF_FAULT, 8, 1⟩
/-- SAF_FAULT.test_close (R347). -/
def F.SAF_FAULT_test_close : Field := ⟨Reg.SAF_FAULT, 7, 1⟩
/-- SAF_FAULT.test_trip (R347). -/
def F.SAF_FAULT_test_trip : Field := ⟨Reg.SAF_FAULT, 6, 1⟩
/-- SAF_FAULT.xs_estop (R347). -/
def F.SAF_FAULT_xs_estop : Field := ⟨Reg.SAF_FAULT, 5, 1⟩
/-- SAF_FAULT.xs_door (R347). -/
def F.SAF_FAULT_xs_door : Field := ⟨Reg.SAF_FAULT, 4, 1⟩
/-- SAF_FAULT.disc_brk_aux (R347). -/
def F.SAF_FAULT_disc_brk_aux : Field := ⟨Reg.SAF_FAULT, 3, 1⟩
/-- SAF_FAULT.disc_estop (R347). -/
def F.SAF_FAULT_disc_estop : Field := ⟨Reg.SAF_FAULT, 2, 1⟩
/-- SAF_FAULT.disc_door (R347). -/
def F.SAF_FAULT_disc_door : Field := ⟨Reg.SAF_FAULT, 1, 1⟩
/-- SAF_FAULT.coil_rail (R347). -/
def F.SAF_FAULT_coil_rail : Field := ⟨Reg.SAF_FAULT, 0, 1⟩
/-- SAF_TEL_STAT.trip_pending (R347). -/
def F.SAF_TEL_STAT_trip_pending : Field := ⟨Reg.SAF_TEL_STAT, 3, 1⟩
/-- SAF_TEL_STAT.can_lost (R347). -/
def F.SAF_TEL_STAT_can_lost : Field := ⟨Reg.SAF_TEL_STAT, 2, 1⟩
/-- SAF_TEL_STAT.eth_lost (R347). -/
def F.SAF_TEL_STAT_eth_lost : Field := ⟨Reg.SAF_TEL_STAT, 1, 1⟩
/-- SAF_TEL_STAT.confirmed (R347). -/
def F.SAF_TEL_STAT_confirmed : Field := ⟨Reg.SAF_TEL_STAT, 0, 1⟩
/-- SAF_TEL_SEQ.seq (R347). -/
def F.SAF_TEL_SEQ_seq : Field := ⟨Reg.SAF_TEL_SEQ, 0, 32⟩
/-- SAF_CNT_TEL_BAD.count (R347). -/
def F.SAF_CNT_TEL_BAD_count : Field := ⟨Reg.SAF_CNT_TEL_BAD, 0, 32⟩
/-- SAF_CNT_TEL_LATE.count (R347). -/
def F.SAF_CNT_TEL_LATE_count : Field := ⟨Reg.SAF_CNT_TEL_LATE, 0, 32⟩
/-- SAF_CNT_TEL_GAP.count (R347). -/
def F.SAF_CNT_TEL_GAP_count : Field := ⟨Reg.SAF_CNT_TEL_GAP, 0, 32⟩
/-- SAF_CNT_TEST_DISC.count (R347). -/
def F.SAF_CNT_TEST_DISC_count : Field := ⟨Reg.SAF_CNT_TEST_DISC, 0, 32⟩
/-- SAF_PARAM_CRC.crc_a (R347). -/
def F.SAF_PARAM_CRC_crc_a : Field := ⟨Reg.SAF_PARAM_CRC, 0, 32⟩
/-- SAF_PARAM_CRC_B.crc_b (R347). -/
def F.SAF_PARAM_CRC_B_crc_b : Field := ⟨Reg.SAF_PARAM_CRC_B, 0, 32⟩
/-- SAF_KEY.key (R347). -/
def F.SAF_KEY_key : Field := ⟨Reg.SAF_KEY, 0, 32⟩
/-- SAF_KEY_STAT.master (R347). -/
def F.SAF_KEY_STAT_master : Field := ⟨Reg.SAF_KEY_STAT, 8, 4⟩
/-- SAF_KEY_STAT.result (R347). -/
def F.SAF_KEY_STAT_result : Field := ⟨Reg.SAF_KEY_STAT, 0, 2⟩
/-- SAF_IRQ_STAT.path_lost (R347). -/
def F.SAF_IRQ_STAT_path_lost : Field := ⟨Reg.SAF_IRQ_STAT, 5, 1⟩
/-- SAF_IRQ_STAT.key_abort (R347). -/
def F.SAF_IRQ_STAT_key_abort : Field := ⟨Reg.SAF_IRQ_STAT, 4, 1⟩
/-- SAF_IRQ_STAT.permit_on (R347). -/
def F.SAF_IRQ_STAT_permit_on : Field := ⟨Reg.SAF_IRQ_STAT, 3, 1⟩
/-- SAF_IRQ_STAT.permit_off (R347). -/
def F.SAF_IRQ_STAT_permit_off : Field := ⟨Reg.SAF_IRQ_STAT, 2, 1⟩
/-- SAF_IRQ_STAT.fault (R347). -/
def F.SAF_IRQ_STAT_fault : Field := ⟨Reg.SAF_IRQ_STAT, 1, 1⟩
/-- SAF_IRQ_STAT.demand (R347). -/
def F.SAF_IRQ_STAT_demand : Field := ⟨Reg.SAF_IRQ_STAT, 0, 1⟩
/-- SAF_IRQ_EN.en (R347). -/
def F.SAF_IRQ_EN_en : Field := ⟨Reg.SAF_IRQ_EN, 0, 6⟩
/-- SAF_PARAM_n.word (R347). -/
def F.SAF_PARAM_word (n : Nat) : Field := ⟨Reg.SAF_PARAM n, 0, 32⟩
/-- XL_CFG.settle (R364). -/
def F.XL_CFG_settle : Field := ⟨Reg.XL_CFG, 24, 8⟩
/-- XL_CFG.resync_auto (R364). -/
def F.XL_CFG_resync_auto : Field := ⟨Reg.XL_CFG, 1, 1⟩
/-- XL_CFG.pair_en (R364). -/
def F.XL_CFG_pair_en : Field := ⟨Reg.XL_CFG, 0, 1⟩
/-- XL_CTRL.clr_cnt (R364). -/
def F.XL_CTRL_clr_cnt : Field := ⟨Reg.XL_CTRL, 2, 1⟩
/-- XL_CTRL.resync (R364). -/
def F.XL_CTRL_resync : Field := ⟨Reg.XL_CTRL, 1, 1⟩
/-- XL_CTRL.handover (R364). -/
def F.XL_CTRL_handover : Field := ⟨Reg.XL_CTRL, 0, 1⟩
/-- XL_STAT.partner_slot (R364). -/
def F.XL_STAT_partner_slot : Field := ⟨Reg.XL_STAT, 24, 8⟩
/-- XL_STAT.partner_run (R364). -/
def F.XL_STAT_partner_run : Field := ⟨Reg.XL_STAT, 21, 3⟩
/-- XL_STAT.partner_role (R364). -/
def F.XL_STAT_partner_role : Field := ⟨Reg.XL_STAT, 19, 2⟩
/-- XL_STAT.partner_ready (R364). -/
def F.XL_STAT_partner_ready : Field := ⟨Reg.XL_STAT, 18, 1⟩
/-- XL_STAT.resync_busy (R364). -/
def F.XL_STAT_resync_busy : Field := ⟨Reg.XL_STAT, 11, 1⟩
/-- XL_STAT.selftest_busy (R364). -/
def F.XL_STAT_selftest_busy : Field := ⟨Reg.XL_STAT, 10, 1⟩
/-- XL_STAT.relay (R364). -/
def F.XL_STAT_relay : Field := ⟨Reg.XL_STAT, 9, 1⟩
/-- XL_STAT.ready (R364). -/
def F.XL_STAT_ready : Field := ⟨Reg.XL_STAT, 8, 1⟩
/-- XL_STAT.lease_ok (R364). -/
def F.XL_STAT_lease_ok : Field := ⟨Reg.XL_STAT, 7, 1⟩
/-- XL_STAT.link_ok (R364). -/
def F.XL_STAT_link_ok : Field := ⟨Reg.XL_STAT, 6, 1⟩
/-- XL_STAT.claim_in (R364). -/
def F.XL_STAT_claim_in : Field := ⟨Reg.XL_STAT, 5, 1⟩
/-- XL_STAT.claim_out (R364). -/
def F.XL_STAT_claim_out : Field := ⟨Reg.XL_STAT, 4, 1⟩
/-- XL_STAT.div (R364). -/
def F.XL_STAT_div : Field := ⟨Reg.XL_STAT, 2, 2⟩
/-- XL_SWITCH.cause (R364). -/
def F.XL_SWITCH_cause : Field := ⟨Reg.XL_SWITCH, 24, 8⟩
/-- XL_SWITCH.trigger (R364). -/
def F.XL_SWITCH_trigger : Field := ⟨Reg.XL_SWITCH, 16, 2⟩
/-- XL_SWITCH.gap (R364). -/
def F.XL_SWITCH_gap : Field := ⟨Reg.XL_SWITCH, 0, 16⟩
/-- XL_SWITCH_CYC.cycle (R364). -/
def F.XL_SWITCH_CYC_cycle : Field := ⟨Reg.XL_SWITCH_CYC, 0, 32⟩
/-- XL_DIV_CYC.cycle (R364). -/
def F.XL_DIV_CYC_cycle : Field := ⟨Reg.XL_DIV_CYC, 0, 32⟩
/-- XL_IRQ_STAT.alarm (R364). -/
def F.XL_IRQ_STAT_alarm : Field := ⟨Reg.XL_IRQ_STAT, 7, 1⟩
/-- XL_IRQ_STAT.claim_fault (R364). -/
def F.XL_IRQ_STAT_claim_fault : Field := ⟨Reg.XL_IRQ_STAT, 6, 1⟩
/-- XL_IRQ_STAT.resync_fail (R364). -/
def F.XL_IRQ_STAT_resync_fail : Field := ⟨Reg.XL_IRQ_STAT, 5, 1⟩
/-- XL_IRQ_STAT.resync_done (R364). -/
def F.XL_IRQ_STAT_resync_done : Field := ⟨Reg.XL_IRQ_STAT, 4, 1⟩
/-- XL_IRQ_STAT.divergence (R364). -/
def F.XL_IRQ_STAT_divergence : Field := ⟨Reg.XL_IRQ_STAT, 3, 1⟩
/-- XL_IRQ_STAT.partner_lost (R364). -/
def F.XL_IRQ_STAT_partner_lost : Field := ⟨Reg.XL_IRQ_STAT, 2, 1⟩
/-- XL_IRQ_STAT.ready_change (R364). -/
def F.XL_IRQ_STAT_ready_change : Field := ⟨Reg.XL_IRQ_STAT, 1, 1⟩
/-- XL_IRQ_STAT.switchover (R364). -/
def F.XL_IRQ_STAT_switchover : Field := ⟨Reg.XL_IRQ_STAT, 0, 1⟩
/-- XL_IRQ_EN.en (R364). -/
def F.XL_IRQ_EN_en : Field := ⟨Reg.XL_IRQ_EN, 0, 8⟩
/-- XL_CNT_DIV_IN.count (R364). -/
def F.XL_CNT_DIV_IN_count : Field := ⟨Reg.XL_CNT_DIV_IN, 0, 32⟩
/-- XL_CNT_DIV_OUT.count (R364). -/
def F.XL_CNT_DIV_OUT_count : Field := ⟨Reg.XL_CNT_DIV_OUT, 0, 32⟩
/-- XL_CNT_DIV_STATE.count (R364). -/
def F.XL_CNT_DIV_STATE_count : Field := ⟨Reg.XL_CNT_DIV_STATE, 0, 32⟩
/-- XL_CNT_CMD_MISM.count (R364). -/
def F.XL_CNT_CMD_MISM_count : Field := ⟨Reg.XL_CNT_CMD_MISM, 0, 32⟩
/-- XL_CNT_MIRROR_NACK.count (R364). -/
def F.XL_CNT_MIRROR_NACK_count : Field := ⟨Reg.XL_CNT_MIRROR_NACK, 0, 32⟩
/-- XL_CNT_RELAY_LATE.count (R364). -/
def F.XL_CNT_RELAY_LATE_count : Field := ⟨Reg.XL_CNT_RELAY_LATE, 0, 32⟩
/-- XL_CNT_SWITCH.count (R364). -/
def F.XL_CNT_SWITCH_count : Field := ⟨Reg.XL_CNT_SWITCH, 0, 32⟩
/-- XL_CNT_RESYNC.count (R364). -/
def F.XL_CNT_RESYNC_count : Field := ⟨Reg.XL_CNT_RESYNC, 0, 32⟩
/-- XL_CNT_LINK_ERR.count (R364). -/
def F.XL_CNT_LINK_ERR_count : Field := ⟨Reg.XL_CNT_LINK_ERR, 0, 32⟩
/-- TB_CTRL.pps_mode (R383). -/
def F.TB_CTRL_pps_mode : Field := ⟨Reg.TB_CTRL, 6, 2⟩
/-- TB_CTRL.clr_cnt (R383). -/
def F.TB_CTRL_clr_cnt : Field := ⟨Reg.TB_CTRL, 5, 1⟩
/-- TB_CTRL.src (R383). -/
def F.TB_CTRL_src : Field := ⟨Reg.TB_CTRL, 0, 2⟩
/-- TB_STAT.src_in_use (R383). -/
def F.TB_STAT_src_in_use : Field := ⟨Reg.TB_STAT, 5, 3⟩
/-- TB_STAT.synced (R383). -/
def F.TB_STAT_synced : Field := ⟨Reg.TB_STAT, 4, 1⟩
/-- TB_STAT.state (R383). -/
def F.TB_STAT_state : Field := ⟨Reg.TB_STAT, 0, 3⟩
/-- TB_TIME_NS.ns (R383). -/
def F.TB_TIME_NS_ns : Field := ⟨Reg.TB_TIME_NS, 0, 30⟩
/-- TB_TIME_SEC_LO.sec_lo (R383). -/
def F.TB_TIME_SEC_LO_sec_lo : Field := ⟨Reg.TB_TIME_SEC_LO, 0, 32⟩
/-- TB_TIME_SEC_HI.sec_hi (R383). -/
def F.TB_TIME_SEC_HI_sec_hi : Field := ⟨Reg.TB_TIME_SEC_HI, 0, 32⟩
/-- TB_TIME_FRAC.frac (R383). -/
def F.TB_TIME_FRAC_frac : Field := ⟨Reg.TB_TIME_FRAC, 0, 32⟩
/-- TB_INCR_FRAC.frac (R383). -/
def F.TB_INCR_FRAC_frac : Field := ⟨Reg.TB_INCR_FRAC, 0, 32⟩
/-- TB_INCR_NS.ns (R383). -/
def F.TB_INCR_NS_ns : Field := ⟨Reg.TB_INCR_NS, 0, 8⟩
/-- TB_ADJ_SEC_LO.sec (R383). -/
def F.TB_ADJ_SEC_LO_sec : Field := ⟨Reg.TB_ADJ_SEC_LO, 0, 32⟩
/-- TB_ADJ_SEC_HI.sec (R383). -/
def F.TB_ADJ_SEC_HI_sec : Field := ⟨Reg.TB_ADJ_SEC_HI, 0, 32⟩
/-- TB_ADJ_NS.abs (R383). -/
def F.TB_ADJ_NS_abs : Field := ⟨Reg.TB_ADJ_NS, 31, 1⟩
/-- TB_ADJ_NS.neg (R383). -/
def F.TB_ADJ_NS_neg : Field := ⟨Reg.TB_ADJ_NS, 30, 1⟩
/-- TB_ADJ_NS.ns (R383). -/
def F.TB_ADJ_NS_ns : Field := ⟨Reg.TB_ADJ_NS, 0, 30⟩
/-- TB_OFFSET.ofs (R383). -/
def F.TB_OFFSET_ofs : Field := ⟨Reg.TB_OFFSET, 0, 32⟩
/-- TB_PAIR_OFS.theta (R383). -/
def F.TB_PAIR_OFS_theta : Field := ⟨Reg.TB_PAIR_OFS, 0, 32⟩
/-- TB_XL_DELAY.d_x (R383). -/
def F.TB_XL_DELAY_d_x : Field := ⟨Reg.TB_XL_DELAY, 0, 16⟩
/-- TB_SYNC_CFG.lock_limit (R383). -/
def F.TB_SYNC_CFG_lock_limit : Field := ⟨Reg.TB_SYNC_CFG, 24, 8⟩
/-- TB_SYNC_CFG.holdover_max (R383). -/
def F.TB_SYNC_CFG_holdover_max : Field := ⟨Reg.TB_SYNC_CFG, 16, 8⟩
/-- TB_SYNC_CFG.sync_limit (R383). -/
def F.TB_SYNC_CFG_sync_limit : Field := ⟨Reg.TB_SYNC_CFG, 0, 16⟩
/-- TB_PULSE.trig_width (R383). -/
def F.TB_PULSE_trig_width : Field := ⟨Reg.TB_PULSE, 16, 16⟩
/-- TB_PULSE.pps_width (R383). -/
def F.TB_PULSE_pps_width : Field := ⟨Reg.TB_PULSE, 0, 9⟩
/-- TB_IRQ_STAT.cap (R383). -/
def F.TB_IRQ_STAT_cap : Field := ⟨Reg.TB_IRQ_STAT, 5, 1⟩
/-- TB_IRQ_STAT.cmp (R383). -/
def F.TB_IRQ_STAT_cmp : Field := ⟨Reg.TB_IRQ_STAT, 4, 1⟩
/-- TB_IRQ_STAT.step (R383). -/
def F.TB_IRQ_STAT_step : Field := ⟨Reg.TB_IRQ_STAT, 3, 1⟩
/-- TB_IRQ_STAT.sync_lost (R383). -/
def F.TB_IRQ_STAT_sync_lost : Field := ⟨Reg.TB_IRQ_STAT, 2, 1⟩
/-- TB_IRQ_STAT.sync_gained (R383). -/
def F.TB_IRQ_STAT_sync_gained : Field := ⟨Reg.TB_IRQ_STAT, 1, 1⟩
/-- TB_IRQ_STAT.state_change (R383). -/
def F.TB_IRQ_STAT_state_change : Field := ⟨Reg.TB_IRQ_STAT, 0, 1⟩
/-- TB_IRQ_EN.en (R383). -/
def F.TB_IRQ_EN_en : Field := ⟨Reg.TB_IRQ_EN, 0, 6⟩
/-- TB_CMP_HIT.hit (R383). -/
def F.TB_CMP_HIT_hit : Field := ⟨Reg.TB_CMP_HIT, 0, 16⟩
/-- TB_CNT_STEP.count (R383). -/
def F.TB_CNT_STEP_count : Field := ⟨Reg.TB_CNT_STEP, 0, 32⟩
/-- TB_CNT_SKIP.count (R383). -/
def F.TB_CNT_SKIP_count : Field := ⟨Reg.TB_CNT_SKIP, 0, 32⟩
/-- TB_CNT_CAP_OVR.count (R383). -/
def F.TB_CNT_CAP_OVR_count : Field := ⟨Reg.TB_CNT_CAP_OVR, 0, 32⟩
/-- TB_CNT_PPS_REJ.count (R383). -/
def F.TB_CNT_PPS_REJ_count : Field := ⟨Reg.TB_CNT_PPS_REJ, 0, 32⟩
/-- TB_CMP_CTRL_c.periodic (R383). -/
def F.TB_CMP_CTRL_periodic (c : Nat) : Field := ⟨Reg.TB_CMP_CTRL c, 1, 1⟩
/-- TB_CMP_CTRL_c.en (R383). -/
def F.TB_CMP_CTRL_en (c : Nat) : Field := ⟨Reg.TB_CMP_CTRL c, 0, 1⟩
/-- TB_CMP_SEC_c.sec (R383). -/
def F.TB_CMP_SEC_sec (c : Nat) : Field := ⟨Reg.TB_CMP_SEC c, 0, 32⟩
/-- TB_CMP_NS_c.ns (R383). -/
def F.TB_CMP_NS_ns (c : Nat) : Field := ⟨Reg.TB_CMP_NS c, 0, 30⟩
/-- TB_CMP_PER_c.period (R383). -/
def F.TB_CMP_PER_period (c : Nat) : Field := ⟨Reg.TB_CMP_PER c, 0, 32⟩
/-- TB_CAP_CTRL_u.step (R383). -/
def F.TB_CAP_CTRL_step (u : Nat) : Field := ⟨Reg.TB_CAP_CTRL u, 8, 1⟩
/-- TB_CAP_CTRL_u.ovr (R383). -/
def F.TB_CAP_CTRL_ovr (u : Nat) : Field := ⟨Reg.TB_CAP_CTRL u, 7, 1⟩
/-- TB_CAP_CTRL_u.full (R383). -/
def F.TB_CAP_CTRL_full (u : Nat) : Field := ⟨Reg.TB_CAP_CTRL u, 6, 1⟩
/-- TB_CAP_CTRL_u.src (R383). -/
def F.TB_CAP_CTRL_src (u : Nat) : Field := ⟨Reg.TB_CAP_CTRL u, 0, 4⟩
/-- TB_CAP_SEC_u.sec (R383). -/
def F.TB_CAP_SEC_sec (u : Nat) : Field := ⟨Reg.TB_CAP_SEC u, 0, 32⟩
/-- TB_CAP_NS_u.ns (R383). -/
def F.TB_CAP_NS_ns (u : Nat) : Field := ⟨Reg.TB_CAP_NS u, 0, 30⟩
/-- ETH_PTP_CFG.domain (R384). -/
def F.ETH_PTP_CFG_domain : Field := ⟨Reg.ETH_PTP_CFG, 8, 8⟩
/-- ETH_PTP_CFG.tc_en (R384). -/
def F.ETH_PTP_CFG_tc_en : Field := ⟨Reg.ETH_PTP_CFG, 3, 1⟩
/-- ETH_PTP_CFG.oc_en (R384). -/
def F.ETH_PTP_CFG_oc_en : Field := ⟨Reg.ETH_PTP_CFG, 2, 1⟩
/-- ETH_PTP_CFG.mapping (R384). -/
def F.ETH_PTP_CFG_mapping : Field := ⟨Reg.ETH_PTP_CFG, 0, 2⟩
/-- ETH_PTP_STAT.log_sync (R384). -/
def F.ETH_PTP_STAT_log_sync : Field := ⟨Reg.ETH_PTP_STAT, 16, 8⟩
/-- ETH_PTP_STAT.master_sel (R384). -/
def F.ETH_PTP_STAT_master_sel : Field := ⟨Reg.ETH_PTP_STAT, 2, 1⟩
/-- ETH_PTP_STAT.port2_ok (R384). -/
def F.ETH_PTP_STAT_port2_ok : Field := ⟨Reg.ETH_PTP_STAT, 1, 1⟩
/-- ETH_PTP_STAT.port1_ok (R384). -/
def F.ETH_PTP_STAT_port1_ok : Field := ⟨Reg.ETH_PTP_STAT, 0, 1⟩
/-- ETH_PTP_GM_LO.id_lo (R384). -/
def F.ETH_PTP_GM_LO_id_lo : Field := ⟨Reg.ETH_PTP_GM_LO, 0, 32⟩
/-- ETH_PTP_GM_HI.id_hi (R384). -/
def F.ETH_PTP_GM_HI_id_hi : Field := ⟨Reg.ETH_PTP_GM_HI, 0, 32⟩
/-- ETH_PTP_PATH_1.d_1 (R384). -/
def F.ETH_PTP_PATH_1_d_1 : Field := ⟨Reg.ETH_PTP_PATH_1, 0, 32⟩
/-- ETH_PTP_PATH_2.d_2 (R384). -/
def F.ETH_PTP_PATH_2_d_2 : Field := ⟨Reg.ETH_PTP_PATH_2, 0, 32⟩
/-- ETH_PTP_OFS.ofs (R384). -/
def F.ETH_PTP_OFS_ofs : Field := ⟨Reg.ETH_PTP_OFS, 0, 32⟩
/-- ETH_PTP_CNT_SYNC.count (R384). -/
def F.ETH_PTP_CNT_SYNC_count : Field := ⟨Reg.ETH_PTP_CNT_SYNC, 0, 32⟩
/-- ETH_PTP_CNT_DREQ.count (R384). -/
def F.ETH_PTP_CNT_DREQ_count : Field := ⟨Reg.ETH_PTP_CNT_DREQ, 0, 32⟩
/-- ETH_PTP_CNT_BAD.count (R384). -/
def F.ETH_PTP_CNT_BAD_count : Field := ⟨Reg.ETH_PTP_CNT_BAD, 0, 32⟩
/-- ETH_PTP_CNT_TC.count (R384). -/
def F.ETH_PTP_CNT_TC_count : Field := ⟨Reg.ETH_PTP_CNT_TC, 0, 32⟩
/-- ETH_CTRL.clr_cnt (R418). -/
def F.ETH_CTRL_clr_cnt : Field := ⟨Reg.ETH_CTRL, 0, 1⟩
/-- ETH_STAT.addr_conflict (R418). -/
def F.ETH_STAT_addr_conflict : Field := ⟨Reg.ETH_STAT, 0, 1⟩
/-- ETH_PORT_STAT_p.babble (R418). -/
def F.ETH_PORT_STAT_babble (p : Nat) : Field := ⟨Reg.ETH_PORT_STAT p, 5, 1⟩
/-- ETH_PORT_STAT_p.fault (R418). -/
def F.ETH_PORT_STAT_fault (p : Nat) : Field := ⟨Reg.ETH_PORT_STAT p, 4, 1⟩
/-- ETH_PORT_STAT_p.speed (R418). -/
def F.ETH_PORT_STAT_speed (p : Nat) : Field := ⟨Reg.ETH_PORT_STAT p, 2, 2⟩
/-- ETH_PORT_STAT_p.unsupported (R418). -/
def F.ETH_PORT_STAT_unsupported (p : Nat) : Field := ⟨Reg.ETH_PORT_STAT p, 1, 1⟩
/-- ETH_PORT_STAT_p.link (R418). -/
def F.ETH_PORT_STAT_link (p : Nat) : Field := ⟨Reg.ETH_PORT_STAT p, 0, 1⟩
/-- ETH_MAC_LO.mac_lo (R418). -/
def F.ETH_MAC_LO_mac_lo : Field := ⟨Reg.ETH_MAC_LO, 0, 32⟩
/-- ETH_MAC_HI.mac_hi (R418). -/
def F.ETH_MAC_HI_mac_hi : Field := ⟨Reg.ETH_MAC_HI, 0, 16⟩
/-- ETH_IP_NET.net (R418). -/
def F.ETH_IP_NET_net : Field := ⟨Reg.ETH_IP_NET, 0, 32⟩
/-- ETH_IP_CFG.udp_port (R418). -/
def F.ETH_IP_CFG_udp_port : Field := ⟨Reg.ETH_IP_CFG, 16, 16⟩
/-- ETH_IP_CFG.prefix (R418). -/
def F.ETH_IP_CFG_prefix : Field := ⟨Reg.ETH_IP_CFG, 0, 5⟩
/-- ETH_IP_ADDR.addr (R418). -/
def F.ETH_IP_ADDR_addr : Field := ⟨Reg.ETH_IP_ADDR, 0, 32⟩
/-- ETH_HSR_CFG.net_id (R418). -/
def F.ETH_HSR_CFG_net_id : Field := ⟨Reg.ETH_HSR_CFG, 0, 3⟩
/-- ETH_POLICE_CFG.fwd_rate (R418). -/
def F.ETH_POLICE_CFG_fwd_rate : Field := ⟨Reg.ETH_POLICE_CFG, 24, 8⟩
/-- ETH_POLICE_CFG.own_rate (R418). -/
def F.ETH_POLICE_CFG_own_rate : Field := ⟨Reg.ETH_POLICE_CFG, 16, 8⟩
/-- ETH_POLICE_CFG.grp_rate (R418). -/
def F.ETH_POLICE_CFG_grp_rate : Field := ⟨Reg.ETH_POLICE_CFG, 8, 8⟩
/-- ETH_POLICE_CFG.stream_budget (R418). -/
def F.ETH_POLICE_CFG_stream_budget : Field := ⟨Reg.ETH_POLICE_CFG, 0, 8⟩
/-- ETH_SESS_CFG.idle (R418). -/
def F.ETH_SESS_CFG_idle : Field := ⟨Reg.ETH_SESS_CFG, 0, 8⟩
/-- ETH_SESS_STAT.svc (R418). -/
def F.ETH_SESS_STAT_svc : Field := ⟨Reg.ETH_SESS_STAT, 13, 1⟩
/-- ETH_SESS_STAT.open (R418). -/
def F.ETH_SESS_STAT_open : Field := ⟨Reg.ETH_SESS_STAT, 1, 8⟩
/-- ETH_SESS_CLOSE.svc (R418). -/
def F.ETH_SESS_CLOSE_svc : Field := ⟨Reg.ETH_SESS_CLOSE, 13, 1⟩
/-- ETH_SESS_CLOSE.close (R418). -/
def F.ETH_SESS_CLOSE_close : Field := ⟨Reg.ETH_SESS_CLOSE, 1, 8⟩
/-- ETH_IRQ_STAT.session (R418). -/
def F.ETH_IRQ_STAT_session : Field := ⟨Reg.ETH_IRQ_STAT, 3, 1⟩
/-- ETH_IRQ_STAT.addr_conflict (R418). -/
def F.ETH_IRQ_STAT_addr_conflict : Field := ⟨Reg.ETH_IRQ_STAT, 2, 1⟩
/-- ETH_IRQ_STAT.babble (R418). -/
def F.ETH_IRQ_STAT_babble : Field := ⟨Reg.ETH_IRQ_STAT, 1, 1⟩
/-- ETH_IRQ_STAT.link (R418). -/
def F.ETH_IRQ_STAT_link : Field := ⟨Reg.ETH_IRQ_STAT, 0, 1⟩
/-- ETH_IRQ_EN.en (R418). -/
def F.ETH_IRQ_EN_en : Field := ⟨Reg.ETH_IRQ_EN, 0, 4⟩
/-- ETH_CNT_RX_p.count (R418). -/
def F.ETH_CNT_RX_count (p : Nat) : Field := ⟨Reg.ETH_CNT_RX p, 0, 32⟩
/-- ETH_CNT_POLICE_p.count (R418). -/
def F.ETH_CNT_POLICE_count (p : Nat) : Field := ⟨Reg.ETH_CNT_POLICE p, 0, 32⟩
/-- ETH_CNT_DUP_p.count (R418). -/
def F.ETH_CNT_DUP_count (p : Nat) : Field := ⟨Reg.ETH_CNT_DUP p, 0, 32⟩
/-- ETH_CNT_BAD_REC.count (R418). -/
def F.ETH_CNT_BAD_REC_count : Field := ⟨Reg.ETH_CNT_BAD_REC, 0, 32⟩
/-- ETH_CNT_BAD_MSG.count (R418). -/
def F.ETH_CNT_BAD_MSG_count : Field := ⟨Reg.ETH_CNT_BAD_MSG, 0, 32⟩
/-- ETH_CNT_REQ_DROP.count (R418). -/
def F.ETH_CNT_REQ_DROP_count : Field := ⟨Reg.ETH_CNT_REQ_DROP, 0, 32⟩
/-- ETH_CNT_HS_FAIL.count (R418). -/
def F.ETH_CNT_HS_FAIL_count : Field := ⟨Reg.ETH_CNT_HS_FAIL, 0, 32⟩
/-- MBX_CTRL_m.opcode (R419). -/
def F.MBX_CTRL_opcode (m : Nat) : Field := ⟨Reg.MBX_CTRL m, 24, 8⟩
/-- MBX_CTRL_m.length (R419). -/
def F.MBX_CTRL_length (m : Nat) : Field := ⟨Reg.MBX_CTRL m, 8, 5⟩
/-- MBX_CTRL_m.busy (R419). -/
def F.MBX_CTRL_busy (m : Nat) : Field := ⟨Reg.MBX_CTRL m, 1, 1⟩
/-- MBX_CTRL_m.go (R419). -/
def F.MBX_CTRL_go (m : Nat) : Field := ⟨Reg.MBX_CTRL m, 0, 1⟩
/-- MBX_STAT_m.error (R419). -/
def F.MBX_STAT_error (m : Nat) : Field := ⟨Reg.MBX_STAT m, 16, 16⟩
/-- MBX_STAT_m.resp_len (R419). -/
def F.MBX_STAT_resp_len (m : Nat) : Field := ⟨Reg.MBX_STAT m, 8, 5⟩
/-- MBX_STAT_m.aux (R419). -/
def F.MBX_STAT_aux (m : Nat) : Field := ⟨Reg.MBX_STAT m, 0, 4⟩
/-- MBX_LOCK_m.owner (R419). -/
def F.MBX_LOCK_owner (m : Nat) : Field := ⟨Reg.MBX_LOCK m, 0, 4⟩
/-- MBX_DATA_m_k.data (R419). -/
def F.MBX_DATA_data (m : Nat) (k : Nat) : Field := ⟨Reg.MBX_DATA m k, 0, 32⟩
/-- MBX_DB_STAT.done (R419). -/
def F.MBX_DB_STAT_done : Field := ⟨Reg.MBX_DB_STAT, 0, 16⟩
/-- MBX_DB_EN.en (R419). -/
def F.MBX_DB_EN_en : Field := ⟨Reg.MBX_DB_EN, 0, 16⟩
/-- MBX_CFG.timeout (R419). -/
def F.MBX_CFG_timeout : Field := ⟨Reg.MBX_CFG, 0, 16⟩
/-- MBX_GLOCK_k.owner (R419). -/
def F.MBX_GLOCK_owner (k : Nat) : Field := ⟨Reg.MBX_GLOCK k, 0, 4⟩
/-- MBX_CNT_TIMEOUT.count (R419). -/
def F.MBX_CNT_TIMEOUT_count : Field := ⟨Reg.MBX_CNT_TIMEOUT, 0, 32⟩
/-- Q_BASE_r.base (R420). -/
def F.Q_BASE_base (r : Nat) : Field := ⟨Reg.Q_BASE r, 0, 20⟩
/-- Q_SIZE_r.enabled (R420). -/
def F.Q_SIZE_enabled (r : Nat) : Field := ⟨Reg.Q_SIZE r, 31, 1⟩
/-- Q_SIZE_r.halted (R420). -/
def F.Q_SIZE_halted (r : Nat) : Field := ⟨Reg.Q_SIZE r, 30, 1⟩
/-- Q_SIZE_r.size (R420). -/
def F.Q_SIZE_size (r : Nat) : Field := ⟨Reg.Q_SIZE r, 0, 17⟩
/-- Q_PTR_r.head (R420). -/
def F.Q_PTR_head (r : Nat) : Field := ⟨Reg.Q_PTR r, 16, 16⟩
/-- Q_PTR_r.tail (R420). -/
def F.Q_PTR_tail (r : Nat) : Field := ⟨Reg.Q_PTR r, 0, 16⟩
/-- Q_CNT_DROP_r.count (R420). -/
def F.Q_CNT_DROP_count (r : Nat) : Field := ⟨Reg.Q_CNT_DROP r, 0, 32⟩
/-- Q_STR_CFG_s.session (R420). -/
def F.Q_STR_CFG_session (s : Nat) : Field := ⟨Reg.Q_STR_CFG s, 28, 4⟩
/-- Q_STR_CFG_s.set (R420). -/
def F.Q_STR_CFG_set (s : Nat) : Field := ⟨Reg.Q_STR_CFG s, 24, 4⟩
/-- Q_STR_CFG_s.decim (R420). -/
def F.Q_STR_CFG_decim (s : Nat) : Field := ⟨Reg.Q_STR_CFG s, 16, 8⟩
/-- Q_STR_POS_s.last (R420). -/
def F.Q_STR_POS_last (s : Nat) : Field := ⟨Reg.Q_STR_POS s, 8, 8⟩
/-- Q_STR_POS_s.first (R420). -/
def F.Q_STR_POS_first (s : Nat) : Field := ⟨Reg.Q_STR_POS s, 0, 8⟩
/-- Q_STR_SEQ_s.seq (R420). -/
def F.Q_STR_SEQ_seq (s : Nat) : Field := ⟨Reg.Q_STR_SEQ s, 0, 32⟩
/-- Q_STR_DROP_s.count (R420). -/
def F.Q_STR_DROP_count (s : Nat) : Field := ⟨Reg.Q_STR_DROP s, 0, 32⟩
/-- OP_CTRL_n.opcode (R421). -/
def F.OP_CTRL_opcode (n : Nat) : Field := ⟨Reg.OP_CTRL n, 16, 8⟩
/-- OP_CTRL_n.abort (R421). -/
def F.OP_CTRL_abort (n : Nat) : Field := ⟨Reg.OP_CTRL n, 2, 1⟩
/-- OP_CTRL_n.start (R421). -/
def F.OP_CTRL_start (n : Nat) : Field := ⟨Reg.OP_CTRL n, 1, 1⟩
/-- OP_STATUS0_n.state (R421). -/
def F.OP_STATUS0_state (n : Nat) : Field := ⟨Reg.OP_STATUS0 n, 29, 3⟩
/-- OP_STATUS0_n.paused (R421). -/
def F.OP_STATUS0_paused (n : Nat) : Field := ⟨Reg.OP_STATUS0 n, 26, 1⟩
/-- OP_STATUS0_n.progress (R421). -/
def F.OP_STATUS0_progress (n : Nat) : Field := ⟨Reg.OP_STATUS0 n, 16, 10⟩
/-- OP_STATUS0_n.error (R421). -/
def F.OP_STATUS0_error (n : Nat) : Field := ⟨Reg.OP_STATUS0 n, 0, 16⟩
/-- OP_STATUS1_n.aux (R421). -/
def F.OP_STATUS1_aux (n : Nat) : Field := ⟨Reg.OP_STATUS1 n, 28, 4⟩
/-- OP_STATUS1_n.gen (R421). -/
def F.OP_STATUS1_gen (n : Nat) : Field := ⟨Reg.OP_STATUS1 n, 24, 4⟩
/-- OP_STATUS1_n.partial (R421). -/
def F.OP_STATUS1_partial (n : Nat) : Field := ⟨Reg.OP_STATUS1 n, 0, 24⟩
/-- OP_OWNER_n.owner (R421). -/
def F.OP_OWNER_owner (n : Nat) : Field := ⟨Reg.OP_OWNER n, 0, 4⟩
/-- OP_ACK_n.ack (R421). -/
def F.OP_ACK_ack (n : Nat) : Field := ⟨Reg.OP_ACK n, 0, 24⟩
/-- OP_ARG_n_k.arg (R421). -/
def F.OP_ARG_arg (n : Nat) (k : Nat) : Field := ⟨Reg.OP_ARG n k, 0, 32⟩
/-- OP_IRQ_STAT.final (R421). -/
def F.OP_IRQ_STAT_final : Field := ⟨Reg.OP_IRQ_STAT, 0, 16⟩
/-- OP_IRQ_EN.en (R421). -/
def F.OP_IRQ_EN_en : Field := ⟨Reg.OP_IRQ_EN, 0, 16⟩
/-- CANx_CTRL.clr_cnt (R439). -/
def F.CAN_CTRL_clr_cnt (x : Nat) : Field := ⟨Reg.CAN_CTRL x, 5, 1⟩
/-- CANx_CTRL.recover (R439). -/
def F.CAN_CTRL_recover (x : Nat) : Field := ⟨Reg.CAN_CTRL x, 4, 1⟩
/-- CANx_CTRL.auto_rec (R439). -/
def F.CAN_CTRL_auto_rec (x : Nat) : Field := ⟨Reg.CAN_CTRL x, 3, 1⟩
/-- CANx_CTRL.fifo_en (R439). -/
def F.CAN_CTRL_fifo_en (x : Nat) : Field := ⟨Reg.CAN_CTRL x, 2, 1⟩
/-- CANx_CTRL.en (R439). -/
def F.CAN_CTRL_en (x : Nat) : Field := ⟨Reg.CAN_CTRL x, 0, 1⟩
/-- CANx_NBT.nbrp (R439). -/
def F.CAN_NBT_nbrp (x : Nat) : Field := ⟨Reg.CAN_NBT x, 26, 6⟩
/-- CANx_NBT.ntseg1 (R439). -/
def F.CAN_NBT_ntseg1 (x : Nat) : Field := ⟨Reg.CAN_NBT x, 17, 9⟩
/-- CANx_NBT.ntseg2 (R439). -/
def F.CAN_NBT_ntseg2 (x : Nat) : Field := ⟨Reg.CAN_NBT x, 9, 8⟩
/-- CANx_NBT.nsjw (R439). -/
def F.CAN_NBT_nsjw (x : Nat) : Field := ⟨Reg.CAN_NBT x, 0, 8⟩
/-- CANx_DBT.dbrp (R439). -/
def F.CAN_DBT_dbrp (x : Nat) : Field := ⟨Reg.CAN_DBT x, 26, 6⟩
/-- CANx_DBT.dtseg1 (R439). -/
def F.CAN_DBT_dtseg1 (x : Nat) : Field := ⟨Reg.CAN_DBT x, 20, 6⟩
/-- CANx_DBT.dtseg2 (R439). -/
def F.CAN_DBT_dtseg2 (x : Nat) : Field := ⟨Reg.CAN_DBT x, 15, 5⟩
/-- CANx_DBT.dsjw (R439). -/
def F.CAN_DBT_dsjw (x : Nat) : Field := ⟨Reg.CAN_DBT x, 10, 5⟩
/-- CANx_TDC.tdc_en (R439). -/
def F.CAN_TDC_tdc_en (x : Nat) : Field := ⟨Reg.CAN_TDC x, 15, 1⟩
/-- CANx_TDC.tdco (R439). -/
def F.CAN_TDC_tdco (x : Nat) : Field := ⟨Reg.CAN_TDC x, 8, 7⟩
/-- CANx_TDC.tdcf (R439). -/
def F.CAN_TDC_tdcf (x : Nat) : Field := ⟨Reg.CAN_TDC x, 0, 7⟩
/-- CANx_STAT.tec (R439). -/
def F.CAN_STAT_tec (x : Nat) : Field := ⟨Reg.CAN_STAT x, 24, 8⟩
/-- CANx_STAT.rec (R439). -/
def F.CAN_STAT_rec (x : Nat) : Field := ⟨Reg.CAN_STAT x, 16, 8⟩
/-- CANx_STAT.lec (R439). -/
def F.CAN_STAT_lec (x : Nat) : Field := ⟨Reg.CAN_STAT x, 12, 3⟩
/-- CANx_STAT.lec_data (R439). -/
def F.CAN_STAT_lec_data (x : Nat) : Field := ⟨Reg.CAN_STAT x, 11, 1⟩
/-- CANx_STAT.state (R439). -/
def F.CAN_STAT_state (x : Nat) : Field := ⟨Reg.CAN_STAT x, 8, 2⟩
/-- CANx_STAT.tdcv (R439). -/
def F.CAN_STAT_tdcv (x : Nat) : Field := ⟨Reg.CAN_STAT x, 0, 7⟩
/-- CANx_FIFO_ID.id (R439). -/
def F.CAN_FIFO_ID_id (x : Nat) : Field := ⟨Reg.CAN_FIFO_ID x, 0, 32⟩
/-- CANx_FIFO_MASK.mask (R439). -/
def F.CAN_FIFO_MASK_mask (x : Nat) : Field := ⟨Reg.CAN_FIFO_MASK x, 0, 32⟩
/-- CANx_FIFO_STAT.count (R439). -/
def F.CAN_FIFO_STAT_count (x : Nat) : Field := ⟨Reg.CAN_FIFO_STAT x, 0, 6⟩
/-- CANx_FIFO_CTRL.pop (R439). -/
def F.CAN_FIFO_CTRL_pop (x : Nat) : Field := ⟨Reg.CAN_FIFO_CTRL x, 0, 1⟩
/-- CANx_IRQ_STAT.id_clash (R439). -/
def F.CAN_IRQ_STAT_id_clash (x : Nat) : Field := ⟨Reg.CAN_IRQ_STAT x, 7, 1⟩
/-- CANx_IRQ_STAT.bus_off (R439). -/
def F.CAN_IRQ_STAT_bus_off (x : Nat) : Field := ⟨Reg.CAN_IRQ_STAT x, 6, 1⟩
/-- CANx_IRQ_STAT.passive (R439). -/
def F.CAN_IRQ_STAT_passive (x : Nat) : Field := ⟨Reg.CAN_IRQ_STAT x, 5, 1⟩
/-- CANx_IRQ_STAT.recovered (R439). -/
def F.CAN_IRQ_STAT_recovered (x : Nat) : Field := ⟨Reg.CAN_IRQ_STAT x, 4, 1⟩
/-- CANx_IRQ_STAT.fifo_ovr (R439). -/
def F.CAN_IRQ_STAT_fifo_ovr (x : Nat) : Field := ⟨Reg.CAN_IRQ_STAT x, 3, 1⟩
/-- CANx_IRQ_STAT.fifo_rx (R439). -/
def F.CAN_IRQ_STAT_fifo_rx (x : Nat) : Field := ⟨Reg.CAN_IRQ_STAT x, 2, 1⟩
/-- CANx_IRQ_STAT.rx (R439). -/
def F.CAN_IRQ_STAT_rx (x : Nat) : Field := ⟨Reg.CAN_IRQ_STAT x, 1, 1⟩
/-- CANx_IRQ_STAT.tx_done (R439). -/
def F.CAN_IRQ_STAT_tx_done (x : Nat) : Field := ⟨Reg.CAN_IRQ_STAT x, 0, 1⟩
/-- CANx_IRQ_EN.en (R439). -/
def F.CAN_IRQ_EN_en (x : Nat) : Field := ⟨Reg.CAN_IRQ_EN x, 0, 8⟩
/-- CANx_CNT_TX.count (R439). -/
def F.CAN_CNT_TX_count (x : Nat) : Field := ⟨Reg.CAN_CNT_TX x, 0, 32⟩
/-- CANx_CNT_RX.count (R439). -/
def F.CAN_CNT_RX_count (x : Nat) : Field := ⟨Reg.CAN_CNT_RX x, 0, 32⟩
/-- CANx_CNT_ERR.count (R439). -/
def F.CAN_CNT_ERR_count (x : Nat) : Field := ⟨Reg.CAN_CNT_ERR x, 0, 32⟩
/-- CANx_CNT_BUSOFF.count (R439). -/
def F.CAN_CNT_BUSOFF_count (x : Nat) : Field := ⟨Reg.CAN_CNT_BUSOFF x, 0, 32⟩
/-- CANx_CNT_FIFO_OVR.count (R439). -/
def F.CAN_CNT_FIFO_OVR_count (x : Nat) : Field := ⟨Reg.CAN_CNT_FIFO_OVR x, 0, 32⟩
/-- CANx_CNT_RX_OVR.count (R439). -/
def F.CAN_CNT_RX_OVR_count (x : Nat) : Field := ⟨Reg.CAN_CNT_RX_OVR x, 0, 32⟩
/-- CANx_CNT_CLASH_RX.count (R439). -/
def F.CAN_CNT_CLASH_RX_count (x : Nat) : Field := ⟨Reg.CAN_CNT_CLASH_RX x, 0, 32⟩
/-- CANx_FIFO_HEAD_w.word (R439). -/
def F.CAN_FIFO_HEAD_word (x : Nat) (w : Nat) : Field := ⟨Reg.CAN_FIFO_HEAD x w, 0, 32⟩
/-- CANx_MB_CTRL_b.losses (R439). -/
def F.CAN_MB_CTRL_losses (x : Nat) (b : Nat) : Field := ⟨Reg.CAN_MB_CTRL x b, 12, 4⟩
/-- CANx_MB_CTRL_b.ovr (R439). -/
def F.CAN_MB_CTRL_ovr (x : Nat) (b : Nat) : Field := ⟨Reg.CAN_MB_CTRL x b, 8, 1⟩
/-- CANx_MB_CTRL_b.suspended (R439). -/
def F.CAN_MB_CTRL_suspended (x : Nat) (b : Nat) : Field := ⟨Reg.CAN_MB_CTRL x b, 7, 1⟩
/-- CANx_MB_CTRL_b.full (R439). -/
def F.CAN_MB_CTRL_full (x : Nat) (b : Nat) : Field := ⟨Reg.CAN_MB_CTRL x b, 6, 1⟩
/-- CANx_MB_CTRL_b.pending (R439). -/
def F.CAN_MB_CTRL_pending (x : Nat) (b : Nat) : Field := ⟨Reg.CAN_MB_CTRL x b, 5, 1⟩
/-- CANx_MB_CTRL_b.clr_full (R439). -/
def F.CAN_MB_CTRL_clr_full (x : Nat) (b : Nat) : Field := ⟨Reg.CAN_MB_CTRL x b, 4, 1⟩
/-- CANx_MB_CTRL_b.commit (R439). -/
def F.CAN_MB_CTRL_commit (x : Nat) (b : Nat) : Field := ⟨Reg.CAN_MB_CTRL x b, 3, 1⟩
/-- CANx_MB_CTRL_b.abort (R439). -/
def F.CAN_MB_CTRL_abort (x : Nat) (b : Nat) : Field := ⟨Reg.CAN_MB_CTRL x b, 2, 1⟩
/-- CANx_MB_CTRL_b.dir (R439). -/
def F.CAN_MB_CTRL_dir (x : Nat) (b : Nat) : Field := ⟨Reg.CAN_MB_CTRL x b, 1, 1⟩
/-- CANx_MB_CTRL_b.en (R439). -/
def F.CAN_MB_CTRL_en (x : Nat) (b : Nat) : Field := ⟨Reg.CAN_MB_CTRL x b, 0, 1⟩
/-- CANx_MB_ID_b.id (R439). -/
def F.CAN_MB_ID_id (x : Nat) (b : Nat) : Field := ⟨Reg.CAN_MB_ID x b, 0, 32⟩
/-- CANx_MB_INFO_b.info (R439). -/
def F.CAN_MB_INFO_info (x : Nat) (b : Nat) : Field := ⟨Reg.CAN_MB_INFO x b, 0, 32⟩
/-- CANx_MB_MASK_b.mask (R439). -/
def F.CAN_MB_MASK_mask (x : Nat) (b : Nat) : Field := ⟨Reg.CAN_MB_MASK x b, 0, 32⟩
/-- CANx_MB_STAMP_b.stamp (R439). -/
def F.CAN_MB_STAMP_stamp (x : Nat) (b : Nat) : Field := ⟨Reg.CAN_MB_STAMP x b, 0, 32⟩
/-- CANx_MB_DATA_b_k.data (R439). -/
def F.CAN_MB_DATA_data (x : Nat) (b : Nat) (k : Nat) : Field := ⟨Reg.CAN_MB_DATA x b k, 0, 32⟩
/-- MEM_CTRL.clr_cnt (R457). -/
def F.MEM_CTRL_clr_cnt : Field := ⟨Reg.MEM_CTRL, 0, 1⟩
/-- MEM_SCRUB_CFG.period (R457). -/
def F.MEM_SCRUB_CFG_period : Field := ⟨Reg.MEM_SCRUB_CFG, 0, 12⟩
/-- MEM_SCRUB_POS.instance (R457). -/
def F.MEM_SCRUB_POS_instance : Field := ⟨Reg.MEM_SCRUB_POS, 24, 6⟩
/-- MEM_SCRUB_POS.word (R457). -/
def F.MEM_SCRUB_POS_word : Field := ⟨Reg.MEM_SCRUB_POS, 0, 14⟩
/-- MEM_ERR_LOC.instance (R457). -/
def F.MEM_ERR_LOC_instance : Field := ⟨Reg.MEM_ERR_LOC, 24, 6⟩
/-- MEM_ERR_LOC.word (R457). -/
def F.MEM_ERR_LOC_word : Field := ⟨Reg.MEM_ERR_LOC, 0, 14⟩
/-- MEM_ERR_INFO.class (R457). -/
def F.MEM_ERR_INFO_class : Field := ⟨Reg.MEM_ERR_INFO, 30, 2⟩
/-- MEM_ERR_INFO.agent (R457). -/
def F.MEM_ERR_INFO_agent : Field := ⟨Reg.MEM_ERR_INFO, 24, 4⟩
/-- MEM_ERR_INFO.syndrome (R457). -/
def F.MEM_ERR_INFO_syndrome : Field := ⟨Reg.MEM_ERR_INFO, 0, 8⟩
/-- MEM_IRQ_STAT.remap_full (R457). -/
def F.MEM_IRQ_STAT_remap_full : Field := ⟨Reg.MEM_IRQ_STAT, 7, 1⟩
/-- MEM_IRQ_STAT.remap (R457). -/
def F.MEM_IRQ_STAT_remap : Field := ⟨Reg.MEM_IRQ_STAT, 6, 1⟩
/-- MEM_IRQ_STAT.repair (R457). -/
def F.MEM_IRQ_STAT_repair : Field := ⟨Reg.MEM_IRQ_STAT, 5, 1⟩
/-- MEM_IRQ_STAT.bank (R457). -/
def F.MEM_IRQ_STAT_bank : Field := ⟨Reg.MEM_IRQ_STAT, 4, 1⟩
/-- MEM_IRQ_STAT.abandon (R457). -/
def F.MEM_IRQ_STAT_abandon : Field := ⟨Reg.MEM_IRQ_STAT, 3, 1⟩
/-- MEM_IRQ_STAT.poison_hit (R457). -/
def F.MEM_IRQ_STAT_poison_hit : Field := ⟨Reg.MEM_IRQ_STAT, 2, 1⟩
/-- MEM_IRQ_STAT.ue (R457). -/
def F.MEM_IRQ_STAT_ue : Field := ⟨Reg.MEM_IRQ_STAT, 1, 1⟩
/-- MEM_IRQ_STAT.ce (R457). -/
def F.MEM_IRQ_STAT_ce : Field := ⟨Reg.MEM_IRQ_STAT, 0, 1⟩
/-- MEM_IRQ_EN.en (R457). -/
def F.MEM_IRQ_EN_en : Field := ⟨Reg.MEM_IRQ_EN, 0, 8⟩
/-- MEM_CNT_UE.count (R457). -/
def F.MEM_CNT_UE_count : Field := ⟨Reg.MEM_CNT_UE, 0, 32⟩
/-- MEM_CNT_POISON_HIT.count (R457). -/
def F.MEM_CNT_POISON_HIT_count : Field := ⟨Reg.MEM_CNT_POISON_HIT, 0, 32⟩
/-- MEM_CNT_MERGE.count (R457). -/
def F.MEM_CNT_MERGE_count : Field := ⟨Reg.MEM_CNT_MERGE, 0, 32⟩
/-- MEM_CNT_ABANDON.count (R457). -/
def F.MEM_CNT_ABANDON_count : Field := ⟨Reg.MEM_CNT_ABANDON, 0, 32⟩
/-- MEM_CNT_REPAIR.count (R457). -/
def F.MEM_CNT_REPAIR_count : Field := ⟨Reg.MEM_CNT_REPAIR, 0, 32⟩
/-- MEM_CNT_REMAP.count (R457). -/
def F.MEM_CNT_REMAP_count : Field := ⟨Reg.MEM_CNT_REMAP, 0, 32⟩
/-- MEM_CNT_PASS.count (R457). -/
def F.MEM_CNT_PASS_count : Field := ⟨Reg.MEM_CNT_PASS, 0, 32⟩
/-- MEM_CNT_CE_i.count (R457). -/
def F.MEM_CNT_CE_count (i : Nat) : Field := ⟨Reg.MEM_CNT_CE i, 0, 32⟩
/-- MEM_REMAP_i_e.valid (R457). -/
def F.MEM_REMAP_valid (i : Nat) (e : Nat) : Field := ⟨Reg.MEM_REMAP i e, 31, 1⟩
/-- MEM_REMAP_i_e.line (R457). -/
def F.MEM_REMAP_line (i : Nat) (e : Nat) : Field := ⟨Reg.MEM_REMAP i e, 0, 11⟩
/-- PWR_SUP_STAT.store_level (R480). -/
def F.PWR_SUP_STAT_store_level : Field := ⟨Reg.PWR_SUP_STAT, 24, 8⟩
/-- PWR_SUP_STAT.supply_state (R480). -/
def F.PWR_SUP_STAT_supply_state : Field := ⟨Reg.PWR_SUP_STAT, 22, 2⟩
/-- PWR_SUP_STAT.nor_hold (R480). -/
def F.PWR_SUP_STAT_nor_hold : Field := ⟨Reg.PWR_SUP_STAT, 21, 1⟩
/-- PWR_SUP_STAT.charging (R480). -/
def F.PWR_SUP_STAT_charging : Field := ⟨Reg.PWR_SUP_STAT, 20, 1⟩
/-- PWR_SUP_STAT.aux_v (R480). -/
def F.PWR_SUP_STAT_aux_v : Field := ⟨Reg.PWR_SUP_STAT, 0, 16⟩
/-- PWR_SUP_BO.bo_min (R480). -/
def F.PWR_SUP_BO_bo_min : Field := ⟨Reg.PWR_SUP_BO, 16, 16⟩
/-- PWR_SUP_BO.bo_dur (R480). -/
def F.PWR_SUP_BO_bo_dur : Field := ⟨Reg.PWR_SUP_BO, 0, 16⟩
/-- PWR_CTRL.clr_cnt (R480). -/
def F.PWR_CTRL_clr_cnt : Field := ⟨Reg.PWR_CTRL, 0, 1⟩
/-- PWR_RUN_STAT.last_cause (R480). -/
def F.PWR_RUN_STAT_last_cause : Field := ⟨Reg.PWR_RUN_STAT, 24, 8⟩
/-- PWR_RUN_STAT.start_step (R480). -/
def F.PWR_RUN_STAT_start_step : Field := ⟨Reg.PWR_RUN_STAT, 20, 4⟩
/-- PWR_RUN_STAT.fail (R480). -/
def F.PWR_RUN_STAT_fail : Field := ⟨Reg.PWR_RUN_STAT, 0, 16⟩
/-- PWR_RUN_CYC.cycle (R480). -/
def F.PWR_RUN_CYC_cycle : Field := ⟨Reg.PWR_RUN_CYC, 0, 32⟩
/-- PWR_RESET_CAUSE.function (R480). -/
def F.PWR_RESET_CAUSE_function : Field := ⟨Reg.PWR_RESET_CAUSE, 8, 8⟩
/-- PWR_RESET_CAUSE.type (R480). -/
def F.PWR_RESET_CAUSE_type : Field := ⟨Reg.PWR_RESET_CAUSE, 0, 8⟩
/-- PWR_RESET_CTRL.key (R480). -/
def F.PWR_RESET_CTRL_key : Field := ⟨Reg.PWR_RESET_CTRL, 16, 16⟩
/-- PWR_RESET_CTRL.function (R480). -/
def F.PWR_RESET_CTRL_function : Field := ⟨Reg.PWR_RESET_CTRL, 8, 4⟩
/-- PWR_RESET_CTRL.action (R480). -/
def F.PWR_RESET_CTRL_action : Field := ⟨Reg.PWR_RESET_CTRL, 0, 3⟩
/-- PWR_LADDER_STAT.busy (R480). -/
def F.PWR_LADDER_STAT_busy : Field := ⟨Reg.PWR_LADDER_STAT, 31, 1⟩
/-- PWR_LADDER_STAT.rung (R480). -/
def F.PWR_LADDER_STAT_rung : Field := ⟨Reg.PWR_LADDER_STAT, 28, 3⟩
/-- PWR_LADDER_STAT.function (R480). -/
def F.PWR_LADDER_STAT_function : Field := ⟨Reg.PWR_LADDER_STAT, 24, 4⟩
/-- PWR_LADDER_STAT.auto_resets (R480). -/
def F.PWR_LADDER_STAT_auto_resets : Field := ⟨Reg.PWR_LADDER_STAT, 16, 8⟩
/-- PWR_LADDER_STAT.master (R480). -/
def F.PWR_LADDER_STAT_master : Field := ⟨Reg.PWR_LADDER_STAT, 0, 4⟩
/-- PWR_IRQ_STAT.cycle_fail (R480). -/
def F.PWR_IRQ_STAT_cycle_fail : Field := ⟨Reg.PWR_IRQ_STAT, 7, 1⟩
/-- PWR_IRQ_STAT.distaff_restart (R480). -/
def F.PWR_IRQ_STAT_distaff_restart : Field := ⟨Reg.PWR_IRQ_STAT, 6, 1⟩
/-- PWR_IRQ_STAT.reinit_done (R480). -/
def F.PWR_IRQ_STAT_reinit_done : Field := ⟨Reg.PWR_IRQ_STAT, 5, 1⟩
/-- PWR_IRQ_STAT.start_fail (R480). -/
def F.PWR_IRQ_STAT_start_fail : Field := ⟨Reg.PWR_IRQ_STAT, 4, 1⟩
/-- PWR_IRQ_STAT.run_change (R480). -/
def F.PWR_IRQ_STAT_run_change : Field := ⟨Reg.PWR_IRQ_STAT, 3, 1⟩
/-- PWR_IRQ_STAT.holdup (R480). -/
def F.PWR_IRQ_STAT_holdup : Field := ⟨Reg.PWR_IRQ_STAT, 2, 1⟩
/-- PWR_IRQ_STAT.brownout_end (R480). -/
def F.PWR_IRQ_STAT_brownout_end : Field := ⟨Reg.PWR_IRQ_STAT, 1, 1⟩
/-- PWR_IRQ_STAT.boot_done (R480). -/
def F.PWR_IRQ_STAT_boot_done : Field := ⟨Reg.PWR_IRQ_STAT, 0, 1⟩
/-- PWR_IRQ_EN.en (R480). -/
def F.PWR_IRQ_EN_en : Field := ⟨Reg.PWR_IRQ_EN, 0, 8⟩
/-- PWR_CNT_REINIT_f.count (R480). -/
def F.PWR_CNT_REINIT_count (f : Nat) : Field := ⟨Reg.PWR_CNT_REINIT f, 0, 32⟩
/-- PWR_CNT_RESET.count (R480). -/
def F.PWR_CNT_RESET_count : Field := ⟨Reg.PWR_CNT_RESET, 0, 32⟩
/-- PWR_CNT_DISTAFF.count (R480). -/
def F.PWR_CNT_DISTAFF_count : Field := ⟨Reg.PWR_CNT_DISTAFF, 0, 32⟩
/-- PWR_CNT_BROWNOUT.count (R480). -/
def F.PWR_CNT_BROWNOUT_count : Field := ⟨Reg.PWR_CNT_BROWNOUT, 0, 32⟩
/-- PWR_CNT_HOLDUP.count (R480). -/
def F.PWR_CNT_HOLDUP_count : Field := ⟨Reg.PWR_CNT_HOLDUP, 0, 32⟩
/-- LCY_STATE.state (R504). -/
def F.LCY_STATE_state : Field := ⟨Reg.LCY_STATE, 29, 3⟩
/-- LCY_STATE.dev_key (R504). -/
def F.LCY_STATE_dev_key : Field := ⟨Reg.LCY_STATE, 8, 1⟩
/-- LCY_STATE.owner_key (R504). -/
def F.LCY_STATE_owner_key : Field := ⟨Reg.LCY_STATE, 7, 1⟩
/-- LCY_STATE.owner_sig_req (R504). -/
def F.LCY_STATE_owner_sig_req : Field := ⟨Reg.LCY_STATE, 6, 1⟩
/-- LCY_STATE.anchors (R504). -/
def F.LCY_STATE_anchors : Field := ⟨Reg.LCY_STATE, 3, 3⟩
/-- LCY_ROLLBACK.advance_pending (R504). -/
def F.LCY_ROLLBACK_advance_pending : Field := ⟨Reg.LCY_ROLLBACK, 7, 1⟩
/-- LCY_ROLLBACK.count (R504). -/
def F.LCY_ROLLBACK_count : Field := ⟨Reg.LCY_ROLLBACK, 0, 7⟩
/-- LCY_OWNER_ID_LO.id_lo (R504). -/
def F.LCY_OWNER_ID_LO_id_lo : Field := ⟨Reg.LCY_OWNER_ID_LO, 0, 32⟩
/-- LCY_OWNER_ID_HI.id_hi (R504). -/
def F.LCY_OWNER_ID_HI_id_hi : Field := ⟨Reg.LCY_OWNER_ID_HI, 0, 32⟩
/-- LCY_WIPE_STAT.mask (R504). -/
def F.LCY_WIPE_STAT_mask : Field := ⟨Reg.LCY_WIPE_STAT, 4, 4⟩
/-- LCY_WIPE_STAT.pending (R504). -/
def F.LCY_WIPE_STAT_pending : Field := ⟨Reg.LCY_WIPE_STAT, 0, 1⟩
/-- LCY_CNT_CHANGE.count (R504). -/
def F.LCY_CNT_CHANGE_count : Field := ⟨Reg.LCY_CNT_CHANGE, 0, 32⟩
/-- MGT_UPD_STAT.stage (R505). -/
def F.MGT_UPD_STAT_stage : Field := ⟨Reg.MGT_UPD_STAT, 29, 3⟩
/-- MGT_UPD_STAT.owner (R505). -/
def F.MGT_UPD_STAT_owner : Field := ⟨Reg.MGT_UPD_STAT, 20, 4⟩
/-- MGT_UPD_STAT.trial_count (R505). -/
def F.MGT_UPD_STAT_trial_count : Field := ⟨Reg.MGT_UPD_STAT, 16, 2⟩
/-- MGT_UPD_STAT.idle_s (R505). -/
def F.MGT_UPD_STAT_idle_s : Field := ⟨Reg.MGT_UPD_STAT, 0, 16⟩
/-- MGT_UPD_PAGES.pages (R505). -/
def F.MGT_UPD_PAGES_pages : Field := ⟨Reg.MGT_UPD_PAGES, 0, 12⟩
/-- MGT_UPD_LEN.length (R505). -/
def F.MGT_UPD_LEN_length : Field := ⟨Reg.MGT_UPD_LEN, 0, 32⟩
/-- MGT_UPD_CFG.confirm_min (R505). -/
def F.MGT_UPD_CFG_confirm_min : Field := ⟨Reg.MGT_UPD_CFG, 0, 11⟩
/-- MGT_UPD_LEFT.seconds (R505). -/
def F.MGT_UPD_LEFT_seconds : Field := ⟨Reg.MGT_UPD_LEFT, 0, 32⟩
/-- MGT_IMG_SECVER.staged (R505). -/
def F.MGT_IMG_SECVER_staged : Field := ⟨Reg.MGT_IMG_SECVER, 8, 8⟩
/-- MGT_IMG_SECVER.running (R505). -/
def F.MGT_IMG_SECVER_running : Field := ⟨Reg.MGT_IMG_SECVER, 0, 8⟩
/-- MGT_LOG_SEQ.seq (R505). -/
def F.MGT_LOG_SEQ_seq : Field := ⟨Reg.MGT_LOG_SEQ, 0, 32⟩
/-- MGT_CNT_LOG_LOST.count (R505). -/
def F.MGT_CNT_LOG_LOST_count : Field := ⟨Reg.MGT_CNT_LOG_LOST, 0, 32⟩
/-- MGT_PCNT_BOOT.count (R505). -/
def F.MGT_PCNT_BOOT_count : Field := ⟨Reg.MGT_PCNT_BOOT, 0, 32⟩
/-- MGT_PCNT_HOURS.count (R505). -/
def F.MGT_PCNT_HOURS_count : Field := ⟨Reg.MGT_PCNT_HOURS, 0, 32⟩
/-- MGT_PCNT_CLOSE.count (R505). -/
def F.MGT_PCNT_CLOSE_count : Field := ⟨Reg.MGT_PCNT_CLOSE, 0, 32⟩
/-- MGT_PCNT_UPDATE.count (R505). -/
def F.MGT_PCNT_UPDATE_count : Field := ⟨Reg.MGT_PCNT_UPDATE, 0, 32⟩
/-- MGT_IRQ_STAT.safe_mode (R505). -/
def F.MGT_IRQ_STAT_safe_mode : Field := ⟨Reg.MGT_IRQ_STAT, 4, 1⟩
/-- MGT_IRQ_STAT.log_lost (R505). -/
def F.MGT_IRQ_STAT_log_lost : Field := ⟨Reg.MGT_IRQ_STAT, 3, 1⟩
/-- MGT_IRQ_STAT.sensor_fail (R505). -/
def F.MGT_IRQ_STAT_sensor_fail : Field := ⟨Reg.MGT_IRQ_STAT, 2, 1⟩
/-- MGT_IRQ_STAT.lock_timeout (R505). -/
def F.MGT_IRQ_STAT_lock_timeout : Field := ⟨Reg.MGT_IRQ_STAT, 1, 1⟩
/-- MGT_IRQ_STAT.stage_change (R505). -/
def F.MGT_IRQ_STAT_stage_change : Field := ⟨Reg.MGT_IRQ_STAT, 0, 1⟩
/-- MGT_IRQ_EN.en (R505). -/
def F.MGT_IRQ_EN_en : Field := ⟨Reg.MGT_IRQ_EN, 0, 5⟩
/-- MGT_SENS_n.value (R505). -/
def F.MGT_SENS_value (n : Nat) : Field := ⟨Reg.MGT_SENS n, 16, 16⟩
/-- MGT_SENS_n.status (R505). -/
def F.MGT_SENS_status (n : Nat) : Field := ⟨Reg.MGT_SENS n, 14, 2⟩
/-- MGT_XFER_BUF_w.data (R505). -/
def F.MGT_XFER_BUF_data (w : Nat) : Field := ⟨Reg.MGT_XFER_BUF w, 0, 32⟩

end Sys2Proof.Machine
end

