-- ==== Sys2Proof/Machine/State.lean ====
section
/-!
DEFINITION. The state of the module as plain data: the axes of R34, the host-visible registers and memory as sparse
lists in one canonical form, and the internal state the rules of each chapter speak of; the fault and refusal types;
and `State.reset`, the module right after AON has left reset and before the boot of R459 has run.
-/

namespace Sys2Proof.Machine

/-- A list of (address, value) pairs with strictly rising addresses; an unlisted address reads as its default. -/
abbrev SMap (α : Type) := List (Nat × α)

/-- Life-cycle states, in the code order of R34. -/
inductive LifeCycle where
  | manufacture | provisioned | field | service | decommissioned
  deriving DecidableEq, Repr

/-- Run states, in the code order of R34. -/
inductive RunState where
  | off | starting | precharge | run | stopping | safeHold | faultLatched
  deriving DecidableEq, Repr

/-- Redundancy roles, in the code order of R34. -/
inductive Role where
  | solo | active | standby
  deriving DecidableEq, Repr

/-- Supply states, in the code order of R34. -/
inductive Supply where
  | normal | brownoutWarning | holdup
  deriving DecidableEq, Repr

/-- Reference sources, in the code order of R34. -/
inductive RefSource where
  | hostSetpoint | busDroop | combined
  deriving DecidableEq, Repr

/-- Node states, in the code order of R100. -/
inductive NodeCmd where
  | insert | bypass | block | trim
  deriving DecidableEq, Repr

/-- The control symbols that act on TRIM (R91). -/
inductive TrimSym where
  | ins | byp | rel
  deriving DecidableEq, Repr

/-- The causes of R327, in code order from 0x01. -/
inductive SafetyCause where
  | estop | door | hvil | floop | telTrip | telLoss | telMismatch | discrepancy | crossShort | outputTest
  | channelLink | clock | protReq | backstop | moduleTrip | loopSupply | param | telNoPermit
  deriving DecidableEq, Repr

/-- A command of a node: state, TRIM duty and arm bit (R100). -/
structure Command where
  cmd  : NodeCmd
  duty : BitVec 7
  arm  : Bool
  deriving DecidableEq, Repr

/-- The Flyer state of one node (R143) and what its last launch did (R145). -/
structure FlyerLane where
  dwellLeft : Nat
  credit    : Nat
  trimRun   : Nat
  restLeft  : Nat
  last      : Command
  lastDuty  : BitVec 7
  forced    : Bool
  vetoed    : Bool
  deriving DecidableEq, Repr

/-- What the node profile makes a node hold (R92, R104, R106, R109, R125 to R129). `pos` is the position that ASSIGN gave it;
`applied` the command in force, `fwd` and `rev` the copies of the two lanes that wait for the instant they name, `trimmed` the
TRIM symbol in force, `stopSeen` that the last symbol was STOP; `held` and `holdNs` the time since a command last applied;
`rom` the ROM state; `bleed` the mask in force and `bleedNext` the one that the next cell-sample instant brings; `openWire` the
wire tested with the samples left; the delays of TIMING in 0.25 ns; per lane the instants that SYNC has announced, oldest last,
as (cycle, time in 0.25 ns), with the timing lane (`lane`: the reverse one) and the cycles that it carried no SYNC; the config
words; the blocks of the image received, whether it is verified, and the error code of boot_status; `tripped` that a
comparator is tripped; the error counts of the two sides; and the three node flags. -/
structure NodeModel where
  pos         : Option Byte
  applied     : Command
  fwd         : Option (Word × Command)
  rev         : Option (Word × Command)
  trimmed     : Option TrimSym
  stopSeen    : Bool
  stopLatched : Bool
  autoBlock   : Bool
  held        : Bool
  holdNs      : Nat
  rom         : Bool
  bleed       : BitVec 6
  bleedNext   : Option (BitVec 6)
  openWire    : Option (Byte × Nat)
  delayFwd    : BitVec 16
  delayRev    : BitVec 16
  syncFwd     : List (Word × Int)
  syncRev     : List (Word × Int)
  lane        : Bool
  miss        : Nat
  ovMv        : BitVec 16
  uvMv        : BitVec 16
  cfgD        : Byte
  cfgT        : BitVec 7
  quiet       : Bool
  blocks      : List Nat
  verified    : Bool
  bootErr     : Byte
  tripped     : Bool
  errSide0    : Word
  errSide1    : Word
  mismatch    : Bool
  lanesApart  : Bool
  laneChanged : Bool
  deriving DecidableEq, Repr

/-- An EMIT vector with its header (R141). -/
structure EmitVec where
  entries   : Vector (BitVec 16) 128
  bandValid : Bool
  bandLsb   : Bool
  iLo       : BitVec 16
  iMid      : BitVec 16
  iHi       : BitVec 16
  deriving DecidableEq, Repr

/-- The staged header of TRIM (R256). -/
structure BandHeader where
  valid : Bool
  lsb   : Bool
  lo    : BitVec 16
  mid   : BitVec 16
  hi    : BitVec 16
  deriving DecidableEq, Repr

/-- The hysteretic path and the toggle record (R149, R150, R145). -/
structure HystState where
  band       : Option (Int × Int × Int)
  lastSym    : Option TrimSym
  toggles    : Nat
  since      : Nat
  limited    : Bool
  inForce    : Bool
  cntIns     : Nat
  cntByp     : Nat
  cntRel     : Nat
  lastSent   : Option TrimSym
  prev       : List Byte
  deriving DecidableEq, Repr

/-- The counters of precharge (R152, R153). -/
structure PrechargeState where
  rampCycles  : Nat
  residualOk  : Bool
  sumFails    : Nat
  matchRun    : Nat
  deriving DecidableEq, Repr

/-- The Flyer (ch. 04). `missing` counts consecutive missing EMIT (R142); `creditPhase` counts cycles towards the
next credit (R143); `stopSinceNs` is the start of the broadcast (R157); `blockNow` is FLY_BLOCK as it
applies in this cycle, `blockPend` the writes that wait for their cycle, as (cycle, k, word) (R146); `launched` is the train last formed and
`launchedAt` the cycle in which it was. -/
structure FlyState where
  lanes       : Vector FlyerLane 128
  emit        : Option EmitVec
  missing     : Nat
  creditPhase : Nat
  stopSinceNs : Nat
  hyst        : HystState
  pre         : PrechargeState
  blockNow    : Vector Word 4
  blockPend   : List (Word × Nat × Word)
  launched    : List (BitVec 16)
  launchedAt  : Option Word
  deriving DecidableEq, Repr

/-- One lane of a vector register: 8 mantissas and a shared exponent (R197, R212). -/
structure Lane where
  m : Vector Mant 8
  e : Expo
  deriving DecidableEq, Repr

/-- The sticky flags of a lane (R216). -/
structure LaneFlags where
  ovf : Bool
  unf : Bool
  dz  : Bool
  inv : Bool
  deriving DecidableEq, Repr

/-- One level of the loop stack (R241). -/
structure LoopLevel where
  start : Nat
  stop  : Nat
  left  : Nat
  deriving DecidableEq, Repr

/-- The Spindle array (R197 to R204). `use` is the section cycle in which the next instruction can issue, `ready` the
cycle in which each result still outstanding is there (R233), by the resource's number; `emitted` says that this section
issued its EMIT (R237); `ctlRec` is the control record of this section (R162), `trim` the staged header (R256); `estGap`
counts estimation sections not run (R205), `estRan` and `fastRan` say which sections of this cycle started; `runPend`, `stopPend`
and `stPend` are an accepted run, stop and self-test (R204, R226), `stopAt` the present cycle once a stop was taken in it, `stLeft` the estimation sections the self-test still takes; `stateDig` is the state digest that the
copy-on-write walk will report, with its cycle (R225); `swapAt` is the cycle of the pending bank swap (R211). -/
structure SpinState where
  s        : Vector Word 32
  v        : Vector (Vector Lane 128) 32
  msk      : Vector (Vector (BitVec 8) 128) 8
  mx       : Vector (Vector (Vector Lane 8) 128) 4
  flags    : Vector LaneFlags 128
  loops    : List LoopLevel
  pc       : Nat
  use      : Nat
  ready    : List (Nat × Nat)
  trim     : Option BandHeader
  emitted  : Bool
  ctlRec   : Vector (Option Word) 16
  estGap   : Nat
  estRan   : Bool
  fastRan  : Bool
  runPend  : Bool
  stopPend : Bool
  stopAt   : Option Word
  stLeft   : Nat
  stPend   : Bool
  stateDig : Option (Word × Word)
  swapAt   : Option Word
  refProg  : Bool
  deriving DecidableEq, Repr

/-- The fast section's memory of the reference control program (R161 to R190): the quantities that one cycle hands to the
next, as BFP words. `runWas` is the run state of the frame before; `iM`, `vBus`, `iP1` are those of the cycle before, `u` its
voltage reference before injection and clamp; `dH` and `cH` the slow corrections; `law` the law in force with `blend` cycles
left and `lawTaken` the request last taken; `bandBad` counts cycles without a valid band in HYSTERETIC; `ladder`, `predict`
and `src` are the level, its cycles in PREDICT and the source in use (3 none) with its `offset`, `next` what the next cycle
switches to; `q` is the droop path's output; `r2` is the last reference, `r2nd` the same without dither, `nd` the references
r1 without dither of the last 8 cycles, newest first; `p`, `v`, `a` the profile generator with its target, `held` that a
clamp holds it; `injUsed` is the start word of the injection that ran last and `injOn` that it runs; `trimNode` the trim
node. -/
structure RefLoop where
  runWas   : Nat
  iM       : Word
  vBus     : Word
  iP1      : Word
  u        : Word
  dH       : Word
  cH       : Word
  law      : Bool
  lawTaken : Bool
  blend    : Nat
  refSrc   : RefSource
  bandBad  : Nat
  ladder   : Nat
  predict  : Nat
  src      : Nat
  next     : Option Nat
  offset   : Word
  q        : Word
  r2       : Word
  r2nd     : Word
  r2plain  : Word
  nd       : List Word
  p        : Word
  v        : Word
  a        : Word
  target   : Word
  held     : Bool
  injUsed  : Option Word
  injOn    : Bool
  trimNode : Option Nat
  deriving DecidableEq, Repr

/-- The supervision of one current source (R180 to R184): its values of the last 8 cycles, newest first, the runs of equal
values, of a low dither response and of cycles in which it would be healthy, and the differences shunt − source of the last
64 cycles in which both were hardware-healthy, newest first. -/
structure RefWatch where
  values  : List Word
  same    : Nat
  lowRun  : Nat
  okRun   : Nat
  healthy : Bool
  frozen  : Bool
  diffs   : List Word
  deriving DecidableEq, Repr

/-- A sum of a lea by tones (R277), cosine and sine parts: the hanks that are over, the first reading of the hank in progress, and
its sums relative to that reading. -/
structure LeaSum where
  total : List (Word × Word)
  first : Word
  part  : List (Word × Word)
  deriving DecidableEq, Repr

/-- What the reference program keeps of a cell (R269 to R283, R287 to R302): the filter with its covariance, whether it has
started, the capacity, the runs of gated readings and of records fit for a settled reading, the last bleed bits of the cell
and its neighbours, the prediction and the corrected reading of the last record, that of the last record without test current on the cell's wires (R300), the bleeding modelled in quiet mode, the
last anchor with the charge in Ah since, the leakage window, the resistances with that of the lea before (R292), the impedance temperature with the cycle at
which its lea ended, the stored offset, rl, the runs above and below the software limits, the flags of R265, SOH_R, the sums
of the lea in progress with the readings that predictions replaced, and whether the node's hard short is this cell's. -/
structure CellEst where
  soc     : Word
  v1      : Word
  p00     : Word
  p01     : Word
  p11     : Word
  ready   : Bool
  cap     : Word
  gates   : Nat
  calm    : Nat
  bits    : Nat
  pred    : Word
  corr    : Word
  tap     : Option Word
  bleed   : Bool
  anchor  : Option (Word × Word)
  leakSoc : Word
  leakQ   : Word
  leakBad : Bool
  r0      : Option Word
  r0Was   : Option Word
  rBol    : Option Word
  rRef    : Option Word
  temp    : Option (Word × Word)
  offset  : Word
  rise    : Word
  hiRun   : Nat
  loRun   : Nat
  flags   : BitVec 10
  sohR    : Word
  lea     : LeaSum
  leaRep  : Nat
  short   : Bool
  deriving DecidableEq, Repr

/-- What the reference program keeps of a thermistor (R302 to R308): the sum of this second's readings in 0.01 °C and their
number; the means of the last 61 seconds, newest first; the seconds without a failed condition, its state (0 valid, 1 failed,
2 substituted), the substitute and the rates held; the differences to the other thermistor of the last 60 seconds; and the
runs of r60 at or above rate_warn, rate_derate and rate_stop and of r10 at or above rate_trip; the mean read in the second
before. -/
structure ThermEst where
  sum     : Int
  count   : Nat
  means   : List Word
  fine    : Nat
  state   : Nat
  subst   : Option Word
  rate    : Word
  rate10  : Word
  diffs   : List Word
  warn    : Nat
  derate  : Nat
  stop    : Nat
  trip    : Nat
  lastRaw : Option Word
  deriving DecidableEq, Repr

/-- What the reference program keeps of a node: its cells; the filtered current and its values at the last four cell-sample
instants; the charge since its last record and the sample cycle of that; v_term at that record; the bleed mask in the request
word with its sequence, the nanosecond of its last change and ow_req; the state of each sense wire (bit 0 suspected,
1 open, 2 indeterminate), the runs of the signatures of R291, the last settled record before a test and the last record of the
test under way, as raw readings with v_term; hard short; the die temperature; its thermistors; the seconds without a valid
source and temperature-lost; the excitation sums of the lea in progress with the readings taken into it and the tones' own sums over
the hank; the readings for which reinit still shows; the thermistor mean of the last record. -/
structure NodeEst where
  cells   : Vector CellEst 6
  y       : Word
  yAt     : List (Word × Word)
  charge  : Word
  lastAt  : Option Word
  vTerm   : Option Word
  mask    : BitVec 6
  seq     : Byte
  maskNs  : Nat
  owReq   : Bool
  wires   : Vector Nat 7
  signs   : Vector Nat 7
  owBase  : Option (List Int)
  owTest  : Option (Nat × List Int)
  hard    : Bool
  die     : Int
  thA     : ThermEst
  thB     : ThermEst
  noTemp  : Nat
  lost    : Bool
  lea     : LeaSum
  leaN    : Nat
  hank    : List (Word × Word)
  reinit  : Nat
  thNow   : Word
  deriving DecidableEq, Repr

/-- The estimation section's memory of the reference program beside the nodes: nanoseconds of the last whole second and of the
leakage window's start; the cycle since which meas_mode stands, if a swap changed it; leas completed and the thermistor means
at their ends, newest first; the hold of R304 with its seconds left and limits; the temperature factors, the rate level with
the seconds below rate_warn; the cycles in a row with the multi-sine active; the permitted limits; whether the lea that has
just ended is whole; and the squared current sum of the lea for R280. -/
structure EstGlobal where
  secNs    : Nat
  leakNs   : Nat
  modeAt   : Option Word
  leas     : Nat
  leaMeans : List (List Word)
  hold     : Nat
  holdDis  : Word
  holdChg  : Word
  fChg     : Word
  fDis     : Word
  level    : Nat
  below    : Nat
  leaCount : Nat
  iDis     : Word
  iChg     : Word
  leaOn    : Bool
  leaSq    : Vector Word 128
  deriving DecidableEq, Repr

/-- The reference control program's memory, which R264 leaves undefined in lane memory: the fast section's loop, the
supervision of shunt, fluxgate and partner, the run of disagreement and the disputed source (R181), the accepted copies of the
three parameter sections (empty: the defaults), the nodes and the rest of estimation. `stopReq` is the stop request of the
string summary that Distaff or the supervisor last acted on (R310, R311), whatever program runs. -/
structure RefProgState where
  loop     : RefLoop
  watch    : Vector RefWatch 3
  disagree : Nat
  disputed : Option Nat
  params   : List Word
  est      : List Word
  prot     : List Word
  nodes    : Vector NodeEst 128
  glob     : EstGlobal
  stopReq  : Nat
  deriving DecidableEq, Repr

/-- A set-point with its apply cycle (R165). -/
structure SetPoint where
  target : Word
  limits : Word
  cycle  : Word
  deriving DecidableEq, Repr

/-- The sense interface (ch. 05): this cycle's data and whether the sense part of its frame is frozen; the set-point
pending, the limits in force, the instant at which the set-point in force took effect and whether its expiry is reported
(R165, R166); the instant of the last insulation result and the breaker's state it was taken in, and the breaker's state of the
measurement under way (R66, R67); the capture ring: its next place, the records
stored since arming, the count at the trigger, the trigger's cycle and sample instant, the channels of the last stored
record and the last cycle's status word (R192); the samples of the compatibility view and whether a record was skipped
since (R193); the last valid shunt temperature and the instant of the thermistor fault (R70); the words of the shunt's scaling record, none
while it is invalid (R69); the instant since which the fluxgate supply is in current limit (R70); k_fg (R521); the
positions that an open-wire sweep still tests and its abort (R289); the request words that Distaff acted on (R284); per
position the run of records that the backstop found bad, and the next cycle it examines (R301); the sequence of the
thermal demand message (R315), the
thermistors last seen substituted, 2 × position + number (R321), and the cells last seen with short_warn, 8 × position + cell
(R296). -/
structure SenseState where
  frozen    : Bool
  data      : Option SenseData
  pending   : Option SetPoint
  limits    : Word
  forceNs   : Nat
  expired   : Bool
  isoNs     : Nat
  isoBrk    : Bool
  isoNowBrk : Bool
  capHead   : Nat
  capTotal  : Nat
  capTrig   : Option Nat
  capTrigAt : List Word
  capPrev   : List Word
  capStat   : Word
  sc900     : Nat
  scGap     : Bool
  shTemp    : Int
  shRecord  : List Word
  fgLimNs   : Option Nat
  shBadNs   : Option Nat
  fgScaling : Option Word
  sweep     : List Nat
  sweepAbort : Bool
  reqSeen   : Vector Word 128
  backRun   : Vector Nat 128
  backFrom  : Word
  demSeq    : Byte
  substSeen : List Nat
  warnSeen  : List Nat
  deriving DecidableEq, Repr

/-- What a Privor port has received: consecutive clean cycles (R120) and cycles without the other end's header (R116),
whether this cycle's trains of the other end have come, the valid slots of this cycle, and the valid records with the
sequence of the train that carried them. `busyNs` is the end of the frame that it sends (R105), on the time since power-up;
`turnSide` the side that the last TURN notice names. -/
structure PortState where
  clean    : Nat
  noHeader : Nat
  gotUp    : Bool
  gotCmd   : Bool
  slots    : List (Nat × Word)
  records  : List (Word × Nat × List Word)
  busyNs   : Nat
  turnSide : Bool
  deriving DecidableEq, Repr

/-- A roving walk or a firmware load in progress (R111, R114): the instants since power-up at which its firmware load begins and
at which it ends, and what it finds; `walk` none for a load alone. -/
structure ChainJob where
  loadNs : Nat
  endNs  : Nat
  walk   : Option WalkResult
  load   : LoadResult
  deriving DecidableEq, Repr

/-- The chain (ch. 03): the ports, the nodes, what the walk learned of them, the last valid slot of each position (R144)
and its newest valid record with their ages in cycles (R148), the runs of cycles in which a position was missing from
both ends (R519), the break that the next cycle boundary reports (R116), and
whether the node part of this cycle's frame is frozen. `trans` and `walkNo` are the last transaction and walk number (R102,
R104); `job` is a walk or load in progress; `found` and `loaded` are what the last ones met on the wires, which a walk or load
that a plain register write starts meets again. -/
structure ChainState where
  portA      : PortState
  portB      : PortState
  nodes      : Vector NodeModel 128
  ids        : List NodeId
  lastSlot   : Vector (Option Word) 128
  lastRec    : Vector (Option (List Word)) 128
  slotAge    : Vector Nat 128
  recAge     : Vector Nat 128
  bothEnds   : Vector Nat 128
  rejoined   : List Nat
  isolated   : List Nat
  breakPend  : Bool
  frozen     : Bool
  lastMgmt   : Option MgmtResp
  trans      : Word
  walkNo     : Word
  job        : Option ChainJob
  found      : WalkResult
  loaded     : LoadResult
  deriving DecidableEq, Repr

/-- A functional guard or ladder action that is waiting or running (R473 to R475). -/
inductive LadderAction where
  | reinit (f : ReFunc) (master : Nat)
  | moduleReset (cause : BitVec 8) (master : Nat)
  | hold
  deriving DecidableEq, Repr

/-- An interval that a rule names, by what begins it: a supply state (R470, R471), the absence of Distaff (R461), the open request
(R464, R475), the assertion of PWR_CYCLE_REQ (R473), a chain port's loss of lock and the death of the cross-link receiver (R476), a good clock after a fault
(R476), the last valid telegram copy of a path (R341), a pending trip (R342), a container status (R317), precharge (R153), a resync (R361), a
mirrored item (R358), a lease (R355), an open-wire test and a sweep (R289), the thermal demand (R315), channels of an input that differ
(R329, R332), an operating hour (R501), and an HSR supervision frame (R387). -/
inductive Timer where
  | supply | distaff | openReq | powerCycle | lock (p : Port) | xlink | clock (i : Island) | path (p : TelPath)
  | trip | container | precharge | resync | lease | wire | sweep | demand | differ (i : SourcedInput) | hour
  | supervision | lifeReset | flash | sensors
  deriving DecidableEq, Repr

/-- The boundary-scan instructions (R513). -/
inductive TapInstr where
  | bypass | idcode | sample | extest | extestPulse | extestTrain | clamp | highz
  deriving DecidableEq, Repr

/-- Supply, domains, resets and the ladder (ch. 01, 16). `guard` is the guarded action (R475); `action` the rung-2 or
rung-3 action in progress (R473); `modTemp` the baseplate and die temperatures in 0.1 °C (R318); `estSeen` says that an
estimation section has run since boot (R314); `mbxTimeouts` the instants of the last mailbox timeouts (R476); `settleBad`
that a slot of the SETTLE step showed ov_uv or loop_lost (R467); `autoAt` the instants of the automatic module resets (R476); `restarts` those of the last restarts of Distaff (R461);
`marks` when the intervals in progress began; `modRead` the supervisor's last readings of sensors 0 to 2 (R318, R503);
`heldStandby` the instant since which a STANDBY keeps BRK_TRIP after a module reset (R477);
`shed` the domains that HOLDUP switched off (R471); `storeNs` the instant up to which the store level is accounted for (R48, R49);
`irCtrl` and `irComp` the instructions loaded in the two boundary-scan devices, with the refused bits of Capture-IR (R513). -/
structure PowerState where
  powered      : Bool
  bootDone     : Bool
  safeMode     : Bool
  distaffAbsent : Bool
  restartWait  : Bool
  restarts     : List Nat
  guard        : Option LadderAction
  action       : Option LadderAction
  openReq      : Bool
  pwrCycleReq  : Bool
  mbxTimeouts  : List Nat
  resetPend    : Option (BitVec 8)
  lifePend     : Bool
  shed         : List Domain
  storeNs      : Nat
  blockHold    : Bool
  startLeft    : Nat
  joining      : Bool
  stopNs       : Option Nat
  irRefCtrl    : Bool
  irRefComp    : Bool
  irCtrl       : Byte
  irComp       : BitVec 6
  portRetried  : List ReFunc
  baseHot      : Nat
  warnClear    : Nat
  baseFailed   : Bool × Bool
  slotPins     : BitVec 6
  heldStandby  : Option Nat
  afterClose   : Option Nat
  modTemp      : Int × Int
  estSeen      : Bool
  settleBad    : Bool
  autoAt       : List Nat
  marks        : List (Timer × Nat)
  modRead      : Option (List (Option Int))
  deriving DecidableEq, Repr

/-- A received telegram copy (R340). -/
structure TelCopy where
  seq   : Word
  path  : TelPath
  bytes : List Byte
  atNs  : Nat
  deriving DecidableEq, Repr

/-- The telegram part of the safety island (R338 to R342); `ethSess` are the sessions that delivered a valid copy of the
last Ethernet telegram, in the order of arrival (R401); `okNs` is the instant of the last confirmation (R341); `ref` is the
sequence of the first copy, which the condition was waived for, until a telegram is accepted; `seen` are the received sequences of
each path since (R339). -/
structure TelState where
  firsts    : List TelCopy
  ref       : Option Word
  seen      : List (TelPath × Word)
  lastOk    : Option Word
  lastEth   : Option Word
  absent    : List TelCopy
  permit    : Bool
  closeFlag : Bool
  pending   : Option (SafetyCause × Word)
  confirmed : Bool
  ownSeq    : Word
  ethSess   : List Nat
  okNs      : Nat
  deriving DecidableEq, Repr

/-- The safety island (ch. 10). `conds` are the causes whose condition is present, `latched` the latched ones;
`tripRule` is the demand or open request that the trip rule of R334 waits on; `doorOff` is the first half of the door
test (R331); `retest` the inputs that count as off after a discrepancy (R329); `pulse` the channel whose source pins carried the last
off-pulse (R72); `shorts` the loops whose reading shows a short to an external source (R74); `quietNs` is the instant since
which the comparator stream has shown a current within trip_i, none while it is larger or no stream is healthy (R334). -/
structure SafetyState where
  conds      : List SafetyCause
  latched    : List SafetyCause
  tripRule   : Option Nat
  tripOnNs   : Option Nat
  closeNs    : Option Nat
  doorOff    : Bool
  retestDoor : Option Bool
  retestEstop : Option Bool
  aloneA     : Bool
  aloneB     : Bool
  aloneBNs   : Nat
  floopA     : Bool
  floopB     : Bool
  outFail    : List (Drive × Channel)
  discOn     : Bool
  closeOn    : Bool
  key        : Option (Nat × Word × Nat)
  armedNs    : Option Nat
  paramForce : List Word
  linkCount  : Word
  pulse      : Option Channel
  shorts     : Bool × Bool
  quietNs    : Option Nat
  tel        : TelState
  deriving DecidableEq, Repr

/-- A mirrored item that waits for its acknowledgement (R358). -/
structure MirrorWait where
  seq  : Word
  item : MirrorItem
  ns   : Nat
  deriving DecidableEq, Repr

/-- The pair (ch. 11). `settle` says the claim settle runs (R351), `settled` that the first claimed launch is still to
come, `releasedNs` when CLAIM_IN was released; `noticeNs` and `noticeCause` the last release notice; `handoverAt` is h of
R356; `cycleRx` the partner's last CYCLE frame and `cycleGap` the cycles without one; `partnerClaim` what the partner
says of its claim, `claimSeen` the cycle of its last claimed train and `trainSeen` that train's cycle and command slots; `alike` that
its settings are this module's (R348); then the program identity, bank CRC and self-test
result of its LEASE frames, its last CMDX frame, the slots and records of SLOTX in this cycle, its digests as (cycle,
value) pairs; the runs count consecutive cycles (R360); `stateOk` that the state digests matched (R362), `divNotReady`,
`notReady` and the cycles that `readyWait` still counts (R474) what makes the standby not ready; `resync` and `resyncEnd` are c and e of R361, with the failed attempts,
whether a retry is due, the store queue and the next SNAP; `mirror` the items that wait (R358); `xlSeq` numbers the frames sent, `leaseSent` is the
last LEASE and `leaseNs` its instant (R354). -/
structure PairState where
  formed      : Bool
  settle      : Bool
  settled     : Bool
  settleNs    : Nat
  releasedNs  : Option Nat
  noticeNs    : Option Nat
  noticeCause : Option ClaimCause
  handoverAt  : Option Word
  cycleRx     : Option XlCycle
  cycleLate   : Bool
  cycleGap    : Nat
  partnerLost : Bool
  partnerClaim : Bool
  claimSeen   : Option Word
  trainSeen   : Option (Word × List (BitVec 16))
  alike       : Bool
  partnerProg : Word
  partnerBank : Word
  partnerSt   : BitVec 2
  cmdxRx      : Option XlCmdx
  cmdxTime    : Bool
  slotxSlots  : List (Nat × Word)
  slotxRecs   : List (Word × Nat × List Word)
  digIn       : Option (Word × Word)
  digOut      : Option (Word × Word)
  digState    : Option (Word × Word)
  runIn       : Nat
  runOut      : Nat
  runCmd      : Nat
  stateOk     : Bool
  divNotReady : Bool
  resync      : Option Word
  resyncEnd   : Option Word
  resyncFails : Nat
  resyncRetry : Bool
  storeQueue  : List (BitVec 20 × Word)
  snapAt      : Nat
  mirror      : List MirrorWait
  mirrorSeq   : Word
  xlSeq       : Word
  leaseSent   : Option XlLease
  leaseNs     : Nat
  notReady    : Bool
  readyWait   : Nat
  deriving DecidableEq, Repr

/-- The time counter (R366): seconds, nanoseconds, fraction, with the increment in force (R368); `up`, the nanoseconds since
AON power-up that intervals are counted in, which no step of the time base moves, with `stepAt` as it was at the last step (R369); and the servo (R370 to R378): the instant of the last accepted measurement, consecutive measurements within lock_limit, the integral term; per
ring port the Sync received last, the departure of the Delay_Req that is out and twice the path delays of the last 16
exchanges, with the instant of the last one; the port in use (0 none) and the Sync messages for which the other was better; the ring port
of the next Delay_Req; the last 16 echoes of MARK. -/
structure TimeState where
  sec       : Nat
  ns        : Nat
  frac      : Word
  incrNs    : Nat
  incrFrac  : Word
  up        : Nat
  stepAt    : Option Nat
  lastOkNs  : Option Nat
  goodRun   : Nat
  integral  : Rat
  syncs     : Option PtpSync × Option PtpSync
  dreqs     : Option Int × Option Int
  paths     : List Int × List Int
  ptpPort   : Nat
  betterRun : Nat
  exchNs    : Option Nat × Option Nat
  reqPort   : BitVec 1
  echoes    : List Nat
  deriving DecidableEq, Repr

/-- Latched copies of R9: (master, latching register, copied registers with values). -/
structure LatchCopy where
  master : Nat
  reg    : Nat
  copy   : List (Nat × Word)
  deriving DecidableEq, Repr

/-- The result of one access operation of a REQUEST (R397). -/
structure AccessResult where
  status : BitVec 16
  aux    : BitVec 16
  data   : List Word
  deriving DecidableEq, Repr

/-- A Dareri session (R393 to R400): its certificate, the kept requests as bytes with their responses, newest first, the time of
its last authenticated record, whether its interrupt condition was high when it was last looked at, and its count of
events. -/
structure Session where
  id      : Nat
  cert    : ClientCert
  cache   : List (List Byte × List AccessResult)
  lastNs  : Nat
  irqHigh : Bool
  events  : Word
  deriving DecidableEq, Repr

/-- A token bucket (R392): the tokens that are out, in bits or frames times 10^9, and when that was so. -/
structure Bucket where
  used : Nat
  atNs  : Nat
  deriving DecidableEq, Repr

/-- What the module drives at an SFP+ cage (R53, R54): RS0 and RS1 high, TX_DISABLE, and the cage's 3.3 V supply. -/
structure Cage where
  rs        : Bool
  txDisable : Bool
  supply    : Bool
  deriving DecidableEq, Repr

/-- The host interface (ch. 13): the two cages; the open sessions; the duplicate-discard table of HSR (R387) as (source, sequence, time
of the first copy), newest first; the token buckets of the ring ports (R392), four per port in the order of the table, and per port
the frames received and discarded since the window of R392 began; the instants of the ICMP answers of the last second (R390);
per stream the records formed since it was configured, and the data sets that its decimation still skips (R416); the active operations in the order of their starts (R408), with
per slot the starting master and the records that wait for room in the window (R410); `opDone` lists the running slots
whose work is complete; the busy mailboxes in the order of their go bits (R404), with per mailbox the
commanding master and the instant of go, and those whose holder is gone (R406). -/
structure HostState where
  cages     : Vector Cage 2
  sessions  : List Session
  seen      : List (BitVec 48 × BitVec 16 × Nat)
  buckets   : Vector Bucket 8
  window    : Vector (Nat × Nat) 2
  icmpAt    : List Nat
  streamSeq : Vector Nat 16
  streamSkip : Vector Nat 16
  opQueue   : List Nat
  opMaster  : Vector Nat 16
  opRest    : Vector (List (List Word)) 16
  opDone    : List Nat
  mbxOrder  : List Nat
  mbxMaster : Vector Nat 16
  mbxNs     : Vector Nat 16
  mbxOrphan : List Nat
  deriving DecidableEq, Repr

/-- A CAN port's part that the registers do not hold (ch. 14): the contents of the transmit buffers, which the
registers' shadows become at a commit (R429), the receive FIFO and the records of the frames sent with their stamps
(R430), whether a bus-off recovery runs (R435), and since when, counted from power-up, the port integrates or is in
bus-off, recovers, and holds its fixed transmit buffer suspended (R434, R435, R437, R476). -/
structure CanPort where
  bufs     : Vector CanFrame 32
  fifo     : List (CanFrame × Word)
  sent     : List (CanFrame × Word)
  recovers : Bool
  sinceNs  : Nat
  recNs    : Nat
  suspNs   : Nat
  deriving DecidableEq, Repr

/-- An event-log entry (R502). -/
structure LogEntry where
  seq    : Word
  sec    : Word
  ns     : Word
  cls    : Byte
  sev    : Byte
  code   : BitVec 16
  status : BitVec 16
  master : BitVec 16
  data0  : Word
  data1  : Word
  deriving DecidableEq, Repr

/-- A program slot of NOR1 (R28, R498). -/
structure ProgSlot where
  image : Option Image
  deriving DecidableEq, Repr

/-- The activation journal of firmware (R494, R495): `activating` between its entry and the reset that takes it, `trial`
with the number of boots tried, `confirming` the advance of the rollback counter to a value. -/
inductive Journal where
  | normal | activating
  | trial (tries : Nat)
  | confirming (dst : Nat)
  deriving DecidableEq, Repr

/-- A configuration copy (R500): its generation, the RWS registers' words and the program slot loaded at boot (4: the
reference control program). -/
structure ConfigCopy where
  gen      : Nat
  regs     : List (Nat × Word)
  bootSlot : Nat
  deriving DecidableEq, Repr

/-- The update session and the stores of Distaff (ch. 17); `loadedSlot` is the slot whose program the array holds. -/
structure MgmtState where
  log        : List LogEntry
  unarchived : Nat
  archive    : List LogEntry
  running    : Option Image
  confirmNs  : Option Nat
  staged     : Option Image
  stagePages : List (Nat × List Word)
  blockMap   : List Nat
  journal    : Journal
  verified   : Bool
  updOwner   : Nat
  updCert    : BitVec 64
  updNs      : Nat
  updLen     : Nat
  updDigest  : List Word
  jDigest    : Option (List Word)
  slots      : Vector ProgSlot 4
  calA       : SMap Word
  calB       : SMap Word
  cfgA       : Option ConfigCopy
  cfgB       : Option ConfigCopy
  bootSlot   : Nat
  loadedSlot : Nat
  keys       : Option KeyBundle
  wiped      : Nat
  deriving DecidableEq, Repr

/-- The storage of a remapped line that is out of use: its own cells, or those of the spare line (R453, R458). -/
inductive LineStore where
  | own (inst line : Nat)
  | spare (inst entry : Nat)
  deriving DecidableEq, Repr

/-- Memory integrity (ch. 15): the addresses of the poisoned code words; the words that Carder corrected in the pass
before and in this one, as (instance, word); the weak lines that wait for a remap, as (instance, line); the storage out
of use, with its bytes and the indices of its poisoned words; the place among the spare words of an instance; and the
lanes that the next frame to be frozen marks (R221); the upset code words that no reader has met yet, and the code words that the
present access found uncorrectable. -/
structure MemState where
  poison  : List Nat
  cePrev  : List (Nat × Nat)
  ceThis  : List (Nat × Nat)
  weak    : List (Nat × Nat)
  stash   : List (LineStore × List Byte × List Nat)
  spareAt : Option Nat
  inval   : List Nat
  upsets  : List Upset
  fresh   : List Nat
  deriving DecidableEq, Repr

/-- The frames of the cross-link by their bodies (R354). -/
inductive XlFrame where
  | cycle (f : XlCycle)
  | cmdx (f : XlCmdx)
  | digest (cycle : Word) (k : DigestKind) (v : Word)
  | slotx (seq : Word) (slots : List SlotRx) (recs : List RecordRx)
  | lease (f : XlLease)
  | mirror (seq : Word) (i : MirrorItem)
  | ack (seq : Word) (ok : Bool)
  | notice (n : NoticeKind)
  | snap (offset : Nat) (data : List Word) (poison : List Nat)
  | store (stores : List (BitVec 20 × Word))
  deriving DecidableEq, Repr

/-- The type code in a frame's header (R354). -/
def XlFrame.code : XlFrame → Nat
  | .cycle _ => 0x11 | .cmdx _ => 0x12 | .digest _ _ _ => 0x13 | .slotx _ _ _ => 0x14 | .lease _ => 0x15
  | .mirror _ _ => 0x16 | .ack _ _ => 0x17 | .notice _ => 0x18 | .snap _ _ _ => 0x19 | .store _ => 0x1A

/-- A message, frame or signal that leaves the module: to a session a Dareri message as its bytes (R396); on the chain, symbols from a port with the instant since power-up at which
the first one leaves, and the continuous run of STOP symbols. The log of them is the model's own: what leaves is otherwise
not in the state. -/
inductive Out where
  | chain (p : Port) (startNs : Nat) (syms : List Symbol)
  | stopGroups (p : Port) (on : Bool)
  | xl (source : BitVec 6) (seq : Word) (f : XlFrame)
  | xlMark
  | canTx (x : BitVec 1) (f : CanFrame)
  | dareri (s : Nat) (bytes : List Byte)
  | closeAlert (s : Nat)
  | arpReply (dst : BitVec 48)
  | icmpReply (dst : BitVec 48)
  | gratuitousArp (port : BitVec 1)
  | hsrForward (port : BitVec 1)
  | hsrDeliver (port : BitVec 1)
  | hsrSupervision (netId : Nat)
  | delayReq (port : BitVec 1)
  | tcForward (residence : Nat)
  | sourcePulse (c : Channel)
  | ppsPulse (ms : Nat)
  | trigPulse (us : Nat)
  | powerCycle (on : Bool)
  deriving DecidableEq, Repr

/-- The module without its command queue. -/
structure Mach where
  lifeCycle : LifeCycle
  runState  : RunState
  role      : Role
  ringBroken : Bool
  supply    : Supply
  law       : Bool
  refSrc    : RefSource
  regs      : SMap Word
  mem       : List Host.Cell
  power     : PowerState
  chain     : ChainState
  fly       : FlyState
  spin      : SpinState
  prog      : RefProgState
  sense     : SenseState
  safety    : SafetyState
  pair      : PairState
  time      : TimeState
  host      : HostState
  can0      : CanPort
  can1      : CanPort
  memi      : MemState
  mgmt      : MgmtState
  latches   : List LatchCopy
  out       : List Out
  answer    : BitVec 16 × Word × List Word
  freeTick  : Nat
  deriving DecidableEq, Repr

/-- The state of the block: the module and the queue of commands that are waiting, first in, first out. -/
structure State where
  mach    : Mach
  pending : List Instr
  deriving DecidableEq, Repr

/-- A command that does nothing: BLOCK. -/
def Command.block : Command := ⟨.block, 0, false⟩

/-- BYPASS without arm. -/
def Command.bypass : Command := ⟨.bypass, 0, false⟩

/-- A node's Flyer state at reset.
DESIGN CHOICE: log entry 8. -/
def FlyerLane.init : FlyerLane := ⟨0, 0, 0, 0, .block, 0, false, false⟩

/-- A node as at its power-up (R125, R128): BLOCK, in the ROM state.
DESIGN CHOICE: log entry 8. -/
def NodeModel.init : NodeModel :=
  { pos := none, applied := .block, fwd := none, rev := none, trimmed := none, stopSeen := false, stopLatched := false
    autoBlock := false, held := false, holdNs := 0, rom := true, bleed := 0, bleedNext := none, openWire := none, delayFwd := 0
    delayRev := 0, syncFwd := [], syncRev := [], lane := false, miss := 0, ovMv := 0, uvMv := 0, cfgD := 0, cfgT := 0
    quiet := false, blocks := [], verified := false, bootErr := 0, tripped := false, errSide0 := 0, errSide1 := 0
    mismatch := false, lanesApart := false, laneChanged := false }

/-- TRIM symbols at reset.
DESIGN CHOICE: log entry 8. -/
def HystState.init : HystState := ⟨none, none, 0, 0, false, false, 0, 0, 0, none, []⟩

/-- The precharge at reset.
DESIGN CHOICE: log entry 8. -/
def PrechargeState.init : PrechargeState := ⟨0, false, 0, 0⟩

/-- The Flyer at reset.
DESIGN CHOICE: log entry 8. -/
def FlyState.init : FlyState :=
  ⟨Vector.replicate 128 .init, none, 0, 0, 0, .init, .init, Vector.replicate 4 0, [], [], none⟩

/-- The canonical zero lane (R198, R212). -/
def Lane.zero : Lane := ⟨Vector.replicate 8 0, -128⟩

def LaneFlags.none : LaneFlags := ⟨false, false, false, false⟩

/-- The Spindle array at reset.
DESIGN CHOICE: log entry 8. -/
def SpinState.init : SpinState :=
  { s := Vector.replicate 32 0, v := Vector.replicate 32 (Vector.replicate 128 .zero)
    msk := Vector.replicate 8 (Vector.replicate 128 0)
    mx := Vector.replicate 4 (Vector.replicate 128 (Vector.replicate 8 .zero))
    flags := Vector.replicate 128 .none, loops := [], pc := 0, use := 0, ready := [], trim := none
    emitted := false, ctlRec := Vector.replicate 16 none, estGap := 0, estRan := false, fastRan := false, runPend := false
    stopPend := false, stopAt := none
    stLeft := 0, stPend := false, stateDig := none, swapAt := none
    refProg := false }

/-- BFP zero (R206). -/
def bfpZero : Word := 0x80

/-- The supervision of a source at reset.
DESIGN CHOICE: log entry 8. -/
def RefWatch.init : RefWatch := ⟨[], 0, 0, 0, true, false, []⟩

/-- The loop of the reference program at reset.
DESIGN CHOICE: log entry 8. -/
def RefLoop.init : RefLoop :=
  { runWas := 0, iM := bfpZero, vBus := bfpZero, iP1 := bfpZero, u := bfpZero, dH := bfpZero, cH := bfpZero, law := false
    lawTaken := false, blend := 0, refSrc := .hostSetpoint, bandBad := 0, ladder := 0, predict := 0, src := 0, next := none
    offset := bfpZero, q := bfpZero, r2 := bfpZero, r2nd := bfpZero, r2plain := bfpZero, nd := [], p := bfpZero, v := bfpZero, a := bfpZero
    target := bfpZero, held := false, injUsed := none, injOn := false, trimNode := none }

/-- The sums of a lea at reset.
DESIGN CHOICE: log entry 8. -/
def LeaSum.init : LeaSum := ⟨[], bfpZero, []⟩

/-- A cell at reset.
DESIGN CHOICE: log entry 8. -/
def CellEst.init : CellEst :=
  { soc := bfpZero, v1 := bfpZero, p00 := bfpZero, p01 := bfpZero, p11 := bfpZero, ready := false, cap := bfpZero, gates := 0
    calm := 0, bits := 0, pred := bfpZero, corr := bfpZero, tap := none, bleed := false, anchor := none, leakSoc := bfpZero
    leakQ := bfpZero, leakBad := false, r0 := none, r0Was := none, rBol := none, rRef := none, temp := none, offset := bfpZero
    rise := bfpZero, hiRun := 0, loRun := 0, flags := 0, sohR := bfpZero, lea := .init, leaRep := 0, short := false }

/-- A thermal position at reset.
DESIGN CHOICE: log entry 8. -/
def ThermEst.init : ThermEst := ⟨0, 0, [], 0, 0, none, bfpZero, bfpZero, [], 0, 0, 0, 0, none⟩

/-- A node of the estimation at reset.
DESIGN CHOICE: log entry 8. -/
def NodeEst.init : NodeEst :=
  { cells := Vector.replicate 6 .init, y := bfpZero, yAt := [], charge := bfpZero, lastAt := none, vTerm := none, mask := 0
    seq := 0, maskNs := 0, owReq := false, wires := Vector.replicate 7 0, signs := Vector.replicate 7 0, owBase := none
    owTest := none, hard := false, die := 0, thA := .init, thB := .init, noTemp := 0, lost := false, lea := .init, leaN := 0, hank := []
    reinit := 0, thNow := bfpZero }

/-- The estimation of the string at reset.
DESIGN CHOICE: log entry 8. -/
def EstGlobal.init : EstGlobal :=
  { secNs := 0, leakNs := 0, modeAt := none, leas := 0, leaMeans := [], hold := 0, holdDis := bfpZero, holdChg := bfpZero
    fChg := bfpZero, fDis := bfpZero, level := 0, below := 0, leaCount := 0, iDis := bfpZero, iChg := bfpZero, leaOn := false
    leaSq := Vector.replicate 128 bfpZero }

/-- The reference program's memory at reset.
DESIGN CHOICE: log entry 8. -/
def RefProgState.init : RefProgState :=
  { loop := .init, watch := Vector.replicate 3 .init, disagree := 0, disputed := none, params := [], est := [], prot := []
    nodes := Vector.replicate 128 .init, glob := .init, stopReq := 0 }

/-- A port at reset.
DESIGN CHOICE: log entry 8. -/
def PortState.init : PortState := ⟨0, 0, false, false, [], [], 0, false⟩

/-- Nothing on the wires: no lock, no node. -/
def noWalk : WalkResult := ⟨false, 0, 0, false, 0, 0, [], ⟨[], []⟩⟩

/-- The chain at reset.
DESIGN CHOICE: log entry 8. -/
def ChainState.init : ChainState :=
  { portA := .init, portB := .init, nodes := Vector.replicate 128 .init, ids := []
    lastSlot := Vector.replicate 128 none, lastRec := Vector.replicate 128 none
    slotAge := Vector.replicate 128 0, recAge := Vector.replicate 128 0, bothEnds := Vector.replicate 128 0
    rejoined := [], isolated := [], breakPend := false, frozen := false, lastMgmt := none, trans := 0, walkNo := 0
    job := none, found := noWalk, loaded := ⟨[], []⟩ }

/-- The sense interface at reset.
DESIGN CHOICE: log entry 8. -/
def SenseState.init : SenseState :=
  { frozen := false, data := none, pending := none, limits := 0, forceNs := 0, expired := false, isoNs := 0
    isoBrk := false, isoNowBrk := false, capHead := 0, capTotal := 0, capTrig := none, capTrigAt := [], capPrev := [], capStat := 0
    sc900 := 0, scGap := false, shTemp := 0, shRecord := [], fgLimNs := none, shBadNs := none, fgScaling := none, sweep := [], sweepAbort := false
    reqSeen := Vector.replicate 128 0, backRun := Vector.replicate 128 0, backFrom := 0, demSeq := 0, substSeen := [], warnSeen := [] }

/-- The pair at reset.
DESIGN CHOICE: log entry 8. -/
def PairState.init : PairState :=
  { formed := false, settle := false, settled := false, settleNs := 0, releasedNs := none, noticeNs := none, noticeCause := none
    handoverAt := none, cycleRx := none, cycleLate := false, cycleGap := 0, partnerLost := false, partnerClaim := false
    claimSeen := none, trainSeen := none, alike := false
    partnerProg := 0, partnerBank := 0, partnerSt := 0, cmdxRx := none, cmdxTime := false, slotxSlots := [], slotxRecs := []
    digIn := none, digOut := none, digState := none, runIn := 0, runOut := 0, runCmd := 0, stateOk := false
    divNotReady := false, resync := none, resyncEnd := none, resyncFails := 0, resyncRetry := false
    storeQueue := [], snapAt := 0, mirror := [], mirrorSeq := 0, xlSeq := 0, leaseSent := none, leaseNs := 0, notReady := false, readyWait := 0 }

/-- The host interface at reset.
DESIGN CHOICE: log entry 8. -/
def HostState.init : HostState :=
  { cages := Vector.replicate 2 ⟨false, true, true⟩, sessions := [], seen := [], buckets := Vector.replicate 8 ⟨0, 0⟩
    window := Vector.replicate 2 (0, 0), icmpAt := []
    streamSeq := Vector.replicate 16 0, streamSkip := Vector.replicate 16 0, opQueue := []
    opMaster := Vector.replicate 16 0, opRest := Vector.replicate 16 [], opDone := []
    mbxOrder := [], mbxMaster := Vector.replicate 16 0, mbxNs := Vector.replicate 16 0, mbxOrphan := [] }

def emptyCanFrame : CanFrame := ⟨0, 0, []⟩

/-- A CAN port at reset.
DESIGN CHOICE: log entry 8. -/
def CanPort.init : CanPort := ⟨Vector.replicate 32 emptyCanFrame, [], [], false, 0, 0, 0⟩

/-- The life-cycle logic, fuses and stores at the factory's end: no key, empty stores.
DESIGN CHOICE: log entry 7. -/
def MgmtState.init : MgmtState :=
  { log := [], unarchived := 0, archive := [], running := none, confirmNs := none
    staged := none, stagePages := [], blockMap := [], journal := .normal, verified := false, updOwner := 0
    updCert := 0, updNs := 0, updLen := 0, updDigest := [], jDigest := none, slots := Vector.replicate 4 ⟨none⟩, calA := [], calB := [], cfgA := none, cfgB := none
    bootSlot := 4, loadedSlot := 4, keys := none, wiped := 0 }

/-- Telegrams at reset.
DESIGN CHOICE: log entry 8. -/
def TelState.init : TelState := ⟨[], none, [], none, none, [], false, false, none, false, 0, [], 0⟩

/-- The safety island at reset.
DESIGN CHOICE: log entry 8. -/
def SafetyState.init : SafetyState :=
  { conds := [], latched := [], tripRule := none, tripOnNs := none, closeNs := none, doorOff := false
    retestDoor := none, retestEstop := none, aloneA := false
    aloneB := false, aloneBNs := 0, floopA := false, floopB := false, outFail := [], discOn := false, closeOn := false
    key := none, armedNs := none, paramForce := [], linkCount := 0, pulse := none
    shorts := (false, false), quietNs := none, tel := .init }

/-- Power and run control at reset.
DESIGN CHOICE: log entry 8. -/
def PowerState.init : PowerState :=
  { powered := false, bootDone := false, safeMode := false, distaffAbsent := true, restartWait := false, restarts := []
    guard := none, action := none, openReq := false, pwrCycleReq := false, mbxTimeouts := [], resetPend := none
    lifePend := false, shed := [], storeNs := 0, blockHold := false, startLeft := 0, joining := false, stopNs := none
    irRefCtrl := false, irRefComp := false, irCtrl := 0x01, irComp := 0x01, portRetried := []
    baseHot := 0, warnClear := 0, baseFailed := (false, false), slotPins := 0
    heldStandby := none, afterClose := none, modTemp := (0, 0), estSeen := false, settleBad := false, autoAt := []
    marks := [], modRead := none }

/-- The time base at reset.
DESIGN CHOICE: log entry 8. -/
def TimeState.init : TimeState :=
  { sec := 0, ns := 0, frac := 0, incrNs := 8, incrFrac := 0, up := 0, stepAt := none, lastOkNs := none, goodRun := 0, integral := 0
    syncs := (none, none), dreqs := (none, none), paths := ([], []), ptpPort := 0, betterRun := 0, exchNs := (none, none), reqPort := 0
    echoes := [] }

/-- Memory integrity at reset.
DESIGN CHOICE: log entry 8. -/
def MemState.init : MemState := ⟨[], [], [], [], [], none, [], [], []⟩

/-- The module as AON leaves reset, before the boot of R459: every switched domain off (R37), run state OFF, role
SOLO, every register at its reset word, no memory listed, the time base FREE from zero (R366).
DEDUCED: log entry 6. DESIGN CHOICE: log entry 7. -/
def Mach.reset : Mach :=
  { lifeCycle := .manufacture, runState := .off, role := .solo, ringBroken := false, supply := .normal, law := false
    refSrc := .hostSetpoint, regs := [], mem := [], power := .init, chain := .init, fly := .init, spin := .init
    prog := .init, sense := .init, safety := .init, pair := .init, time := .init, host := .init, can0 := .init
    can1 := .init, memi := .init, mgmt := .init, latches := [], out := [], answer := (0, 0, []), freeTick := 0 }

/-- The block after reset: no command waits.
DEDUCED: log entry 6. -/
def State.reset : State := { mach := Mach.reset, pending := [] }

/-- Why a step faults. No meaning of this model faults: the spec gives every command an effect. -/
inductive Fault where
  /-- Raised by nobody: kept so that the type is inhabited. Safe. -/
  | unreachable
  deriving DecidableEq, Repr

/-- Why a command is refused by the model. -/
inductive Refusal where
  /-- Raised by `exec` for a command that has no meaning in the model yet, under its mnemonic. Safe. -/
  | notModelled (mnemonic : String)
  deriving DecidableEq, Repr

end Sys2Proof.Machine
end

