-- ==== Sys2Proof/Machine/Ops.lean ====
section
/-!
DEFINITION. The shared operations: sparse maps, bytes and words of memory, registers and their fields, counters,
interrupt bits, time, cycle numbers, the event log and the list of what leaves the module.
-/

namespace Sys2Proof.Machine

/-! ## Sparse maps -/

/-- The value at an address: the entry there, or the default `d`. -/
def lookup {α : Type} (d : α) : SMap α → Nat → α
  | [], _ => d
  | (a, v) :: rest, k => if a < k then lookup d rest k else if a = k then v else d

/-- Drop the entries below `k`. -/
def dropBelow {α : Type} : SMap α → Nat → SMap α
  | [], _ => []
  | (a, v) :: rest, k => if a < k then dropBelow rest k else (a, v) :: rest

/-- Keep the entries before the first one at or above `k`. -/
def keepBelow {α : Type} : SMap α → Nat → SMap α
  | [], _ => []
  | (a, v) :: rest, k => if a < k then (a, v) :: keepBelow rest k else []

/-- Entries for the values `vs` from address `k` upward, leaving out those equal to the default of their address. -/
def cellsFrom {α : Type} [DecidableEq α] (d : Nat → α) : Nat → List α → SMap α
  | _, [] => []
  | k, v :: vs => if v = d k then cellsFrom d (k + 1) vs else (k, v) :: cellsFrom d (k + 1) vs

/-- Write the values `vs` at addresses `k`, `k + 1`, …; the canonical form is kept. -/
def putAll {α : Type} [DecidableEq α] (d : Nat → α) (m : SMap α) (k : Nat) (vs : List α) : SMap α :=
  keepBelow m k ++ cellsFrom d k vs ++ dropBelow m (k + vs.length)

/-- Write one value. -/
def put {α : Type} [DecidableEq α] (d : Nat → α) (m : SMap α) (k : Nat) (v : α) : SMap α :=
  putAll d m k [v]

/-- The canonical form: addresses strictly rising from `lo`, no entry equal to its default. -/
def canonicalFrom {α : Type} [DecidableEq α] (d : Nat → α) : Nat → SMap α → Bool
  | _, [] => true
  | lo, (a, v) :: rest => decide (lo ≤ a) && decide (v ≠ d a) && canonicalFrom d (a + 1) rest

/-- The canonical form of a whole map. -/
def canonical {α : Type} [DecidableEq α] (d : Nat → α) (m : SMap α) : Bool := canonicalFrom d 0 m

/-! ## Memory -/

/-- What an unlisted byte of SRAM reads as: zero, since every instance is zeroised (R24, R26).
DEDUCED: log entry 11. -/
def memDefault (_ : Nat) : Byte := 0

/-- The canonical form of memory.
DEDUCED: log entry 11. -/
def Memory.wf (m : List Host.Cell) : Bool := canonical memDefault m

/-- One byte of memory.
DEDUCED: log entry 11. -/
def readByte (m : List Host.Cell) (a : Nat) : Byte := lookup (memDefault a) m a

/-- Write consecutive bytes. -/
def writeBytes (m : List Host.Cell) (a : Nat) (bs : List Byte) : List Host.Cell := putAll memDefault m a bs

/-- The bytes of a word, most significant first (R205, R210). -/
def wordBytes (w : Word) : List Byte :=
  [(w >>> 24).setWidth 8, (w >>> 16).setWidth 8, (w >>> 8).setWidth 8, w.setWidth 8]

/-- The word of four bytes, most significant first. -/
def bytesWord (b3 b2 b1 b0 : Byte) : Word := b3 ++ b2 ++ b1 ++ b0

/-- The bytes of several words. -/
def wordsBytes (ws : List Word) : List Byte := ws.flatMap wordBytes

/-- The bytes of a 16-bit value, most significant first. -/
def halfBytes (h : BitVec 16) : List Byte := [(h >>> 8).setWidth 8, h.setWidth 8]

/-- The words of a list of bytes, a last partial word filled with zero bytes. -/
def bytesWords : List Byte → List Word
  | [] => []
  | [a] => [bytesWord a 0 0 0]
  | [a, b] => [bytesWord a b 0 0]
  | [a, b, c] => [bytesWord a b c 0]
  | a :: b :: c :: d :: rest => bytesWord a b c d :: bytesWords rest

/-- `n` bytes of memory from `a`. -/
def readBytes (m : List Host.Cell) (a n : Nat) : List Byte := (List.range n).map fun i => readByte m (a + i)

/-- One 32-bit word of memory. -/
def readMemWord (m : List Host.Cell) (a : Nat) : Word :=
  bytesWord (readByte m a) (readByte m (a + 1)) (readByte m (a + 2)) (readByte m (a + 3))

/-- `n` words of memory. -/
def readMemWords (m : List Host.Cell) (a n : Nat) : List Word :=
  (List.range n).map fun i => readMemWord m (a + 4 * i)

/-- Write one 32-bit word of memory. -/
def writeMemWord (m : List Host.Cell) (a : Nat) (w : Word) : List Host.Cell := writeBytes m a (wordBytes w)

/-- Write consecutive words. -/
def writeMemWords (m : List Host.Cell) (a : Nat) (ws : List Word) : List Host.Cell := writeBytes m a (wordsBytes ws)

/-! ## Address map (R25, R30) -/

/-- The first address of an SRAM instance that has one (R25); 0 for the private ones. -/
def instBase (i : Nat) : Nat :=
  if i < 13 then 0 else if i < 15 then 0x1100000 + (i - 13) * 0x20000 else if i = 15 then 0x1200000
  else if i < 24 then 0x1400000 + (i - 16) * 0x20000 else 0x2000000 + (i - 24) * 0x20000

/-- The instance that an address lies in; 0 for an address outside SRAM. -/
def instOf (a : Nat) : Nat :=
  if a < 0x1100000 then 0 else if a < 0x1200000 then 13 + (a - 0x1100000) / 0x20000
  else if a < 0x1400000 then 15 else if a < 0x2000000 then 16 + (a - 0x1400000) / 0x20000
  else 24 + (a - 0x2000000) / 0x20000

/-- The instance of a stash entry. -/
def LineStore.inst : LineStore → Nat
  | .own i _ => i | .spare i _ => i

def laneMemBase : Nat := 0x1400000
def progMemBase : Nat := 0x1100000
def bankABase : Nat := 0x1200000
def bankBBase : Nat := 0x1210000
def frameBase : Nat := 0x2000000
def skeinBase : Nat := 0x2200000

/-- The frame slot of a cycle (R205). -/
def frameAddr (cycle : Word) : Nat := frameBase + cycle.toNat % 256 * 0x2000

/-! ## Registers -/

/-- The row that holds an address, if a register lies there. -/
def regRow? (a : Nat) : Option RegRow := (blockRows (a / 0x10000 * 0x10000)).find? (·.has a)

/-- Offset and size of ring `r` in the packet and queue buffer (R415): sizes in KB from the first ring on. -/
def ringSizeKb (r : Nat) : Nat :=
  if r < 16 then 12 else if r < 20 then 8 else if r < 24 then 4 else if r < 26 then 8 else if r = 26 then 64
  else if r < 32 then 8 else if r < 48 then 16 else 1

/-- Offset in KB of ring `r` (R415), rings laid one after another. -/
def ringBaseKb (r : Nat) : Nat := ((List.range r).map ringSizeKb).sum

/-- The reset word of a register (R7), with the resets that the tables give in their text: the capture sources of
units 0 to 3 (R380) and the ring layout (R415).
DESIGN CHOICE: log entry 7. -/
def resetWord (a : Nat) : Word :=
  if a = 0x30200 then 1 else if a = 0x30210 then 4 else if a = 0x30220 then 5 else if a = 0x30230 then 6
  else if 0x50000 ≤ a ∧ a < 0x50400 ∧ a % 16 = 0 then BitVec.ofNat 32 (ringBaseKb ((a - 0x50000) / 16) * 1024)
  else if 0x50000 ≤ a ∧ a < 0x50400 ∧ a % 16 = 4 then BitVec.ofNat 32 (ringSizeKb ((a - 0x50000) / 16) * 1024)
  else ((regRow? a).map (·.reset)).getD 0

/-- The stored word of a register. -/
def Mach.rd (m : Mach) (a : Nat) : Word := lookup (resetWord a) m.regs a

/-- Store a register word. -/
def Mach.wr (m : Mach) (a : Nat) (w : Word) : Mach := { m with regs := put resetWord m.regs a w }

/-- Replace `width` bits of a word from `lsb` by a value. -/
def splice (w : Word) (lsb width v : Nat) : Word :=
  BitVec.ofNat 32 (w.toNat % 2 ^ lsb + v % 2 ^ width * 2 ^ lsb + w.toNat / 2 ^ (lsb + width) * 2 ^ (lsb + width))

/-- The field of a word. -/
def fieldOf (w : Word) (lsb width : Nat) : Nat := w.toNat / 2 ^ lsb % 2 ^ width

/-- The value of a field. -/
def Mach.get (m : Mach) (f : Field) : Nat := fieldOf (m.rd f.addr) f.lsb f.width

/-- A one-bit field as a Bool. -/
def Mach.flag (m : Mach) (f : Field) : Bool := m.get f != 0

/-- Set a field. -/
def Mach.set (m : Mach) (f : Field) (v : Nat) : Mach := m.wr f.addr (splice (m.rd f.addr) f.lsb f.width v)

/-- Set a one-bit field from a Bool. -/
def Mach.setB (m : Mach) (f : Field) (b : Bool) : Mach := m.set f b.toNat

/-- Set a one-bit field. -/
def Mach.on (m : Mach) (f : Field) : Mach := m.set f 1

/-- Clear a field. -/
def Mach.off (m : Mach) (f : Field) : Mach := m.set f 0

/-- Bit `i` of a register word. -/
def Mach.bit (m : Mach) (a i : Nat) : Bool := (m.rd a).getLsbD i

/-- Set or clear bit `i` of a register word. -/
def Mach.setBit (m : Mach) (a i : Nat) (b : Bool) : Mach := m.wr a (splice (m.rd a) i 1 b.toNat)

/-- Increment a counter that saturates at 0xFFFF_FFFF (R121, R159, R196 and the like). -/
def Mach.count (m : Mach) (a : Nat) : Mach :=
  m.wr a (if m.rd a = 0xFFFFFFFF then 0xFFFFFFFF else m.rd a + 1)

/-- Apply an update for each element of a list. -/
def Mach.each {α : Type} (m : Mach) (l : List α) (f : Mach → α → Mach) : Mach := l.foldl f m

/-- Apply an update when a condition holds.
DESIGN CHOICE: log entry 2. -/
def Mach.when (m : Mach) (c : Bool) (f : Mach → Mach) : Mach := if c then f m else m

/-- Clear the words at the given addresses. -/
def Mach.clearRegs (m : Mach) (as : List Nat) : Mach := m.each as fun m a => m.wr a 0

/-- Drop the listed registers from `lo` up to `hi`: they read as their reset words. -/
def Mach.resetRange (m : Mach) (lo hi : Nat) : Mach :=
  { m with regs := keepBelow m.regs lo ++ dropBelow m.regs hi }

/-! ## Time and cycles -/

/-- The time base in nanoseconds since its epoch (R366). -/
def Mach.nowNs (m : Mach) : Nat := m.time.sec * 1000000000 + m.time.ns

/-- Nanoseconds since AON power-up: what intervals are counted in, since a step of the time base does not move it. -/
def Mach.upNs (m : Mach) : Nat := m.time.up

/-- An interval begins now. -/
def Mach.mark (m : Mach) (t : Timer) : Mach :=
  { m with power := { m.power with marks := (t, m.upNs) :: m.power.marks.filter (·.1 != t) } }

/-- An interval is over. -/
def Mach.unmark (m : Mach) (t : Timer) : Mach :=
  { m with power := { m.power with marks := m.power.marks.filter (·.1 != t) } }

/-- When an interval began. -/
def Mach.markOf (m : Mach) (t : Timer) : Option Nat := (m.power.marks.find? (·.1 == t)).map (·.2)

/-- Move the time base forward to an instant; an instant already past leaves it. -/
def Mach.advanceTo (m : Mach) (ns : Nat) : Mach :=
  if ns ≤ m.nowNs then m
  else { m with time := { m.time with sec := ns / 1000000000, ns := ns % 1000000000, frac := 0
                                      up := m.time.up + (ns - m.nowNs) } }

/-- The cycle period in nanoseconds (FLY_CYCLE.period, R130). -/
def Mach.periodNs (m : Mach) : Nat := m.get F.FLY_CYCLE_period * 1000

/-- The phase φ in nanoseconds (R130). -/
def Mach.phaseNs (m : Mach) : Nat := m.get F.FLY_PHASE_phase_ns

/-- The number of the last sample instant at or before `t` (R130), as an unbounded integer. -/
def Mach.indexAt (m : Mach) (t : Nat) : Nat := (t - m.phaseNs) / m.periodNs

/-- The sample instant of index `n`. -/
def Mach.instantOf (m : Mach) (n : Nat) : Nat := n * m.periodNs + m.phaseNs

/-- The index of the first sample instant at or after `t`. -/
def Mach.firstIndexFrom (m : Mach) (t : Nat) : Nat := (t - m.phaseNs + (m.periodNs - 1)) / m.periodNs

/-- The cycle number of the present cycle. -/
def Mach.cycle (m : Mach) : Word := m.rd Reg.FLY_CYC_NUM

/-- The first cycle whose sample instant is at least `ns` from now. -/
def Mach.firstCycleAhead (m : Mach) (ns : Nat) : Word := BitVec.ofNat 32 (m.firstIndexFrom (m.nowNs + ns))

/-- How many cycles cycle `c` lies ahead of the last sample instant at or before now, modulo 2^32. -/
def Mach.cyclesAhead (m : Mach) (c : Word) : Nat := (c - BitVec.ofNat 32 (m.indexAt m.nowNs)).toNat

/-- The sample instant of cycle `c`, for a cycle ahead of now by less than 2^31. -/
def Mach.instantAhead (m : Mach) (c : Word) : Nat := m.instantOf (m.indexAt m.nowNs + m.cyclesAhead c)

/-- A named cycle is taken by R165 and R211: at least `ns` away, not past, and at most 65 535 cycles ahead. -/
def Mach.cycleNameOk (m : Mach) (c : Word) (ns : Nat) : Bool :=
  decide (1 ≤ m.cyclesAhead c) && decide (m.cyclesAhead c ≤ 65535) && decide (m.nowNs + ns ≤ m.instantAhead c)

/-! ## Axes and summary -/

def LifeCycle.code : LifeCycle → Nat
  | .manufacture => 0 | .provisioned => 1 | .field => 2 | .service => 3 | .decommissioned => 4

def RunState.code : RunState → Nat
  | .off => 0 | .starting => 1 | .precharge => 2 | .run => 3 | .stopping => 4 | .safeHold => 5 | .faultLatched => 6

def RunState.ofCode (n : Nat) : RunState :=
  if n = 1 then .starting else if n = 2 then .precharge else if n = 3 then .run else if n = 4 then .stopping
  else if n = 5 then .safeHold else if n = 6 then .faultLatched else .off

def Role.code : Role → Nat
  | .solo => 0 | .active => 1 | .standby => 2

def Supply.code : Supply → Nat
  | .normal => 0 | .brownoutWarning => 1 | .holdup => 2

def RefSource.code : RefSource → Nat
  | .hostSetpoint => 0 | .busDroop => 1 | .combined => 2

def RefSource.ofCode (n : Nat) : RefSource := if n = 1 then .busDroop else if n = 2 then .combined else .hostSetpoint

def NodeCmd.code : NodeCmd → Nat
  | .insert => 0 | .bypass => 1 | .block => 2 | .trim => 3

def NodeCmd.ofCode (n : Nat) : NodeCmd :=
  if n = 0 then .insert else if n = 1 then .bypass else if n = 2 then .block else .trim

/-- N, the number of nodes (CHA_CFG.nodes), never above 128. -/
def Mach.nodeCount (m : Mach) : Nat := min 128 (m.get (F.CH_CFG_nodes 0))

/-- BRK_AUX reports the breaker closed: both channels read it on (R332). -/
def Mach.brkClosed (m : Mach) : Bool := m.flag F.SAF_INPUT_brk_aux_a && m.flag F.SAF_INPUT_brk_aux_b

/-- A node is in INSERT or TRIM. -/
def Command.live (c : Command) : Bool := c.cmd == .insert || c.cmd == .trim

/-- A node is in INSERT or TRIM: by its command, or by the TRIM symbol in force (R125).
DEDUCED: log entry 21. -/
def NodeModel.live (n : NodeModel) : Bool :=
  match n.trimmed with
  | some .ins => true
  | some .byp => false
  | _ => n.applied.live

/-- Some node is in INSERT or TRIM. -/
def Mach.anyLive (m : Mach) : Bool := (m.chain.nodes.toList.take m.nodeCount).any (·.live)

/-- GLB_STATUS.energised (R34). -/
def Mach.energised (m : Mach) : Bool := m.brkClosed || m.anyLive

/-- Cycles run: FLY_CTRL.cyc_en. -/
def Mach.cyclesOn (m : Mach) : Bool := m.flag F.FLY_CTRL_cyc_en

/-- GLB_STATUS as a snapshot of the axes (R34). -/
def Mach.glbStatus (m : Mach) : Word :=
  BitVec.ofNat 32 (m.lifeCycle.code * 2 ^ 29 + m.runState.code * 2 ^ 26 + m.role.code * 2 ^ 24
    + m.ringBroken.toNat * 2 ^ 23 + m.supply.code * 2 ^ 21 + m.law.toNat * 2 ^ 20 + m.refSrc.code * 2 ^ 18
    + m.energised.toNat * 2 ^ 17 + (m.mgmt.updOwner != 0).toNat * 2 ^ 16)

/-! ## Log and messages -/

/-- Record that a message or frame leaves the module.
DESIGN CHOICE: log entry 10. -/
def Mach.send (m : Mach) (o : Out) : Mach := { m with out := o :: m.out }

/-- Write an event-log entry (R502): the sequence is stored before the entry that uses it, the ring holds 16 384. The code
is `ev` for safety, resets and host markers; for the other classes `ev` numbers the event and the code is open.
DESIGN CHOICE: log entry 40. -/
def Mach.log (m : Mach) (cls : Byte) (ev : Nat) (master : Nat := 0) (d0 d1 : Word := 0) : Mach :=
  let code := if cls = 1 ∨ cls = 9 ∨ cls = 10 then BitVec.ofNat 16 ev else Config.logCode cls ev
  let e : LogEntry := { seq := m.rd Reg.MGT_LOG_SEQ, sec := BitVec.ofNat 32 m.time.sec, ns := BitVec.ofNat 32 m.time.ns
                        cls := cls, sev := Config.logSeverity cls ev, code := code
                        status := (m.glbStatus >>> 16).setWidth 16
                        master := BitVec.ofNat 16 master, data0 := d0, data1 := d1 }
  let lost := m.mgmt.unarchived = 16384
  let m := m.wr Reg.MGT_LOG_SEQ (m.rd Reg.MGT_LOG_SEQ + 1)
  let m := { m with mgmt := { m.mgmt with log := (e :: m.mgmt.log).take 16384
                                          unarchived := min 16384 (m.mgmt.unarchived + 1) } }
  if lost then (m.count Reg.MGT_CNT_LOG_LOST).on F.MGT_IRQ_STAT_log_lost else m

/-- Add an element to a list without repeats. -/
def addOnce {α : Type} [DecidableEq α] (l : List α) (a : α) : List α := if a ∈ l then l else l ++ [a]

/-- Remove an element. -/
def drop1 {α : Type} [DecidableEq α] (l : List α) (a : α) : List α := l.filter (· != a)

/-! ## Free values -/

/-- The next free value: the counter advances.
DESIGN CHOICE: log entry 9. -/
def Mach.freeTicked (m : Mach) : Mach := { m with freeTick := m.freeTick + 1 }

/-- The free value at the counter.
DESIGN CHOICE: log entry 9. -/
def Mach.freeNow (m : Mach) : Word := Config.freeValue m.freeTick

/-! ## Answers of accesses (R10, R402, R417) -/

def Err.ok : BitVec 16 := 0x0000
def Err.refusedState : BitVec 16 := 0x0001
def Err.refusedValue : BitVec 16 := 0x0002
def Err.badAddress : BitVec 16 := 0x0003
def Err.align : BitVec 16 := 0x0004
def Err.domainOff : BitVec 16 := 0x0005
def Err.zeroising : BitVec 16 := 0x0006
def Err.notOwner : BitVec 16 := 0x0007
def Err.busy : BitVec 16 := 0x0008
def Err.locked : BitVec 16 := 0x0009
def Err.arrayRunning : BitVec 16 := 0x000A
def Err.poison : BitVec 16 := 0x000B
def Err.timeout : BitVec 16 := 0x000C
def Err.receiverReset : BitVec 16 := 0x000D
def Err.aborted : BitVec 16 := 0x000E
def Err.notExecuted : BitVec 16 := 0x000F
def Err.lifeCycle : BitVec 16 := 0x0010
def Err.role : BitVec 16 := 0x0011
def Err.noProgram : BitVec 16 := 0x0012
def Err.supply : BitVec 16 := 0x0013
def Err.energised : BitVec 16 := 0x0014
def Err.noPermit : BitVec 16 := 0x0015
def Err.protection : BitVec 16 := 0x0016
def Err.timing : BitVec 16 := 0x0017
def Err.pair : BitVec 16 := 0x0018
def Err.config : BitVec 16 := 0x0019
def Err.chain : BitVec 16 := 0x001A
def Err.nodeNack : BitVec 16 := 0x001B
def Err.nodeNoResponse : BitVec 16 := 0x001C
def Err.badOpcode : BitVec 16 := 0x0020
def Err.badLength : BitVec 16 := 0x0021
def Err.duplicateTag : BitVec 16 := 0x0022
def Err.signature : BitVec 16 := 0x0030
def Err.rollback : BitVec 16 := 0x0031
def Err.image : BitVec 16 := 0x0032
def Err.flash : BitVec 16 := 0x0033
def Err.verify : BitVec 16 := 0x0034
def Err.noSession : BitVec 16 := 0x0035
def Err.key : BitVec 16 := 0x0036

/-- Answer the access in progress with a code and aux; nothing else changes (R10).
DESIGN CHOICE: log entry 10. -/
def Mach.refuse (m : Mach) (code : BitVec 16) (aux : Word := 0) : Mach := { m with answer := (code, aux, []) }

/-- Answer the access in progress with OK and the words read.
DESIGN CHOICE: log entry 10. -/
def Mach.ok (m : Mach) (ws : List Word := []) : Mach := { m with answer := (0, 0, ws) }

/-- A command's effect on the module as an outcome: the next state; the queue is not touched.
DESIGN CHOICE: log entry 2. -/
def eff (s : State) (m : Mach) : Host.Outcome State Fault Refusal := .next { s with mach := m }

end Sys2Proof.Machine
end

