-- ==== Sys2Proof/Machine/Crc.lean ====
section
/-!
DEFINITION. The check codes of R96 and R339: bits enter most significant first, CRC-32C is reflected.
-/

namespace Sys2Proof.Machine

/-- One bit into a code that is not reflected. -/
def crcBit {w : Nat} (poly c : BitVec w) (b : Bool) : BitVec w :=
  if (c.msb ^^ b) then (c <<< 1) ^^^ poly else c <<< 1

/-- The bits of a value, most significant first. -/
def msbBits {w : Nat} (v : BitVec w) : List Bool := (List.range w).map fun i => v.getLsbD (w - 1 - i)

/-- A code over a list of bits from an initial value. -/
def crcBits {w : Nat} (poly init : BitVec w) (bs : List Bool) : BitVec w := bs.foldl (crcBit poly) init

/-- The bits of a list of bytes. -/
def byteBits (bs : List Byte) : List Bool := bs.flatMap msbBits

/-- One byte into the reflected CRC-32C: polynomial 0x1EDC_6F41 reversed. -/
def crc32cByte (c : Word) (b : Byte) : Word :=
  (List.range 8).foldl (fun c _ => if c.getLsbD 0 then (c >>> 1) ^^^ 0x82F63B78#32 else c >>> 1) (c ^^^ b.setWidth 32)

/-- CRC-32C of a list of bytes (R96). -/
def crc32c (bs : List Byte) : Word := bs.foldl crc32cByte 0xFFFFFFFF ^^^ 0xFFFFFFFF

/-- CRC-16 of a list of bytes (R96). -/
def crc16 (bs : List Byte) : BitVec 16 := crcBits 0x1021 0xFFFF (byteBits bs)

/-- CRC-8 of an uplink slot: bits 31 to 8, then the position, then sequence [7:0] (R96). -/
def slotCrc (slot : Word) (pos : Nat) (seq : Word) : Byte :=
  crcBits 0x2F 0xFF (msbBits ((slot >>> 8).setWidth 24) ++ msbBits (BitVec.ofNat 8 pos) ++ msbBits (seq.setWidth 8))

/-- CRC-6 of a command slot: bits 15 to 6, then the position, then sequence [7:0] (R96). -/
def cmdCrc (slot : BitVec 16) (pos : Nat) (seq : Word) : BitVec 6 :=
  crcBits 0x27 0x3F (msbBits ((slot >>> 6).setWidth 10) ++ msbBits (BitVec.ofNat 8 pos) ++ msbBits (seq.setWidth 8))

/-- The safety CRC of a telegram's bytes 0 to 27 (R339). -/
def safetyCrc (bs : List Byte) : Word := crcBits 0x741B8CD7 0xFFFFFFFF (byteBits bs) ^^^ 0xFFFFFFFF

/-- CRC-32C over words, most significant byte first (R210, R346). -/
def crcWords (ws : List Word) : Word := crc32c (wordsBytes ws)

end Sys2Proof.Machine
end

