-- ==== Sys2Proof/Machine/ChainFrame.lean ====
section
/-!
DEFINITION. The line code and the frames of the Privor chain (R91 to R104): control symbols, the layout with its check codes, the
six frame types, what a receiver makes of a stream of symbols, and the fields of a received train.
-/

namespace Sys2Proof.Machine

/-! ## Control symbols (R91) -/

def ctlComma : Byte := 0xBC
def ctlSof : Byte := 0xFB
def ctlEof : Byte := 0xFD
def ctlEofBad : Byte := 0xFE
def ctlStop : Byte := 0x1C
def ctlMark : Byte := 0x9C
def ctlTurn : Byte := 0xDC

/-- The code of a TRIM symbol. -/
def TrimSym.code : TrimSym → Byte
  | .ins => 0x3C | .byp => 0x5C | .rel => 0x7C

/-- The control codes that are not used: a receiver counts them as code violations. -/
def unusedCodes : List Byte := [0xFC, 0xF7]

/-- A code violation (R91, R115). -/
def Symbol.violates : Symbol → Bool
  | .bad => true
  | .ctl c => decide (c ∈ unusedCodes)
  | .data _ => false

/-- The code violations of a stream. -/
def violations (l : List Symbol) : Nat := (l.filter Symbol.violates).length

/-- What a receiver removes before it assembles frame bytes: the priority symbols (R92), and MARK and TURN notices, which stand
for themselves.
DESIGN CHOICE: log entry 69. -/
def frameSymbols : List Symbol → List Symbol
  | [] => []
  | .ctl c :: rest =>
    if c = ctlTurn then match rest with | _ :: rest => frameSymbols rest | [] => []
    else if c = ctlStop ∨ c = ctlMark ∨ c = TrimSym.ins.code ∨ c = TrimSym.byp.code ∨ c = TrimSym.rel.code then frameSymbols rest
    else .ctl c :: frameSymbols rest
  | x :: rest => x :: frameSymbols rest

/-! ## The frame (R93 to R96) -/

/-- A frame (R93), but for sof, the check codes and eof, which follow from it. -/
structure ChainFrame where
  kind    : Byte
  source  : BitVec 6
  claim   : Bool
  relay   : Bool
  carrier : Bool
  turned  : Bool
  seq     : Word
  countA  : Byte
  countB  : Byte
  param   : Word
  body    : List Byte
  tail    : List Byte
  hops    : Byte
  errs    : Byte
  deriving DecidableEq, Repr

/-- The frame types (R94). -/
def kindSync : Byte := 0x01
def kindUplink : Byte := 0x02
def kindCmd : Byte := 0x03
def kindMgmt : Byte := 0x04
def kindBoot : Byte := 0x05
def kindEnum : Byte := 0x06

/-- The flags byte (R93). -/
def ChainFrame.flags (f : ChainFrame) : Byte :=
  BitVec.ofNat 8 (f.claim.toNat * 0x80 + f.relay.toNat * 0x40 + f.carrier.toNat * 0x20 + f.turned.toNat * 0x10)

/-- Offsets 1 to 13. -/
def ChainFrame.header (f : ChainFrame) : List Byte :=
  [f.kind, f.source.setWidth 8, f.flags] ++ wordBytes f.seq ++ [f.countA, f.countB] ++ wordBytes f.param

/-- tcheck: NOT of (hops XOR bad). -/
def ChainFrame.tcheck (f : ChainFrame) : Byte := ~~~(f.hops ^^^ f.errs)

/-- Offsets 1 to 22 + B + E, with hcrc over the header and bcrc over the body (R96). -/
def ChainFrame.bytes (f : ChainFrame) : List Byte :=
  f.header ++ halfBytes (crc16 f.header) ++ f.body ++ wordBytes (crc32c f.body) ++ f.tail ++ [f.hops, f.errs, f.tcheck]

/-- A frame as symbols, from SOF to EOF. -/
def ChainFrame.symbols (f : ChainFrame) : List Symbol := [.ctl ctlSof] ++ f.bytes.map .data ++ [.ctl ctlEof]

/-- The symbols of a frame: 24 + B + E (R93). -/
def ChainFrame.size (f : ChainFrame) : Nat := 24 + f.body.length + f.tail.length

/-! ## The six types (R98 to R104) -/

/-- What every frame of a launching module has in common: its slot code and its claim bit (R95). -/
structure Launcher where
  source : BitVec 6
  claim  : Bool
  relay  : Bool
  deriving DecidableEq, Repr

/-- A frame of a type as a port launches it: hops and bad are 0. -/
def Launcher.frame (l : Launcher) (kind : Byte) (seq : Word) (countA countB : Nat) (param : Word) (body : List Byte) :
    ChainFrame :=
  { kind := kind, source := l.source, claim := l.claim, relay := l.relay, carrier := false, turned := false, seq := seq
    countA := BitVec.ofNat 8 countA, countB := BitVec.ofNat 8 countB, param := param, body := body, tail := [], hops := 0
    errs := 0 }

/-- SYNC (R98): cycle, period in µs, divider, lead in ns, and the announced instant in ns. -/
def syncFrame (l : Launcher) (cycle : Word) (t d lead instant : Nat) : ChainFrame :=
  l.frame kindSync cycle t d (BitVec.ofNat 32 lead)
    (wordBytes (BitVec.ofNat 32 (instant / 1000000000)) ++ wordBytes (BitVec.ofNat 32 (instant % 1000000000)))

/-- UPLINK (R99): every slot leaves unwritten. -/
def uplinkFrame (l : Launcher) (cycle : Word) (n : Nat) : ChainFrame :=
  l.frame kindUplink cycle n 0 0 (List.replicate (4 * n) 0xFF)

/-- The records of a command train: ceil(N / D) (R101). -/
def tailRecords (n d : Nat) : Nat := (n + d - 1) / d

/-- CMD (R100): the slots, and a tail of unwritten records. -/
def cmdFrame (l : Launcher) (cycle : Word) (n d : Nat) (slots : List (BitVec 16)) : ChainFrame :=
  { l.frame kindCmd cycle n (tailRecords n d) 0 (slots.flatMap halfBytes) with
    tail := List.replicate (24 * tailRecords n d) 0xFF }

/-- A carrier train (R100): void slots. -/
def carrierFrame (l : Launcher) (cycle : Word) (n d : Nat) : ChainFrame :=
  { cmdFrame l cycle n d (List.replicate n 0xFFFF) with carrier := true }

/-- MGMT (R102): destination, opcode, address, request data of a multiple of 4 bytes, response length M. -/
def mgmtFrame (l : Launcher) (trans : Word) (dest : Nat) (op : Byte) (addr : Nat) (req : List Byte) (m : Nat) : ChainFrame :=
  l.frame kindMgmt trans dest req.length (BitVec.ofNat 32 (op.toNat * 2 ^ 24 + m * 2 ^ 16 + addr % 2 ^ 16))
    (req ++ List.replicate 8 0 ++ [0xFF, 0, 0, 0] ++ List.replicate m 0)

/-- BOOT (R103): the subtype, the identity it is for, the offset or length, and the body. -/
def bootFrame (l : Launcher) (dest sub : Nat) (vendor ntype : BitVec 16) (param : Nat) (body : List Byte) : ChainFrame :=
  l.frame kindBoot (vendor ++ ntype) dest sub (BitVec.ofNat 32 param) body

/-- ENUM (R104): the subtype, and count, base and target. -/
def enumFrame (l : Launcher) (walk : Word) (sub count base target : Nat) : ChainFrame :=
  l.frame kindEnum walk sub 0 0 [BitVec.ofNat 8 count, BitVec.ofNat 8 base, BitVec.ofNat 8 target, 0]

/-- The opcodes of MGMT. -/
def opRead : Byte := 0x01
def opWrite : Byte := 0x02
def opBleed : Byte := 0x03
def opOpenWire : Byte := 0x04
def opStopClear : Byte := 0x05
def opTiming : Byte := 0x06
def opReset : Byte := 0x07

/-- Request data filled up to a multiple of 4 bytes. -/
def padReq (bs : List Byte) : List Byte := bs ++ List.replicate ((4 - bs.length % 4) % 4) 0

/-- The data of TIMING: forward-lane and reverse-lane delay. -/
def timingReq (fwd rev : Nat) : List Byte := halfBytes (BitVec.ofNat 16 fwd) ++ halfBytes (BitVec.ofNat 16 rev)

/-! ## Received frames (R93, R108) -/

/-- Bytes of a received frame; none where a symbol was not a data byte. -/
abbrev RxBytes := List (Option Byte)

/-- A field whose bytes have all been received. -/
def field? (l : RxBytes) (o n : Nat) : Option (List Byte) :=
  let xs := (l.drop o).take n
  if xs.length = n then xs.mapM id else none

/-- The bytes between SOF and the end of the frame, whether its end has come, and whether that is EOF_BAD. -/
def takeFrame : List Symbol → RxBytes × Bool × Bool
  | [] => ([], false, false)
  | x :: rest =>
    match x with
    | .ctl c =>
      if c = ctlEof then ([], true, false)
      else if c = ctlEofBad then ([], true, true)
      else let r := takeFrame rest; (none :: r.1, r.2)
    | .data b => let r := takeFrame rest; (some b :: r.1, r.2)
    | .bad => let r := takeFrame rest; (none :: r.1, r.2)

/-- The part of a stream after its first SOF. -/
def afterSof : List Symbol → List Symbol
  | [] => []
  | x :: rest => if x = .ctl ctlSof then rest else afterSof rest

/-- A received frame: its header when hcrc is good, the bytes from offset 1 on, and how it ended. -/
structure ChainRx where
  header : Option ChainFrame
  bytes  : RxBytes
  whole  : Bool
  eofBad : Bool
  deriving DecidableEq, Repr

/-- The header of the bytes from offset 1 on, checked by hcrc (R96). -/
def parseHeader (bs : RxBytes) : Option ChainFrame := do
  let h ← field? bs 0 13
  let c ← field? bs 13 2
  if halfBytes (crc16 h) = c then
    let b := fun i => h.getD i 0
    let word := fun i => (b i ++ b (i + 1) ++ b (i + 2) ++ b (i + 3) : BitVec 32)
    some { kind := b 0, source := (b 1).setWidth 6, claim := (b 2).getLsbD 7, relay := (b 2).getLsbD 6
           carrier := (b 2).getLsbD 5, turned := (b 2).getLsbD 4, seq := word 3, countA := b 7, countB := b 8
           param := word 9, body := [], tail := [], hops := 0, errs := 0 }
  else none

/-- What a port makes of the symbols that it receives. -/
def receiveFrame (syms : List Symbol) : ChainRx :=
  let r := takeFrame (afterSof (frameSymbols syms))
  ⟨parseHeader r.1, r.1, r.2.1, r.2.2⟩

/-- The trailer of a whole frame whose tcheck is good: hops and bad. -/
def ChainRx.trailer (r : ChainRx) : Option (Nat × Nat) := do
  let t ← field? r.bytes (r.bytes.length - 3) 3
  if r.whole ∧ t.getD 2 0 = ~~~(t.getD 0 0 ^^^ t.getD 1 0) then some ((t.getD 0 0).toNat, (t.getD 1 0).toNat) else none

/-- The body of `n` bytes is good by its bcrc. -/
def ChainRx.bodyOk (r : ChainRx) (n : Nat) : Bool :=
  match field? r.bytes 15 n, field? r.bytes (15 + n) 4 with
  | some b, some c => wordBytes (crc32c b) == c
  | _, _ => false

/-- Four bytes as a word. -/
def wordOf (bs : List Byte) : Word := bs.getD 0 0 ++ bs.getD 1 0 ++ bs.getD 2 0 ++ bs.getD 3 0

/-- The slots of an uplink train of `n` positions, as far as they have been received (R99). -/
def ChainRx.slots (r : ChainRx) (n : Nat) : List SlotRx :=
  (List.range n).filterMap fun p => (field? r.bytes (15 + 4 * p) 4).map fun b => ⟨p, wordOf b⟩

/-- The command slots of a command train of `n` positions (R100). -/
def ChainRx.commands (r : ChainRx) (n : Nat) : List (BitVec 16) :=
  (List.range n).map fun p => ((field? r.bytes (15 + 2 * p) 2).map fun b => (b.getD 0 0 ++ b.getD 1 0 : BitVec 16)).getD 0xFFFF

/-- The tail records of a command train of `n` positions with divider `d`, by their tail index (R101). -/
def ChainRx.records (r : ChainRx) (n d : Nat) : List (Nat × List Word) :=
  (List.range (tailRecords n d)).filterMap fun k =>
    (field? r.bytes (19 + 2 * n + 24 * k) 24).map fun b => (k, (List.range 6).map fun i => wordOf (b.drop (4 * i)))

/-- What the module looks at in a received train (R93, R108): `hops` and `bad` are none where tcheck fails or the end has not
come. -/
structure FrameCheck where
  hdrOk   : Bool
  kind    : Byte
  seq     : Word
  source  : BitVec 6
  claim   : Bool
  relay   : Bool
  carrier : Bool
  turned  : Bool
  hops    : Option Nat
  bad     : Nat
  eofBad  : Bool
  late    : Bool
  deriving DecidableEq, Repr

/-- The checks of a received frame. -/
def ChainRx.check (r : ChainRx) (late : Bool) : FrameCheck :=
  let t := r.trailer
  match r.header with
  | some h => ⟨true, h.kind, h.seq, h.source, h.claim, h.relay, h.carrier, h.turned, t.map (·.1), (t.map (·.2)).getD 0,
      r.eofBad, late⟩
  | none => ⟨false, 0, 0, 0, false, false, false, false, none, 0, r.eofBad, late⟩

/-- The response of an MGMT frame (R102): the request length gives its place, bcrc must be good. -/
def ChainRx.response (r : ChainRx) : Option MgmtResp := do
  let h ← r.header
  let l := h.countB.toNat
  let m := fieldOf h.param 16 8
  let a ← field? r.bytes (15 + l + 8) (4 + m)
  if h.kind = kindMgmt ∧ r.bodyOk (l + 12 + m) then some ⟨(a.getD 1 0).toNat, a.getD 0 0, a.getD 2 0, a.drop 4⟩ else none

end Sys2Proof.Machine
end

