-- ==== Sys2Proof/Machine/Node.lean ====
section
/-!
DEFINITION. The node profile as far as the module drives nodes (R92, R99 to R109, R125 to R129): what a node does with symbols,
SYNC and command frames, MGMT, BOOT and ENUM, at its sample instant and while no command applies, and what its management space
holds.
-/

namespace Sys2Proof.Machine

/-! ## States and timers (R125) -/

/-- BLOCK, with no command waiting. -/
def NodeModel.blocked (n : NodeModel) : NodeModel :=
  { n with applied := .block, fwd := none, rev := none, trimmed := none }

/-- Two STOP symbols: BLOCK with the stop latch set. -/
def NodeModel.stop (n : NodeModel) : NodeModel := { n.blocked with stopLatched := true }

/-- A node whose fault-loop current is lost enters autonomous BLOCK. -/
def NodeModel.loopLost (n : NodeModel) : NodeModel := { n.blocked with autoBlock := true }

/-- The time a node may stay without a command before it enters BLOCK by itself. -/
def blockAfterNs : Nat := 1100000

/-- The time without a command from which a node freezes. -/
def freezeAfterNs : Nat := 100000

/-- The frozen command: TRIM becomes INSERT for a duty of 64 or more and BYPASS below, arm is ignored. -/
def Command.frozen (c : Command) : Command :=
  if c.cmd = .trim then ⟨if 64 ≤ c.duty.toNat then .insert else .bypass, c.duty, false⟩ else { c with arm := false }

/-- A node's hold timer after `ns` more nanoseconds without a command: from 100 µs it freezes, from 1.1 ms it is in autonomous
BLOCK. A node in its ROM state is in BLOCK and has no timer.
DEDUCED: log entry 28. DESIGN CHOICE: log entry 1. -/
def NodeModel.wait (n : NodeModel) (ns : Nat) : NodeModel :=
  if n.rom then n
  else
    let h := min blockAfterNs (n.holdNs + ns)
    if blockAfterNs ≤ h then { n.blocked with autoBlock := true, holdNs := h, held := true }
    else if freezeAfterNs ≤ h then { n with applied := n.applied.frozen, trimmed := none, holdNs := h, held := true }
    else { n with holdNs := h }

/-- A node takes STOP_CLEAR: its latches end where their cause has gone; it holds BLOCK. -/
def NodeModel.release (n : NodeModel) (stop loopOpen : Bool) : NodeModel :=
  let n := { n with stopLatched := n.stopLatched && stop, autoBlock := n.autoBlock && loopOpen }
  if n.stopLatched || n.autoBlock then n else { n.blocked with held := true, holdNs := 0 }

/-! ## Symbols (R92) -/

/-- A node takes a TRIM symbol: armed and not frozen, it is inserted, bypassed or returned to its command.
DEDUCED: log entry 28. -/
def NodeModel.trimSym (n : NodeModel) (s : TrimSym) : NodeModel :=
  if n.applied.arm && !n.autoBlock && !n.stopLatched then { n with trimmed := if s = .rel then none else some s } else n

/-- A node receives a symbol: it acts on the second of two STOP symbols directly after each other, and on each TRIM symbol. -/
def NodeModel.symbol (n : NodeModel) (x : Symbol) : NodeModel :=
  if x = .ctl ctlStop then if n.stopSeen then n.stop else { n with stopSeen := true }
  else
    let n := { n with stopSeen := false }
    if x = .ctl TrimSym.ins.code then n.trimSym .ins
    else if x = .ctl TrimSym.byp.code then n.trimSym .byp
    else if x = .ctl TrimSym.rel.code then n.trimSym .rel
    else n

/-- A node receives symbols one after another. -/
def NodeModel.symbols (n : NodeModel) (l : List Symbol) : NodeModel := l.foldl NodeModel.symbol n

/-! ## Sample instants and commands (R106, R109) -/

/-- A frame that a node may act on as a command or SYNC: from the claim holder or a relay, no carrier, not turned.
DEDUCED: log entry 28 for SYNC. -/
def ChainFrame.acts (f : ChainFrame) : Bool := (f.claim || f.relay) && !f.carrier && !f.turned

/-- The delay of a lane, as TIMING wrote it, in 0.25 ns. -/
def NodeModel.delay (n : NodeModel) (rev : Bool) : Int := ((if rev then n.delayRev else n.delayFwd).toNat : Nat)

/-- SYNC arrives on a lane at `a` (0.25 ns): the announced instant is a + L − d. Lanes that differ by more than 16 ns are
flagged. -/
def NodeModel.sync (n : NodeModel) (rev : Bool) (cycle : Word) (a : Int) (lead : Nat) : NodeModel :=
  let t := a + 4 * (lead : Int) - n.delay rev
  let other := if rev then n.syncFwd else n.syncRev
  let apart := other.any fun e => e.1 == cycle && decide (64 < (e.2 - t).natAbs)
  let add := fun (l : List (Word × Int)) => ((cycle, t) :: l).take 3
  { n with syncFwd := if rev then n.syncFwd else add n.syncFwd
           syncRev := if rev then add n.syncRev else n.syncRev
           lanesApart := n.lanesApart || apart }

/-- The instants that the timing lane has announced. -/
def NodeModel.timingLane (n : NodeModel) : List (Word × Int) := if n.lane then n.syncRev else n.syncFwd

/-- A command of a 16-bit slot. -/
def Command.ofSlot (w : BitVec 16) : Command :=
  ⟨NodeCmd.ofCode (w.toNat / 2 ^ 14), (w >>> 7).setWidth 7, w.getLsbD 6⟩

/-- A node accepts a command copy (R109) from its slot in a frame whose bcrc ends at `last` (0.25 ns): the frame may act, its
sequence is the cycle of the node's next instant, ccrc is good, and the copy came 0.5 µs before that instant. -/
def NodeModel.accepts (n : NodeModel) (f : ChainFrame) (slot : BitVec 16) (last : Int) : Bool :=
  match n.pos, n.timingLane.getLast? with
  | some p, some (c, t) =>
    f.kind == kindCmd && f.acts && f.seq == c && cmdCrc slot p.toNat f.seq == slot.setWidth 6 && decide (last + 2000 ≤ t)
  | _, _ => false

/-- A command train passes a node on a lane. -/
def NodeModel.command (n : NodeModel) (rev : Bool) (f : ChainFrame) (slot : BitVec 16) (last : Int) : NodeModel :=
  if n.accepts f slot last then
    let c := some (f.seq, Command.ofSlot slot)
    if rev then { n with rev := c } else { n with fwd := c }
  else n

/-- A cycle lies after another. -/
def cycleAfter (a c : Word) : Bool := a != c && decide ((a - c).toNat < 2 ^ 31)

/-- The copy that applies at the instant of cycle `c`: the forward lane's, else the reverse lane's. -/
def NodeModel.copyFor (n : NodeModel) (c : Word) : Option Command :=
  let get := fun (x : Option (Word × Command)) => match x with
    | some (k, d) => if k = c then some d else none
    | none => none
  (get n.fwd).orElse fun _ => get n.rev

/-- The timing lane changes when it has carried no SYNC for 2 cycles in a row and the other lane has (R106). -/
def NodeModel.laneStep (n : NodeModel) (c : Word) : NodeModel :=
  let has := fun (l : List (Word × Int)) => l.any (·.1 == c + 1)
  let k := if has n.timingLane then 0 else n.miss + 1
  if 2 ≤ k ∧ has (if n.lane then n.syncFwd else n.syncRev) then { n with lane := !n.lane, miss := 0, laneChanged := true }
  else { n with miss := min 2 k }

/-- A node at the instant of cycle `c`, which it has when its timing lane announced it (R106, R109, R125): the accepted command
applies, or the last one is held; at a cell-sample instant a bleed request comes into force and the open-wire test counts. A
latched node and one in its ROM state take no command.
DEDUCED: log entry 28. -/
def NodeModel.instant (n : NodeModel) (c : Word) (cell : Bool) : NodeModel :=
  let n := n.laneStep c
  let there := n.timingLane.any (·.1 == c)
  let cmd := if there then n.copyFor c else none
  let later := fun (l : List (Word × Int)) => l.filter fun e => cycleAfter e.1 c
  let keep := fun (x : Option (Word × Command)) => x.filter fun e => cycleAfter e.1 c
  let n := { n with syncFwd := later n.syncFwd, syncRev := later n.syncRev, fwd := keep n.fwd, rev := keep n.rev
                    trimmed := none }
  let n := if there && cell then
      { n with bleed := n.bleedNext.getD n.bleed, bleedNext := none
               openWire := n.openWire.bind fun w => if w.2 ≤ 1 then none else some (w.1, w.2 - 1) }
    else n
  if n.rom || n.stopLatched || n.autoBlock then n.blocked
  else match cmd with
    | some c => { n with applied := c, held := false, holdNs := 0 }
    | none => { n with held := true }

/-! ## MGMT (R102) -/

/-- A node takes TIMING: the delays; the timing lane is the forward one from then on (R106). -/
def NodeModel.timing (n : NodeModel) (fwd rev : Nat) : NodeModel :=
  { n with delayFwd := BitVec.ofNat 16 fwd, delayRev := BitVec.ofNat 16 rev, lane := false, miss := 0 }

/-- A node takes RESET, or restarts without losing its position: its ROM state (R125, R128). -/
def NodeModel.reset (n : NodeModel) : NodeModel :=
  { NodeModel.init with pos := n.pos, delayFwd := n.delayFwd, delayRev := n.delayRev, errSide0 := n.errSide0
                        errSide1 := n.errSide1 }

/-- A node that has restarted: in its ROM state, in autonomous BLOCK until it is released, without position or delays until ASSIGN
and TIMING (R120). -/
def NodeModel.restarted : NodeModel := { NodeModel.init with autoBlock := true }

/-- A node takes a WRITE to its config words (R129). -/
def NodeModel.written (x : NodeModel) (addr : Nat) (data : List Byte) : NodeModel :=
  let at0 := fun a => if addr ≤ a ∧ a < addr + data.length then some (data.getD (a - addr) 0) else none
  let half := fun a (old : BitVec 16) => match at0 a, at0 (a + 1) with | some h, some l => h ++ l | _, _ => old
  let byte := fun a (old : Byte) => (at0 a).getD old
  let last := byte 0x107 (BitVec.ofNat 8 (x.quiet.toNat * 128 + x.cfgT.toNat))
  { x with ovMv := half 0x100 x.ovMv, uvMv := half 0x102 x.uvMv, cfgD := byte 0x106 x.cfgD, quiet := last.getLsbD 7
           cfgT := last.setWidth 7 }

/-- A node takes a management request; `stop` and `loopOpen` are the causes of its latches that stand. In its ROM state it takes
TIMING and RESET alone (R128). -/
def NodeModel.mgmt (n : NodeModel) (op : Byte) (addr : Nat) (req : List Byte) (stop loopOpen : Bool) : NodeModel :=
  let b := fun i => (req.getD i 0).toNat
  if op = opTiming then n.timing (b 0 * 256 + b 1) (b 2 * 256 + b 3)
  else if op = opReset then n.reset
  else if n.rom then n
  else if op = opWrite then n.written addr req
  else if op = opBleed then { n with bleedNext := some ((req.getD 0 0).setWidth 6) }
  else if op = opOpenWire then
    { n with openWire := if req.getD 0 0 = 0xFF then none else some (req.getD 0 0, b 1) }
  else if op = opStopClear then n.release stop loopOpen
  else n

/-! ## ENUM (R104) and BOOT (R103, R128) -/

/-- CLEAR. -/
def NodeModel.forget (n : NodeModel) : NodeModel := { n with pos := none, delayFwd := 0, delayRev := 0 }

/-- ASSIGN and ASSIGN_REV with the position that they carry for this node. -/
def NodeModel.assign (n : NodeModel) (p : Nat) : NodeModel :=
  match n.pos with
  | none => { n with pos := some (BitVec.ofNat 8 p) }
  | some q => { n with mismatch := n.mismatch || q != BitVec.ofNat 8 p }

/-- The largest node image (R128). -/
def imageMax : Nat := 262144

/-- BOOT DATA: a block of the image is stored. -/
def NodeModel.bootData (n : NodeModel) (block : Nat) : NodeModel :=
  { n with blocks := addOnce n.blocks block, verified := false }

/-- BOOT VERIFY of an image of a number of blocks: all of them are there and the digest matches. -/
def NodeModel.bootVerify (n : NodeModel) (blocks : Nat) (match' : Bool) : NodeModel :=
  { n with verified := match' && (List.range blocks).all fun k => decide (k ∈ n.blocks) }

/-- BOOT START: only a verified image runs. -/
def NodeModel.bootStart (n : NodeModel) : NodeModel := if n.verified then { n with rom := false } else n

/-- boot_status: EMPTY, LOADING, VERIFIED, RUNNING, and the error code (R129). -/
def NodeModel.bootStatus (n : NodeModel) : Nat :=
  n.bootErr.toNat * 256 + if !n.rom then 3 else if n.verified then 2 else if n.blocks.isEmpty then 0 else 1

/-! ## The management space (R129) -/

/-- The identity record; fw_version reads 0 in the ROM state. -/
def identityBytes (x : NodeId) (rom : Bool) : List Byte :=
  let half := fun (n : Nat) => halfBytes (BitVec.ofNat 16 n)
  halfBytes x.profile ++ halfBytes x.vendor ++ halfBytes x.ntype ++ [x.hwRev, BitVec.ofNat 8 x.cells]
    ++ ((List.range 8).map fun i => (x.serial >>> (8 * (7 - i))).setWidth 8)
    ++ half x.lambda ++ half x.tau ++ halfBytes x.romVer ++ (if rom then [0, 0] else halfBytes x.fwVer)
    ++ half x.bleedMa ++ halfBytes x.switchV ++ List.replicate 36 0

/-- boot_map: bit k mod 8 of byte k / 8 is block k.
DESIGN CHOICE: log entry 69. -/
def NodeModel.bootMap (n : NodeModel) : List Byte :=
  (List.range 64).map fun i =>
    BitVec.ofNat 8 (((List.range 8).map fun j => (decide (8 * i + j ∈ n.blocks)).toNat * 2 ^ j).sum)

/-- The registers of the management space that the profile names, as (address, content). -/
def NodeModel.space (n : NodeModel) (x : NodeId) : List (Nat × List Byte) :=
  let word := fun (v : Nat) => wordBytes (BitVec.ofNat 32 v)
  [(0x0000, identityBytes x n.rom), (0x0040, word n.bootStatus), (0x0044, n.bootMap), (0x0100, halfBytes n.ovMv ++ halfBytes n.uvMv),
   (0x0104, [0, 0, n.cfgD, BitVec.ofNat 8 (n.quiet.toNat * 128 + n.cfgT.toNat)]), (0x0200, wordBytes n.errSide0),
   (0x0204, wordBytes n.errSide1),
   (0x0208, word (n.laneChanged.toNat * 4 + n.lanesApart.toNat * 2 + n.mismatch.toNat))]

/-- One byte of the management space that the profile names. -/
def NodeModel.spaceByte (n : NodeModel) (x : NodeId) (a : Nat) : Option Byte :=
  (n.space x).findSome? fun e => if e.1 ≤ a ∧ a < e.1 + e.2.length then e.2[a - e.1]? else none

/-! ## What a node writes (R99, R101, R128) -/

/-- The uplink slot of a node with a stack voltage, while its fault-loop current is lost or not; a node without a position leaves
it unwritten. -/
def NodeModel.slot (n : NodeModel) (vTerm : BitVec 16) (lost : Bool) (cycle : Word) : Word :=
  match n.pos with
  | none => 0xFFFFFFFF
  | some p =>
    let w := BitVec.ofNat 32 (vTerm.toNat * 2 ^ 16 + n.tripped.toNat * 2 ^ 15 + lost.toNat * 2 ^ 14 + n.autoBlock.toNat * 2 ^ 13
      + n.stopLatched.toNat * 2 ^ 12 + (if n.rom then NodeCmd.block else n.applied.cmd).code * 2 ^ 10 + n.held.toNat * 2 ^ 9)
    w ||| (slotCrc w p.toNat cycle).setWidth 32

/-- The node writes cell records: it has a position and its image runs. -/
def NodeModel.writesRecords (n : NodeModel) : Bool := n.pos.isSome && !n.rom

end Sys2Proof.Machine
end

