-- ==== Sys2Proof/Machine/Control.lean ====
section
/-!
DEFINITION. What several chapters share: domains and clocks, capture stamps, the trip rule, the claim, run-state
transitions (R463), stop demands on the Flyer (R154), safety causes and permits (R326, R327), locks and the reset
guard (R475).
-/

namespace Sys2Proof.Machine

/-! ## Domains and clocks -/

/-- Bit position of a domain (R21). -/
def domainIx : Domain → Nat
  | .mgmt => 0 | .spin0 => 1 | .spin1 => 2 | .frame => 3 | .chain => 4 | .host => 5 | .xlink => 6 | .can => 7
  | .sense => 8 | .svc => 9

/-- All domains in bit order. -/
def allDomains : List Domain := [.mgmt, .spin0, .spin1, .frame, .chain, .host, .xlink, .can, .sense, .svc]

/-- Bit position of an island (R15). -/
def islandIx : Island → Nat
  | .mgmt => 0 | .spin => 1 | .frame => 2 | .cha => 3 | .chb => 4 | .xlink => 5 | .eth0 => 6 | .eth1 => 7
  | .time => 8 | .can => 9 | .safe => 10 | .sense => 11

/-- The two-bit pd_state field of a domain (R37). -/
def pdField (d : Domain) : Field := ⟨Reg.PWR_PD_STAT, 2 * domainIx d, 2⟩

/-- The domain is on: pd_state reads 0b10. -/
def Mach.domOn (m : Mach) (d : Domain) : Bool := m.get (pdField d) == 2

/-- The clk_ok bit of an island. -/
def Mach.clkOk (m : Mach) (i : Island) : Bool := m.bit Reg.PWR_CI_STAT (islandIx i)

/-- Keep memory outside a range and drop what lies in it: the range reads as zero. -/
def Mach.zeroise (m : Mach) (lo hi : Nat) : Mach :=
  { m with mem := keepBelow m.mem lo ++ dropBelow m.mem hi
           memi := { m.memi with
             poison := m.memi.poison.filter fun a => a < lo || hi ≤ a
             upsets := m.memi.upsets.filter fun u => u.addr < lo || hi ≤ u.addr
             stash := m.memi.stash.filter fun e => instBase e.1.inst < lo || hi ≤ instBase e.1.inst } }

/-- The domain that an address of R30 lies in; none for AON and for addresses that do not exist. -/
def domainOf (a : Nat) : Option Domain :=
  if a < 0x40000 then none
  else if a < 0x80000 then some .mgmt
  else if a < 0xB0000 then some .chain
  else if a < 0xC0000 then some .xlink
  else if a < 0xD0000 then some .host
  else if a < 0xF0000 then some .can
  else if a < 0x100000 then none
  else if a < 0x110000 then some .sense
  else if a < 0x120000 then some .mgmt
  else if a < 0x1480000 then some .spin0
  else if a < 0x1500000 then some .spin1
  else some .frame

/-- No program is loaded (R33). -/
def Mach.noProgram (m : Mach) : Mach := m.wr Reg.GLB_PROG_VER (resetWord Reg.GLB_PROG_VER)

/-- What a domain loses when it is off or reset: its registers return to their reset words (R7), its SRAM to zero
(R24), its internal state to its initial one. The sticky remap entries (R6, R454) and the persistent counters of MGT (R501) stay,
and the level of CLAIM_IN, which channel A reads (R59). With no program in the array GLB_PROG_VER reads 0 (R33).
DEDUCED: log entry 11. -/
def Mach.domainClear (m : Mach) : Domain → Mach
  | .mgmt =>
    let seq := m.rd Reg.MGT_LOG_SEQ
    let p := [Reg.MGT_PCNT_BOOT, Reg.MGT_PCNT_HOURS, Reg.MGT_PCNT_CLOSE, Reg.MGT_PCNT_UPDATE].map fun a => (a, m.rd a)
    let m := ((m.resetRange 0x40000 (Reg.MEM_REMAP 0 0)).resetRange (Reg.MEM_REMAP 48 0) 0x80000).resetRange 0x110000 0x120000
    let m := (m.wr Reg.MGT_LOG_SEQ seq).each p fun m (a, v) => m.wr a v
    { m with memi := { m.memi with cePrev := [], ceThis := [], weak := [], spareAt := none }, host := { HostState.init with
      cages := m.host.cages, sessions := m.host.sessions, seen := m.host.seen, buckets := m.host.buckets
      window := m.host.window, icmpAt := m.host.icmpAt } }
  | .spin0 =>
    let m := ((m.resetRange 0x1000000 0x1010000).zeroise progMemBase 0x1140000).noProgram
    { (m.zeroise bankABase 0x1220000).zeroise laneMemBase 0x1480000 with spin := .init, prog := .init }
  | .spin1 => m.zeroise 0x1480000 0x1500000
  | .frame => m.zeroise frameBase 0x2300000
  | .chain =>
    let chain := { ChainState.init with
      nodes := m.chain.nodes, ids := m.chain.ids, found := m.chain.found, loaded := m.chain.loaded }
    { m.resetRange 0x80000 0xB0000 with fly := .init, chain := chain }
  | .host =>
    let svc := m.bit Reg.ETH_SESS_STAT 13
    let m := (m.resetRange 0xC0000 0xD0000).setBit Reg.ETH_SESS_STAT 13 svc
    { m with host := { m.host with seen := [], buckets := HostState.init.buckets, window := HostState.init.window,
                                             icmpAt := [] } }
  | .xlink =>
    let claim := m.flag F.XL_STAT_claim_in
    { (m.resetRange 0xB0000 0xC0000).setB F.XL_STAT_claim_in claim with pair := .init }
  | .can => { m.resetRange 0xD0000 0xF0000 with can0 := .init, can1 := .init }
  | .sense => { m.resetRange 0x100000 0x110000 with sense := { SenseState.init with fgScaling := m.sense.fgScaling, shRecord := m.sense.shRecord } }
  | .svc => m

/-! ## The interrupt summary (R35, R36) -/

/-- The pairs of status and enable registers of the blocks, with the bit of GLB_IRQ_SUM. -/
def irqPairs : List (Nat × Nat × Nat) :=
  [(2, Reg.PWR_IRQ_STAT, Reg.PWR_IRQ_EN), (3, Reg.TB_IRQ_STAT, Reg.TB_IRQ_EN), (4, Reg.MBX_DB_STAT, Reg.MBX_DB_EN),
   (6, Reg.OP_IRQ_STAT, Reg.OP_IRQ_EN), (7, Reg.MEM_IRQ_STAT, Reg.MEM_IRQ_EN),
   (8, Reg.CH_IRQ_STAT 0, Reg.CH_IRQ_EN 0), (9, Reg.CH_IRQ_STAT 1, Reg.CH_IRQ_EN 1),
   (10, Reg.FLY_IRQ_STAT, Reg.FLY_IRQ_EN), (11, Reg.XL_IRQ_STAT, Reg.XL_IRQ_EN), (12, Reg.ETH_IRQ_STAT, Reg.ETH_IRQ_EN),
   (13, Reg.CAN_IRQ_STAT 0, Reg.CAN_IRQ_EN 0), (14, Reg.CAN_IRQ_STAT 1, Reg.CAN_IRQ_EN 1),
   (15, Reg.SAF_IRQ_STAT, Reg.SAF_IRQ_EN), (16, Reg.SNS_IRQ_STAT, Reg.SNS_IRQ_EN),
   (16, Reg.SNS_MEAS_IRQ_STAT, Reg.SNS_MEAS_IRQ_EN), (16, Reg.SNS_PROT_IRQ_STAT, Reg.SNS_PROT_IRQ_EN),
   (17, Reg.MGT_IRQ_STAT, Reg.MGT_IRQ_EN), (18, Reg.SPN_IRQ_STAT, Reg.SPN_IRQ_EN)]

/-- GLB_IRQ_SUM (R35, R36). -/
def Mach.irqSum (m : Mach) : Word :=
  irqPairs.foldl (fun w (k, st, en) => if m.rd st &&& m.rd en = 0 then w else w ||| BitVec.ofNat 32 (2 ^ k)) 0

/-- After something that can clear events: a session whose masked summary is zero gets a notification at its next change to
non-zero (R36). -/
def Mach.irqSettle (m : Mach) : Mach :=
  if m.host.sessions.isEmpty then m
  else
    let all := m.irqSum
    { m with host := { m.host with sessions := m.host.sessions.map fun z =>
      if (all &&& m.rd (Reg.GLB_IRQ_EN z.id)) = 0 then { z with irqHigh := false } else z } }

/-- A domain is off or reset: its content is lost, and no master keeps a latched copy of its registers (R9). -/
def Mach.domainReset (m : Mach) (d : Domain) : Mach :=
  let m := m.domainClear d
  { m with latches := m.latches.filter fun l => domainOf l.reg != some d }.irqSettle

/-- Switch a domain off: pd_state OFF and its content lost. -/
def Mach.domainOff (m : Mach) (d : Domain) : Mach := (m.domainReset d).set (pdField d) 0

/-- In loader safe mode only PD_MGMT, PD_HOST and PD_SVC are on (R496): a request for another leaves it off.
DEDUCED: log entry 23. -/
def Mach.domHeldOff (m : Mach) (d : Domain) : Bool := m.power.safeMode && !(d == .mgmt || d == .host || d == .svc)

/-- Begin to switch a domain on: pd_state ZEROISING (R24). A domain that is on or zeroising stays. -/
def Mach.domainStart (m : Mach) (d : Domain) : Mach :=
  if m.get (pdField d) = 2 ∨ m.get (pdField d) = 1 ∨ m.domHeldOff d then m else (m.domainReset d).set (pdField d) 1

/-- The domain's rail is at fault: pd_state reads 0b11, and only a write that requests it on ends that (R37). -/
def Mach.domFault (m : Mach) (d : Domain) : Bool := m.get (pdField d) == 3

/-- A domain switched on by an action (R23) and zeroised; PWR_PD_CTRL.pd_on stays as it was written.
DESIGN CHOICE: log entry 68. -/
def Mach.domainOn (m : Mach) (d : Domain) : Mach :=
  if m.domOn d || m.domFault d || m.domHeldOff d then m else (m.domainReset d).set (pdField d) 2

/-! ## The holdup store (R46, R48, R49) -/

/-- The most that a domain draws, in 0.1 W (R46). -/
def domainLoad : Domain → Nat
  | .mgmt => 35 | .spin0 => 60 | .spin1 => 50 | .frame => 22 | .chain => 35 | .host => 65 | .xlink => 15 | .can => 10
  | .sense => 35 | .svc => 8

/-- The most that the electronics draw with the domains that are on, in 0.1 W: AON, the companion and the safety I/O beside
them (R46). -/
def Mach.maxLoad (m : Mach) : Nat :=
  45 + ((allDomains.filter fun d => m.domOn d || m.get (pdField d) == 1).map domainLoad).sum

/-- The charger draws where it may: not in HOLDUP (R470), not once the store is full, and only while the load is below 33 W
(R49). Where the table's maxima allow a higher load, whether it is higher now is open. -/
def Mach.chargerSet (m : Mach) : Mach :=
  let want := m.supply != .holdup && decide (m.get F.PWR_SUP_STAT_store_level < 100)
  let draws := want && (decide (m.maxLoad < 330) || m.freeNow.getLsbD 0)
  let m := m.when want (·.freeTicked)
  let start := draws && !m.flag F.PWR_SUP_STAT_charging
  let m := m.setB F.PWR_SUP_STAT_charging draws
  m.when start fun m => { m with power := { m.power with storeNs := m.upNs } }

/-- What the store has taken up by now: while charging it rises by an amount that the spec bounds and does not give, to at
least 90 % after 0.6 s (R49); while the charger pauses it holds.
DESIGN CHOICE: log entry 24. -/
def Mach.storeSettle (m : Mach) : Mach :=
  let l := m.get F.PWR_SUP_STAT_store_level
  let m := m.when (m.flag F.PWR_SUP_STAT_charging && decide (l < 100)) fun m =>
    let r := l + m.freeNow.toNat % (101 - l)
    m.freeTicked.set F.PWR_SUP_STAT_store_level (if m.power.storeNs + 600000000 ≤ m.upNs then max 90 r else r)
  m.chargerSet

/-- What the store has given while it fed the electronics: at most `pct` percent, since 100 % last at least 30 ms at the
highest load (R48).
DESIGN CHOICE: log entry 24. -/
def Mach.storeDrain (m : Mach) (pct : Nat) : Mach :=
  let l := m.get F.PWR_SUP_STAT_store_level
  m.freeTicked.set F.PWR_SUP_STAT_store_level (l - m.freeNow.toNat % (min pct l + 1))

/-! ## Accesses (R24, R402) -/

/-- The refusal of R24 for an access to an address, if its domain or the arbiter's domain (R461) is not on. -/
def Mach.offCode (m : Mach) (a : Nat) : Option (BitVec 16) :=
  let st := fun d => m.get (pdField d)
  let code := fun n => if n = 2 then none else if n = 1 then some Err.zeroising else some Err.domainOff
  match code (st .mgmt) with
  | some c => some c
  | none => match domainOf a with
    | none => none
    | some d => code (st d)

/-- A write of a register: refused while the register's domain is off (R24); in DECOMMISSIONED refused whatever it is,
with NOT_OWNER where that applies (R402, R481); else done and answered. -/
def Mach.access (m : Mach) (a : Nat) (f : Mach → Mach) : Mach :=
  match m.offCode a with
  | some c => m.refuse c
  | none =>
    let r := f m.ok
    if m.lifeCycle = .decommissioned then
      if r.answer.1 = Err.notOwner then { m with answer := r.answer } else m.refuse Err.lifeCycle
    else r

/-! ## Capture stamps (R380) -/

/-- An event on unit `u`: stamp it when the unit is free, with whether it coincides with a step (R369), else note the overrun.
DESIGN CHOICE: log entry 13. -/
def Mach.captureUnit (m : Mach) (u : Nat) : Mach :=
  if m.get (F.TB_CAP_CTRL_src u) = 0 then m
  else if m.flag (F.TB_CAP_CTRL_full u) then (m.on (F.TB_CAP_CTRL_ovr u)).count Reg.TB_CNT_CAP_OVR
  else
    let m := ((m.wr (Reg.TB_CAP_SEC u) (BitVec.ofNat 32 m.time.sec)).set (F.TB_CAP_NS_ns u) m.time.ns).setB
      (F.TB_CAP_CTRL_step u) (m.time.stepAt == some m.time.up)
    (m.on (F.TB_CAP_CTRL_full u)).on F.TB_IRQ_STAT_cap

/-- An event on source code `c` reaches every unit that has that source.
DESIGN CHOICE: log entry 13. -/
def Mach.captureSource (m : Mach) (c : Nat) : Mach :=
  m.each (List.range 8) fun m u => m.when (m.get (F.TB_CAP_CTRL_src u) == c) (·.captureUnit u)

/-! ## CAN transmit buffers (R429) -/

/-- A port's state beside its registers. -/
def Mach.canPort (m : Mach) (x : Nat) : CanPort := if x = 0 then m.can0 else m.can1

/-- Change a port's state. -/
def Mach.setCan (m : Mach) (x : Nat) (p : CanPort) : Mach := if x = 0 then { m with can0 := p } else { m with can1 := p }

/-- The shadow of a transmit buffer, which its registers are. -/
def Mach.canShadow (m : Mach) (x b : Nat) : CanFrame :=
  ⟨m.rd (Reg.CAN_MB_ID x b), m.rd (Reg.CAN_MB_INFO x b), (List.range 16).map fun k => m.rd (Reg.CAN_MB_DATA x b k)⟩

/-- Put a frame into a buffer's registers. -/
def Mach.canRegs (m : Mach) (x b : Nat) (f : CanFrame) : Mach :=
  let m := (m.wr (Reg.CAN_MB_ID x b) f.id).wr (Reg.CAN_MB_INFO x b) f.info
  m.each (List.range 16) fun m k => m.wr (Reg.CAN_MB_DATA x b k) (f.data.getD k 0)

/-- A commit copies the whole shadow into the buffer and makes it pending; a suspended buffer becomes pending when it
resumes (R434). -/
def Mach.canCommit (m : Mach) (x b : Nat) : Mach :=
  let p := m.canPort x
  let f := m.canShadow x b
  (m.setCan x { p with bufs := p.bufs.setIfInBounds b f }).when (!m.flag (F.CAN_MB_CTRL_suspended x b))
    (·.on (F.CAN_MB_CTRL_pending x b))

/-- An owner of a fixed transmit buffer loads it (R423, R424): an ISO CAN FD frame with bit-rate switching and a standard
identifier. -/
def Mach.canLoad (m : Mach) (x id dlc : Nat) (bytes : List Byte) : Mach :=
  if m.domOn .can then
    let f : CanFrame := ⟨BitVec.ofNat 32 (id * 2 ^ 18), BitVec.ofNat 32 (0x600000 + dlc * 0x10000), bytesWords bytes⟩
    (((m.canRegs x 0 f).on (F.CAN_MB_CTRL_dir x 0)).on (F.CAN_MB_CTRL_en x 0)).canCommit x 0
  else m

/-- The slot in the CAN0 identifiers: in a pair the lower slot (R423).
DEDUCED: log entry 39. -/
def Mach.canSlot (m : Mach) : Nat :=
  let own := m.get F.GLB_SLOT_slot
  if m.pair.formed then min own (m.get F.XL_STAT_partner_slot) else own

/-- The owners of the fixed buffers set them up (R423, R437): MB0 to transmit, MB1 to receive its one identifier. -/
def Mach.canFixed (m : Mach) (x : Nat) : Mach :=
  let slot := if x = 0 then m.canSlot else m.get F.GLB_SLOT_slot
  let tx := (if x = 0 then 0x300 else 0x180) + slot
  let rx := (if x = 0 then 0x380 else 0x100) + slot
  let m := ((m.wr (Reg.CAN_MB_ID x 0) (BitVec.ofNat 32 (tx * 2 ^ 18))).on (F.CAN_MB_CTRL_dir x 0)).on (F.CAN_MB_CTRL_en x 0)
  let m := (m.wr (Reg.CAN_MB_ID x 1) (BitVec.ofNat 32 (rx * 2 ^ 18))).wr (Reg.CAN_MB_MASK x 1) 0x1FFC0000
  (m.off (F.CAN_MB_CTRL_dir x 1)).on (F.CAN_MB_CTRL_en x 1)

/-- A port whose domain starts: the fixed buffers are set up and the port integrates (R437). -/
def Mach.canStart (m : Mach) (x : Nat) : Mach :=
  let m := m.canFixed x
  m.setCan x { m.canPort x with sinceNs := m.upNs }

/-- The identifiers of CAN0 follow the pair's forming and ending (R423). -/
def Mach.canPair (m : Mach) : Mach := m.when (m.domOn .can) (·.canFixed 0)

/-! ## Boundary scan (R513, R514) -/

/-- The controller's instruction by its code; every other code acts as BYPASS (R513). -/
def ctrlInstr (c : Byte) : TapInstr :=
  match c.toNat with
  | 1 => .idcode | 2 => .sample | 3 => .extest | 4 => .extestPulse | 5 => .extestTrain | 6 => .clamp | 7 => .highz | _ => .bypass

/-- The companion's instruction by its code. -/
def compInstr (c : BitVec 6) : TapInstr :=
  match c.toNat with
  | 1 => .idcode | 2 => .sample | 3 => .extest | 4 => .clamp | 5 => .highz | _ => .bypass

/-- The EXTEST class (R514). -/
def TapInstr.extestClass : TapInstr → Bool
  | .bypass | .idcode | .sample => false
  | .extest | .extestPulse | .extestTrain | .clamp | .highz => true

/-- An EXTEST-class instruction is loaded in either device (R514). -/
def Mach.extest (m : Mach) : Bool := (ctrlInstr m.power.irCtrl).extestClass || (compInstr m.power.irComp).extestClass

/-! ## Outputs of J12 and the trip rule (R334) -/

/-- BRK_TRIP is energised: both switches on. -/
def Mach.tripOn (m : Mach) : Bool := m.flag F.SAF_STAT_trip_hs && m.flag F.SAF_STAT_trip_ls

/-- Energise BRK_TRIP, only while the run permit is 1 (R326). -/
def Mach.energiseTrip (m : Mach) : Mach :=
  if m.flag F.SAF_STAT_run_permit then
    let m := if m.tripOn then m else { m with safety := { m.safety with tripOnNs := some m.upNs } }
    (m.on F.SAF_STAT_trip_hs).on F.SAF_STAT_trip_ls
  else m

/-- Channel A releases its high-side switch of BRK_TRIP; a close pulse ends at once (R78). -/
def Mach.releaseTripHs (m : Mach) : Mach :=
  let was := m.flag F.SAF_STAT_trip_hs
  let m := (m.off F.SAF_STAT_trip_hs).when was (·.captureSource 7)
  { m with safety := { m.safety with tripRule := none, tripOnNs := none, closeOn := false } }

/-- Channel B releases its low-side switch of BRK_TRIP. -/
def Mach.releaseTripLs (m : Mach) : Mach :=
  { m.off F.SAF_STAT_trip_ls with safety := { m.safety with tripOnNs := none, closeOn := false } }

/-- Start the trip rule (R334), once: the earliest demand counts. -/
def Mach.startTripRule (m : Mach) : Mach :=
  if m.flag F.SAF_STAT_trip_hs && m.safety.tripRule.isNone then
    { m with safety := { m.safety with tripRule := some m.upNs } }
  else m

/-! ## FLY_BLOCK (R464, R465) -/

/-! ## Mailbox and lock ownership (R403) -/

/-- Every lock register. -/
def lockRegs : List Nat :=
  (List.range 16).map Reg.MBX_LOCK ++ (List.range 16).map Reg.MBX_GLOCK ++ (List.range 16).map Reg.OP_OWNER
    ++ [Reg.SNS_SP_OWNER]

/-! ## The cross-link's sender (R20) -/

/-- The cross-link can send: PD_XLINK is on and its clock good (R20). -/
def Mach.xlUp (m : Mach) : Bool := m.domOn .xlink && m.clkOk .xlink

/-- A frame leaves over the cross-link with the module's slot and the next sequence (R354). -/
def Mach.sendXl (m : Mach) (f : XlFrame) : Mach :=
  if m.xlUp then
    { m.send (.xl (BitVec.ofNat 6 (m.get F.GLB_SLOT_slot)) m.pair.xlSeq f) with
      pair := { m.pair with xlSeq := m.pair.xlSeq + 1 } }
  else m

/-! ## The claim (R350 to R353) -/

/-- The module mirrors: ACTIVE with a partner that is not lost (R358). -/
def Mach.mirrors (m : Mach) : Bool := m.role == .active && m.pair.formed && !m.pair.partnerLost

/-- A MIRROR frame leaves. -/
def Mach.sendMirror (m : Mach) (i : MirrorItem) : Mach :=
  let m := m.sendXl (.mirror m.pair.mirrorSeq i)
  { m with pair := { m.pair with mirrorSeq := m.pair.mirrorSeq + 1 } }

/-- The cycle from which a write of FLY_BLOCK applies (R146, R358): alone the next one; in a pair the one after the cycle in which
the acknowledgement is due.
DEDUCED: log entry 32. -/
def Mach.blockCycle (m : Mach) : Word :=
  if m.mirrors then BitVec.ofNat 32 (m.indexAt (m.nowNs + 10000) + 1) else m.cycle + 1

/-- A write of FLY_BLOCK_k that applies from a cycle on. -/
def Mach.blockTake (m : Mach) (k : Nat) (w c : Word) : Mach :=
  if k < 4 then
    let m := m.wr (Reg.FLY_BLOCK k) w
    m.when (m.flag F.FLY_CTRL_cyc_en) fun m => { m with fly := { m.fly with blockPend := m.fly.blockPend ++ [(c, k, w)] } }
  else m

/-- Write every FLY_BLOCK_k; on an ACTIVE the writes are mirrored (R146). -/
def Mach.setAllBlock (m : Mach) (w : Word) : Mach :=
  m.each [0, 1, 2, 3] fun m k =>
    let c := m.blockCycle
    (m.when m.mirrors (·.sendMirror (.flyBlock k w c))).blockTake k w c

/-- The code of a release cause (R353). -/
def claimCode : ClaimCause → Nat
  | .handover => 1 | .trap => 2 | .noEmit => 3 | .chain => 4 | .reset => 5 | .selftest => 6 | .dualClaim => 7
  | .runState => 8

/-- The module holds the claim: CLAIM_OUT asserted. -/
def Mach.holdsClaim (m : Mach) : Bool := m.flag F.XL_STAT_claim_out

/-- A resync in progress is aborted (R361): retried after 1000 cycles, up to 3 attempts. -/
def Mach.resyncAbort (m : Mach) : Mach :=
  if m.flag F.XL_STAT_resync_busy then
    let f := m.pair.resyncFails + 1
    let m := (m.off F.XL_STAT_resync_busy).when (decide (3 ≤ f)) (·.on F.XL_IRQ_STAT_resync_fail)
    { m with pair := { m.pair with resync := none, resyncEnd := none, storeQueue := [], resyncFails := f
                                   resyncRetry := decide (f < 3) } }
  else m

/-- An open-wire sweep ends (R289, R296). -/
def Mach.sweepEnd (m : Mach) : Mach :=
  let m := ((m.off F.SNS_MEAS_STAT_sweep_busy).set F.SNS_MEAS_STAT_ow_node 0xFF).set F.SNS_MEAS_STAT_ow_wire 0xFF
  { m.on F.SNS_MEAS_IRQ_STAT_sweep_done with sense := { m.sense with sweep := [], sweepAbort := false } }

/-- The module is STANDBY: master 14 holds its set-point registers (R358). -/
def Mach.standBy (m : Mach) : Mach := { m.wr Reg.SNS_SP_OWNER 14 with role := .standby }

/-- The set-point registers that master 14 held become free (R358). -/
def Mach.ownSetpoint (m : Mach) : Mach := m.when (m.get F.SNS_SP_OWNER_owner == 14) (·.wr Reg.SNS_SP_OWNER 0)

/-- Release the claim with a cause (R353): CLAIM_OUT released, the cause kept and sent, STANDBY while the pair is
formed; a resync is aborted, since the claim changes; a toggle in force is forgotten, since a STANDBY sends no TRIM symbol
(R147), and an open-wire sweep, which only SOLO and ACTIVE run, ends (R289). -/
def Mach.releaseClaim (m : Mach) (c : ClaimCause) : Mach :=
  if m.holdsClaim then
    let m := (((m.resyncAbort.off F.XL_STAT_claim_out).set F.XL_SWITCH_cause (claimCode c)).on
      F.XL_IRQ_STAT_switchover).sendXl (.notice (.release c))
    let m := { m with pair := { m.pair with settle := false, settled := false, handoverAt := none }
                      fly := { m.fly with hyst := { m.fly.hyst with band := none, inForce := false } } }
    let m := m.when (m.pair.formed && m.flag F.SNS_MEAS_STAT_sweep_busy) (·.sweepEnd)
    (m.captureSource 9).when m.pair.formed Mach.standBy
  else m

/-- The pair dissolves: role SOLO, claim released. -/
def Mach.dissolvePair (m : Mach) : Mach :=
  let m := (m.releaseClaim .runState).ownSetpoint
  { m with role := .solo, pair := { m.pair with formed := false } }.canPair

/-! ## The chain's ports (R87, R95, R105, R116) -/

/-- CHA is 0, CHB is 1. -/
def portIx : Port → Nat
  | .a => 0 | .b => 1

/-- The clock island of a port (R15). -/
def portIsland : Port → Island
  | .a => .cha | .b => .chb

/-- A port's state. -/
def Mach.port (m : Mach) : Port → PortState
  | .a => m.chain.portA | .b => m.chain.portB

/-- Change a port's state. -/
def Mach.setPort (m : Mach) (p : Port) (x : PortState) : Mach :=
  match p with
  | .a => { m with chain := { m.chain with portA := x } }
  | .b => { m with chain := { m.chain with portB := x } }

/-- The chain is a PAIR ring (R87). -/
def Mach.pairRing (m : Mach) : Bool := m.get (F.CH_CFG_topology 0) == 1

/-- The ports that the topology uses (R87). -/
def Mach.chainPorts (m : Mach) : List Port := if m.pairRing then [.a] else [.a, .b]

/-- The port's hardware works: PD_CHAIN on and its clock good. -/
def Mach.portUp (m : Mach) (p : Port) : Bool := m.domOn .chain && m.clkOk (portIsland p)

/-- The launching ports: those that start frames while cycles run (R87, R121). -/
def Mach.stopPorts (m : Mach) : List Port :=
  if m.cyclesOn then
    m.chainPorts.filter fun p =>
      m.portUp p && m.flag (F.CH_CTRL_launch (portIx p)) && m.flag (F.CH_LINK_STAT_tx_on (portIx p))
  else []

/-- The ports that launch fixed frames now: none during the stop broadcast (R155). -/
def Mach.launchPorts (m : Mach) : List Port := if m.flag F.FLY_STOP_active then [] else m.stopPorts

/-- This module is the position-0 end: in a SOLO ring, and with the lower slot in a PAIR ring (R87). -/
def Mach.posZero (m : Mach) : Bool :=
  !m.pairRing || decide (m.get F.GLB_SLOT_slot < m.get F.XL_STAT_partner_slot)

/-- A port is the position-0 end of the chain: it launches on the forward lane (R87). -/
def Mach.atZero (m : Mach) (p : Port) : Bool := if m.pairRing then m.posZero else p == .a

/-- The frames that a port launches reach position `n` not turned: across a break, only up to the node that the last TURN notice
names (R116, R117). -/
def Mach.reaches (m : Mach) (p : Port) (n : Nat) : Bool :=
  let t := m.get (F.CH_LINK_STAT_turn_pos (portIx p))
  !((m.ringBroken || m.chain.breakPend) && decide (t < 127)) || (if m.atZero p then decide (n ≤ t) else decide (t ≤ n))

/-- What passes the nodes that a port reaches; `f` takes the position. -/
def Mach.overNodes (m : Mach) (p : Port) (f : Nat → NodeModel → NodeModel) : Mach :=
  { m with chain := { m.chain with nodes := Vector.ofFn fun n =>
      if n.val < m.nodeCount && m.reaches p n.val then f n.val m.chain.nodes[n] else m.chain.nodes[n] } }

/-- Control symbols leave a port and pass its nodes. -/
def Mach.sendSymbols (m : Mach) (p : Port) (l : List Symbol) : Mach :=
  (m.send (.chain p m.upNs l)).overNodes p fun _ n => n.symbols l

/-- The continuous run of STOP symbols begins on a port (R92). -/
def Mach.stopRun (m : Mach) (p : Port) : Mach :=
  (m.send (.stopGroups p true)).overNodes p fun _ n => n.symbols [.ctl ctlStop, .ctl ctlStop]

/-! ## Cycles (R508) -/

/-- The array enters LOADED at once and the section in progress is abandoned (R204). -/
def Mach.arrayUnload (m : Mach) : Mach :=
  let st := m.get F.SPN_STAT_state
  let m := m.when (st == 2 || st == 4) fun m => (m.set F.SPN_STAT_state 1).when (m.get F.SPN_ST_STAT_result == 1)
    (·.set F.SPN_ST_STAT_result 0)
  { m.set F.SPN_STAT_section 0 with spin := { m.spin with runPend := false, stopPend := false,
                                                          stPend := false, stLeft := 0 } }

/-- Cycles start: cyc_en sets, and the Flyer loads comparator 0 with the first sample instant at least 100 µs ahead and
the period T (R379). -/
def Mach.cyclesStart (m : Mach) : Mach :=
  let t := m.instantOf (m.firstIndexFrom (m.nowNs + 100000))
  let m := (m.wr (Reg.TB_CMP_SEC 0) (BitVec.ofNat 32 (t / 1000000000))).wr (Reg.TB_CMP_NS 0)
    (BitVec.ofNat 32 (t % 1000000000))
  ((m.wr (Reg.TB_CMP_PER 0) (BitVec.ofNat 32 m.periodNs)).wr (Reg.TB_CMP_CTRL 0) 3).on F.FLY_CTRL_cyc_en

/-- Cycles stop: FLY_CTRL.cyc_en clears, comparator 0 is disabled (R379), the ports stop launching, measurement activity becomes NONE, ring state is
reported as RING_CLOSED, src_emit is withdrawn (R142, R508, R510). -/
def Mach.cyclesStop (m : Mach) : Mach :=
  let m := (((m.off F.FLY_CTRL_cyc_en).off (F.TB_CMP_CTRL_en 0)).off (F.CH_CTRL_launch 0)).off (F.CH_CTRL_launch 1)
  let m := ((m.set F.SNS_MEAS_STAT_activity 0).off (F.CH_LINK_STAT_ring_broken 0)).off (F.CH_LINK_STAT_ring_broken 1)
  let m := (m.off F.FLY_STOP_src_emit).arrayUnload.when (m.flag F.SNS_MEAS_STAT_sweep_busy) (·.sweepEnd)
  { m with ringBroken := false, fly := { m.fly with missing := 0 }, chain := { m.chain with breakPend := false } }

/-- The domains that cycles need are on (R508). -/
def Mach.cycleDomainsOn (m : Mach) : Bool :=
  m.domOn .spin0 && m.domOn .frame && m.domOn .chain && (m.domOn .spin1 || decide (m.get (F.CH_CFG_nodes 0) ≤ 64))

/-! ## Run-state transitions (R463) -/

/-- Causes of PWR_RUN_STAT.last_cause (R480). -/
def Cause.hostStart : Nat := 1
def Cause.hostStop : Nat := 2
def Cause.startFail : Nat := 3
def Cause.prechargeDone : Nat := 4
def Cause.prechargeFail : Nat := 5
def Cause.protOrderly : Nat := 6
def Cause.protImmediate : Nat := 7
def Cause.safety : Nat := 8
def Cause.safetyLatched : Nat := 9
def Cause.flyerStop : Nat := 10
def Cause.brownout : Nat := 11
def Cause.holdup : Nat := 12
def Cause.stopped : Nat := 13
def Cause.faultReset : Nat := 14
def Cause.guard : Nat := 15
def Cause.reset : Nat := 16
def Cause.domainFault : Nat := 17
def Cause.escalated : Nat := 18

/-- Precharge fails (R153): fail_cause, pre_fail and pre_state FAILED; a failure already recorded or a finished
precharge is kept. -/
def Mach.prechargeFailed (m : Mach) (code : Nat) : Mach :=
  let st := m.get F.FLY_PRE_STAT_pre_state
  if st = 1 ∨ st = 2 ∨ st = 3 then
    ((m.set F.FLY_PRE_STAT_fail_cause code).set F.FLY_PRE_STAT_pre_state 5).on F.FLY_IRQ_STAT_pre_fail
  else m

/-- Run states in which the string is open or held: OFF, SAFE_HOLD, FAULT_LATCHED. -/
def RunState.rest : RunState → Bool
  | .off => true | .safeHold => true | .faultLatched => true | _ => false

/-- States that energise or have energised the string in a start or a run. -/
def RunState.busy : RunState → Bool
  | .starting => true | .precharge => true | .run => true | .stopping => true | _ => false

/-- Record a transition (R463): state, cause, cycle, interrupt and, on an ACTIVE module, the mirror frame (R358). -/
def Mach.recordRun (m : Mach) (dst : RunState) (cause : Nat) : Mach :=
  let m := ((m.set F.PWR_RUN_STAT_last_cause cause).wr Reg.PWR_RUN_CYC m.cycle).on F.PWR_IRQ_STAT_run_change
  let m := m.when (m.role == .active) (·.sendMirror (.runState (BitVec.ofNat 3 dst.code) (BitVec.ofNat 8 cause)))
  { m with runState := dst }

/-- Make a transition with what entering and leaving states does:
leaving OFF for STARTING sets cyc_en and the credits (R143, R158); entering OFF or STARTING clears FLY_STOP.latched
(R157); entering OFF stops cycles and dissolves the pair (R509); leaving
PRECHARGE except to RUN fails precharge with LEFT (R153); entering SAFE_HOLD or FAULT_LATCHED releases the claim with
RUN_STATE (R353); a rest state entered with BRK_TRIP energised starts the trip rule, and with BRK_AUX closed forces
BLOCK (R465). -/
def Mach.toRun (m : Mach) (dst : RunState) (cause : Nat) : Mach :=
  let frm := m.runState
  let m := m.recordRun dst cause
  let m := m.when (frm == .precharge && dst != .run) (·.prechargeFailed 5)
  let m := m.when (frm == .off && dst == .starting) fun m =>
    let b := m.get F.FLY_LIMITS_burst
    { m.cyclesStart with fly := { m.fly with lanes := m.fly.lanes.map fun l => { l with credit := b } } }
  let m := m.when dst.busy fun m => { m with power := { m.power with heldStandby := none } }
  let m := m.when (dst == .off || dst == .starting) fun m =>
    m.off F.FLY_STOP_latched
  let m := m.when (dst == .off) fun m => m.cyclesStop.dissolvePair
  let m := m.when (dst == .safeHold || dst == .faultLatched) (·.releaseClaim .runState)
  let m := m.when (dst == .stopping) fun m => { m with power := { m.power with stopNs := some m.upNs } }
  let m := m.when (dst.rest) fun m => { m with power := { m.power with stopNs := none, startLeft := 0 } }
  let m := m.when (dst != .starting) (·.set F.PWR_RUN_STAT_start_step (if dst = .precharge then 9 else 0))
  let m := m.when (dst.rest && m.power.heldStandby.isNone) (·.startTripRule)
  m.when (dst.rest && m.brkClosed && !m.power.distaffAbsent) fun m =>
    { (m.setAllBlock 0xFFFFFFFF).log 0x03 1 with power := { m.power with blockHold := true } }

/-! ## The stop broadcast (R154 to R157) -/

/-- The FLY_STOP bit of a source. -/
def stopField : StopSrc → Field
  | .safety => F.FLY_STOP_src_safety | .clock => F.FLY_STOP_src_clock | .sw => F.FLY_STOP_src_sw
  | .partner => F.FLY_STOP_src_partner | .emit => F.FLY_STOP_src_emit

/-- The demand itself: the source bit, and when no broadcast runs, its start: latched, active, counted, notified, sent
out on every launching port, captured; in a formed pair a stop notice goes to the partner (R155). With PD_CHAIN off there is no Flyer. -/
def Mach.demandStop (m : Mach) (src : StopSrc) : Mach :=
  if m.domOn .chain then
    let m := (m.on (stopField src)).on F.FLY_STOP_latched
    if m.flag F.FLY_STOP_active then m
    else
      let m := (((m.on F.FLY_STOP_active).on F.FLY_IRQ_STAT_stop_on).count Reg.FLY_CNT_STOP).each m.stopPorts Mach.stopRun
      let m := { m with fly := { m.fly with stopSinceNs := m.upNs } }
      let m := m.captureSource 4
      m.when (m.pair.formed && src != .partner) (·.sendXl (.notice .stop))
  else m

/-- A demand with the run-state transition of R463: SAFE_HOLD with FLYER_STOP when only src_sw, src_partner or
src_emit is present and the run state is STARTING, PRECHARGE, RUN or STOPPING. -/
def Mach.stopWith (m : Mach) (src : StopSrc) : Mach :=
  let was := m.flag F.FLY_STOP_latched
  let m := m.demandStop src
  m.when (!was && m.flag F.FLY_STOP_latched && m.runState.busy && !m.flag F.FLY_STOP_src_safety
    && !m.flag F.FLY_STOP_src_clock) (·.toRun .safeHold Cause.flyerStop)

/-- Withdraw a source; the broadcast itself ends only by R157. -/
def Mach.withdrawStop (m : Mach) (src : StopSrc) : Mach := m.off (stopField src)

/-- Some demand of R154 is present. -/
def Mach.stopDemanded (m : Mach) : Bool :=
  m.flag F.FLY_STOP_src_safety || m.flag F.FLY_STOP_src_clock || m.flag F.FLY_STOP_src_sw
    || m.flag F.FLY_STOP_src_partner || m.flag F.FLY_STOP_src_emit

/-- The fault loop carries no current: SAF_INPUT reads it open, every node enters autonomous BLOCK, source FLOOP is
stamped when it becomes open (R333, R380). The current reads a free value below 5 mA (R74). -/
def Mach.loopOpens (m : Mach) : Mach :=
  let was := m.flag F.SAF_INPUT_floop
  let m := ((m.off F.SAF_INPUT_floop).set F.SAF_INPUT_floop_i (m.freeNow.toNat % 50)).freeTicked
  let m := { m with chain := { m.chain with nodes := m.chain.nodes.map NodeModel.loopLost } }
  m.when was (·.captureSource 8)

/-! ## Safety causes and permits (R326 to R328) -/

/-- The code of a cause (R327). -/
def SafetyCause.code : SafetyCause → Nat
  | .estop => 1 | .door => 2 | .hvil => 3 | .floop => 4 | .telTrip => 5 | .telLoss => 6 | .telMismatch => 7
  | .discrepancy => 8 | .crossShort => 9 | .outputTest => 10 | .channelLink => 11 | .clock => 12 | .protReq => 13
  | .backstop => 14 | .moduleTrip => 15 | .loopSupply => 16 | .param => 17 | .telNoPermit => 18

/-- The cause latches (R327).
DEDUCED: log entry 14. -/
def SafetyCause.latches : SafetyCause → Bool
  | .door => false | .hvil => false | .telTrip => false | .telLoss => false | .telNoPermit => false | _ => true

/-- The module opens the fault loop for the cause (R327). -/
def SafetyCause.opensLoop : SafetyCause → Bool
  | .estop => true | .door => true | .hvil => true | .telMismatch => true | .discrepancy => true | .crossShort => true
  | .outputTest => true | .channelLink => true | .param => true | _ => false

/-- The cause has a lasting condition; the others are findings of one instant.
DEDUCED: log entry 14. -/
def SafetyCause.lasts : SafetyCause → Bool
  | .telMismatch => false | .crossShort => false | .outputTest => false | .protReq => false | .backstop => false
  | _ => true

/-- The run permit holds (R326). An input that no event has reported on yet counts as off: a demand (R329). -/
def Mach.permitHolds (m : Mach) : Bool :=
  m.safety.conds.isEmpty && m.safety.latched.isEmpty && m.flag F.SAF_INPUT_door_a && m.flag F.SAF_INPUT_door_b
    && m.flag F.SAF_INPUT_estop_a && m.flag F.SAF_INPUT_estop_b && m.flag F.SAF_STAT_param_ok && m.flag F.SAF_STAT_link_ok
    && m.flag F.SAF_STAT_loop_supply_ok && m.safety.tel.permit

/-- The close permit holds (R326). -/
def Mach.closeHolds (m : Mach) : Bool :=
  m.permitHolds && m.flag F.SAF_STAT_door_test && !m.flag F.SAF_TEL_STAT_eth_lost && !m.flag F.SAF_TEL_STAT_can_lost
    && m.flag F.SAF_STAT_coil_ok && m.safety.outFail.isEmpty && m.safety.tel.closeFlag

/-- Form SAF_STAT's permit, demand and latch bits anew; report the edges of the run permit.
DEDUCED: log entry 14. -/
def Mach.permits (m : Mach) : Mach :=
  let was := m.flag F.SAF_STAT_run_permit
  let p := m.permitHolds
  let m := ((m.setB F.SAF_STAT_run_permit p).setB F.SAF_STAT_close_permit m.closeHolds).setB F.SAF_STAT_latched
    (!m.safety.latched.isEmpty)
  let m := m.setB F.SAF_STAT_stop_demand (!m.safety.conds.isEmpty)
  let m := m.setB F.SAF_STAT_loop_open_own (m.safety.floopA || m.safety.floopB)
  let m := m.when (p && !was) (·.on F.SAF_IRQ_STAT_permit_on)
  m.when (was && !p) fun m => (m.on F.SAF_IRQ_STAT_permit_off).startTripRule

/-- Record a cause (R327): first and latest cause, the count of demands, the latch, the demand's outputs: BRK_CLOSE and
DISC_DRV off at once (R328), the fault loop opened where the table says so, the trip rule started, the stop broadcast
demanded by channel A. Channel A needs CI_SAFE (R323), and CHANNEL_LINK is the cause of the channel that found it: the other
channel does nothing for it (R324, R325). -/
def Mach.recordCause (m : Mach) (c : SafetyCause) (opens : Bool := c.opensLoop) : Mach :=
  let n := m.get F.SAF_CAUSE_count
  let m := (m.set F.SAF_CAUSE_latest c.code).set F.SAF_CAUSE_count (if n = 0xFFFF then n else n + 1)
  let m := m.when (m.get F.SAF_CAUSE_first == 0) (·.set F.SAF_CAUSE_first c.code)
  let m := (m.on F.SAF_IRQ_STAT_demand).when (m.safety.conds.isEmpty) (·.captureSource 5)
  let sf := m.safety
  let actsA := m.clkOk .safe && !(c == .channelLink && sf.aloneB && !sf.aloneA)
  let actsB := !(c == .channelLink && sf.aloneA && !sf.aloneB)
  let m := { m with safety := { sf with
      conds := if c.lasts then addOnce sf.conds c else sf.conds
      latched := if c.latches then addOnce sf.latched c else sf.latched
      floopA := sf.floopA || (opens && actsA), floopB := sf.floopB || (opens && actsB)
      closeOn := false, discOn := false } }
  let m := (m.when opens (·.loopOpens)).startTripRule
  let m := m.when actsA fun m => (m.demandStop .safety).when (!c.lasts && m.safety.conds.isEmpty)
    (·.withdrawStop .safety)
  (m.permits).log 0x01 c.code

/-- The run state that a cause leads to (R327, R463), with the run cause of a latched cause given. -/
def Mach.causeRun (m : Mach) (c : SafetyCause) (latchedCause : Nat := Cause.safetyLatched) : Mach :=
  if c.latches then m.when (m.runState != .faultLatched) (·.toRun .faultLatched latchedCause)
  else m.when m.runState.busy (·.toRun .safeHold Cause.safety)

/-- A cause found: recorded with its demand, then the run state follows.
DEDUCED: log entry 14. -/
def Mach.safetyCause (m : Mach) (c : SafetyCause) (latchedCause : Nat := Cause.safetyLatched) : Mach :=
  (m.recordCause c).causeRun c latchedCause

/-- The condition of a cause ends: the demand ends when no condition is left, and with it src_safety; the loop closes
again when no cause that opens it is present or latched. -/
def Mach.endCond (m : Mach) (c : SafetyCause) : Mach :=
  let conds := drop1 m.safety.conds c
  let keep := (conds ++ m.safety.latched).any SafetyCause.opensLoop
  let m := { m with safety := { m.safety with conds := conds, floopA := m.safety.floopA && keep
                                              floopB := m.safety.floopB && keep } }
  (m.when conds.isEmpty (·.withdrawStop .safety)).permits

/-- A bit of SAF_FAULT is set (R347). -/
def Mach.safFault (m : Mach) (f : Field) : Mach := (m.on f).on F.SAF_IRQ_STAT_fault

/-! ## The reset guard (R475) and the open request (R464) -/

/-- The open request: it counts as the demand of the trip rule, records no cause. -/
def Mach.openRequest (m : Mach) : Mach :=
  ({ m.startTripRule with power := { m.power with openReq := true } }).mark .openReq

/-- Steps 1 and 2 of the guard: sw_stop, the open request, SAFE_HOLD with the given cause. FAULT_LATCHED is left by a
fault reset alone (R463). -/
def Mach.guardSteps (m : Mach) (cause : Nat) : Mach :=
  let m := (m.demandStop .sw).openRequest
  if m.runState = .off ∨ m.runState = .faultLatched then m else m.toRun .safeHold cause

/-- The string is energised or a run state that may energise it stands: the guard is needed (R475). -/
def Mach.guardNeeded (m : Mach) : Bool := m.energised

end Sys2Proof.Machine
end

