-- ==== Sys2Proof/Machine/Clock.lean ====
section
/-!
DEFINITION. What a tick of CI_TIME does when no command waits (R366), and the node hold timers that time alone drives
(R125).
-/

namespace Sys2Proof.Machine

/-- One tick of CI_TIME: the increment registers are added to the time base (R366).
DESIGN CHOICE: log entry 1. -/
def TimeState.tick (t : TimeState) : TimeState :=
  let f := t.frac.toNat + t.incrFrac.toNat
  let n := t.ns + t.incrNs + f / 2 ^ 32
  { t with frac := BitVec.ofNat 32 f, ns := n % 1000000000, sec := t.sec + n / 1000000000, up := t.up + 8 }

/-- The module one tick later, when no command waits.
DESIGN CHOICE: log entry 1. -/
def Mach.tick (m : Mach) : Mach :=
  { m with time := m.time.tick
           chain := { m.chain with nodes := m.chain.nodes.map fun n => n.wait m.time.incrNs } }

/-- Time passes up to an instant of the time base.
DESIGN CHOICE: log entry 12. -/
def Mach.passTo (m : Mach) (ns : Nat) : Mach :=
  let d := ns - m.nowNs
  let m := m.advanceTo ns
  { m with chain := { m.chain with nodes := m.chain.nodes.map fun n => n.wait d } }

/-- Time passes until an interval that began at `t0`, counted since power-up, has lasted `ns`.
DESIGN CHOICE: log entry 12. -/
def Mach.passUntil (m : Mach) (t0 ns : Nat) : Mach := m.passTo (m.nowNs + (t0 + ns - m.upNs))

/-- Time passes until an interval has lasted `ns`; one whose beginning the state does not hold has lasted long enough.
DESIGN CHOICE: log entry 12. -/
def Mach.await (m : Mach) (t : Timer) (ns : Nat) : Mach :=
  match m.markOf t with
  | none => m
  | some t0 => m.passUntil t0 ns

/-- The instant `ns` after the sample instant of the present cycle; nothing happens in the cycle when cycles do not
run.
DESIGN CHOICE: log entry 12. -/
def Mach.inCycle (m : Mach) (ns : Nat) (f : Mach → Mach) : Mach :=
  if m.cyclesOn then f (m.passTo (m.instantOf (m.indexAt m.nowNs) + ns)) else m

end Sys2Proof.Machine
end

