-- ==== Sys2Proof/Machine/Dareri.lean ====
section
/-!
DEFINITION. Dareri messages (R396, R397): the header, the access operations of a REQUEST, and the messages that the module
sends.
-/

namespace Sys2Proof.Machine

/-! ## Messages (R396) -/

/-- A message: version, type, flags, count, tag, body length, two reserved bytes, body. -/
def dareri (kind flags count : Nat) (tag : Word) (body : List Byte) : List Byte :=
  [1, BitVec.ofNat 8 kind, BitVec.ofNat 8 flags, BitVec.ofNat 8 count] ++ wordBytes tag
    ++ halfBytes (BitVec.ofNat 16 body.length) ++ [0, 0] ++ body

/-- Message types. -/
def Dareri.request : Nat := 1
def Dareri.response : Nat := 2
def Dareri.event : Nat := 3
def Dareri.telegram : Nat := 4
def Dareri.stream : Nat := 5
def Dareri.keepalive : Nat := 6

/-- A received message without its version and reserved bytes. -/
structure DareriMsg where
  kind  : Nat
  flags : Byte
  count : Nat
  tag   : Word
  body  : List Byte
  deriving DecidableEq, Repr

/-- A 16-bit value from two bytes, most significant first. -/
def half (a b : Byte) : Nat := a.toNat * 256 + b.toNat

/-- The message that a record's bytes hold: none with another version or a wrong length. -/
def dareriOf : List Byte → Option DareriMsg
  | v :: k :: f :: c :: t3 :: t2 :: t1 :: t0 :: l1 :: l0 :: _ :: _ :: body =>
    if v = 1 ∧ half l1 l0 = body.length ∧ body.length ≤ 1280 then some ⟨k.toNat, f, c.toNat, bytesWord t3 t2 t1 t0, body⟩
    else none
  | _ => none

/-! ## Access operations (R397) -/

/-- A read of a number of bytes, or a write of bytes. -/
inductive AccessOp where
  | read (addr len : Nat)
  | write (addr : Nat) (data : List Byte)
  deriving DecidableEq, Repr

/-- The `n` operations that a body holds: none where their lengths do not fill it, or with an op that is neither READ nor WRITE.
DEDUCED: log entry 20. -/
def accessOpsOf : Nat → List Byte → Option (List AccessOp)
  | 0, bs => if bs = [] then some [] else none
  | n + 1, k :: _ :: l1 :: l0 :: a3 :: a2 :: a1 :: a0 :: rest =>
    let a := (bytesWord a3 a2 a1 a0).toNat
    if k = 1 then (accessOpsOf n rest).map (AccessOp.read a (half l1 l0) :: ·)
    else if k = 2 ∧ half l1 l0 ≤ rest.length then
      (accessOpsOf n (rest.drop (half l1 l0))).map (AccessOp.write a (rest.take (half l1 l0)) :: ·)
    else none
  | _ + 1, _ => none

/-- A REQUEST: 1 to 32 operations. -/
structure DareriReq where
  tag         : Word
  stopOnError : Bool
  ops         : List AccessOp
  deriving DecidableEq, Repr

/-- The REQUEST that a message is. -/
def DareriMsg.asRequest (d : DareriMsg) : Option DareriReq :=
  if d.kind = Dareri.request ∧ 1 ≤ d.count ∧ d.count ≤ 32 then
    (accessOpsOf d.count d.body).map fun ops => ⟨d.tag, d.flags.getLsbD 0, ops⟩
  else none

/-! ## Messages of the module -/

/-- The result of one operation in a RESPONSE. -/
def AccessResult.bytes (r : AccessResult) : List Byte :=
  let data := wordsBytes r.data
  halfBytes r.status ++ halfBytes r.aux ++ halfBytes (BitVec.ofNat 16 data.length) ++ [0, 0] ++ data

/-- A RESPONSE: one result per operation. -/
def responseMsg (tag : Word) (retransmit : Bool) (rs : List AccessResult) : List Byte :=
  dareri Dareri.response (if retransmit then 2 else 0) rs.length tag (rs.flatMap AccessResult.bytes)

/-- An EVENT (R400): its tag counts the session's events. -/
def eventMsg (tag : Word) (body : List Word) : List Byte := dareri Dareri.event 0 0 tag (wordsBytes body)

/-- A KEEPALIVE. -/
def keepaliveMsg : List Byte := dareri Dareri.keepalive 0 0 0 []

/-- A TELEGRAM. -/
def telegramMsg (bs : List Byte) : List Byte := dareri Dareri.telegram 0 0 0 bs

/-- A STREAM message (R416): stream, set, cycle of the first record, drops so far, record size, then its one record. -/
def streamMsg (tag : Word) (s set : Nat) (cycle drops : Word) (rec' : List Byte) : List Byte :=
  dareri Dareri.stream 0 1 tag ([BitVec.ofNat 8 s, BitVec.ofNat 8 set, 0, 0] ++ wordBytes cycle ++ wordBytes drops
    ++ halfBytes (BitVec.ofNat 16 rec'.length) ++ [0, 0] ++ rec')

end Sys2Proof.Machine
end

