-- ==== Sys2Proof/Machine/SafetyIsland.lean ====
section
/-!
DEFINITION. The safety island (ch. 10): two-channel inputs, loops, output tests, telegrams, keyed sequences and the
parameter set.
-/

namespace Sys2Proof.Machine

/-! ## Keyed sequences and the parameter set (R344 to R346) -/

/-- A keyed sequence aborts: the report names the master that caused it. -/
def Mach.keyAbort (m : Mach) (master : Nat) : Mach :=
  let m := ((m.set F.SAF_KEY_STAT_master master).set F.SAF_KEY_STAT_result 2).on F.SAF_IRQ_STAT_key_abort
  { m with safety := { m.safety with key := none } }

/-- A sequence ends with a result: 0b01 accepted, 0b11 refused by condition. -/
def Mach.keyDone (m : Mach) (master result : Nat) : Mach :=
  let m := (m.set F.SAF_KEY_STAT_master master).set F.SAF_KEY_STAT_result result
  { m with safety := { m.safety with key := none } }

/-- The parameter words as written in SAF_PARAM_n. -/
def Mach.paramWords (m : Mach) : List Word := (List.range 16).map fun n => m.rd (Reg.SAF_PARAM n)

/-- Word `n` of the set in force. -/
def Mach.param (m : Mach) (n : Nat) : Nat := (m.safety.paramForce.getD n 0).toNat

/-- The range check of R346. -/
def paramInRange (ws : List Word) : Bool :=
  let w := fun n width => (ws.getD n 0).toNat % 2 ^ width
  decide (w 0 2 ≤ 1) && decide (2 ≤ w 2 8 ∧ w 2 8 ≤ 10) && decide (1 ≤ w 3 8 ∧ w 3 8 ≤ 50)
    && decide (10 ≤ w 4 16 ∧ w 4 16 ≤ 500) && decide (100 ≤ w 5 16 ∧ w 5 16 ≤ 5000)
    && decide (w 5 16 + 500 ≤ w 6 16 ∧ w 6 16 ≤ 10000) && (ws.drop 7).all (· == 0)

/-- Both channels check the set and compute its CRC; it is in force only when both accept it, else cause PARAM. -/
def Mach.paramLoad (m : Mach) : Mach :=
  let ws := m.paramWords
  if paramInRange ws then
    let c := crcWords ws
    let m := (((m.wr Reg.SAF_PARAM_CRC c).wr Reg.SAF_PARAM_CRC_B c).on F.SAF_STAT_param_ok).set F.SAF_STAT_floop_mode
      ((ws.getD 0 0).toNat % 4)
    ({ m with safety := { m.safety with paramForce := ws } }).endCond .param
  else ((m.off F.SAF_STAT_param_ok).safFault F.SAF_FAULT_param).safetyCause .param

/-- The parameter load is accepted in OFF and in STARTING at step PARAM. -/
def Mach.paramTime (m : Mach) : Bool :=
  m.runState == .off || (m.runState == .starting && m.get F.PWR_RUN_STAT_start_step == 3)
    || (m.power.joining && m.get F.PWR_RUN_STAT_start_step == 11)

/-- The second key of a sequence whose first key was `k0`. -/
def secondKey (k0 : Word) : Word := if k0 = 0x0000A5C3 then 0x00003C5A else 0x0000E7A9

/-- SAF_KEY takes a key (R344). -/
def Mach.keyWrite (m : Mach) (master : Nat) (key : Word) : Mach :=
  match m.safety.key with
  | none =>
    if (key = 0x0000A5C3 ∧ (1 ≤ master ∧ master ≤ 8 ∨ master = 13)) ∨ (key = 0x00009A7E ∧ master = 15) then
      { m with safety := { m.safety with key := some (master, key, m.upNs) } }
    else m.keyAbort master
  | some (m0, k0, t0) =>
    if master = m0 ∧ key = secondKey k0 ∧ m.upNs ≤ t0 + 1000000 then
      if k0 = 0x0000A5C3 then
        if m.safety.conds.isEmpty then
          let m := (m.keyDone master 1).on F.SAF_STAT_reset_armed
          { m with safety := { m.safety with armedNs := some m.upNs } }
        else m.keyDone master 3
      else if m.paramTime then (m.keyDone master 1).paramLoad
      else m.keyDone master 3
    else m.keyAbort master

/-- SAF_KEY_WRITE (R344). -/
def execSafKeyWrite (master : Nat) (key : Word) (s : State) : Host.Outcome State Fault Refusal :=
  eff s (s.mach.access Reg.SAF_KEY (·.keyWrite master key))

/-- KEY_SEQUENCE_TIMEOUT (R344): no second key within 1 ms. -/
def execKeySequenceTimeout (s : State) : Host.Outcome State Fault Refusal :=
  eff s (match s.mach.safety.key with
    | none => s.mach
    | some (m0, _, t) => (s.mach.passUntil t 1000000).keyAbort m0)

/-- RESET_ARM_EXPIRY (R345): the armed reset lapses. -/
def Mach.disarm (m : Mach) : Mach :=
  { m.off F.SAF_STAT_reset_armed with safety := { m.safety with armedNs := none } }

def execResetArmExpiry (s : State) : Host.Outcome State Fault Refusal :=
  eff s (match s.mach.safety.armedNs with
    | none => s.mach
    | some t => (s.mach.passUntil t 1000000000).disarm)

/-! ## Fault reset (R345) -/

/-- The re-tests of R329 that have not passed, or a BRK_AUX difference that lasts, keep DISCREPANCY. -/
def Mach.discPending (m : Mach) : Bool :=
  m.safety.retestDoor.isSome || m.safety.retestEstop.isSome
    || (m.flag F.SAF_FAULT_disc_brk_aux && (m.flag F.SAF_INPUT_brk_aux_a != m.flag F.SAF_INPUT_brk_aux_b))

/-- The latched causes and SAF_FAULT clear; what is left latched keeps FAULT_LATCHED. The rail bit follows its rail. -/
def Mach.faultReset (m : Mach) : Mach :=
  if m.safety.conds.isEmpty then
    let rail := m.flag F.SAF_FAULT_coil_rail
    let keep := if m.discPending then m.safety.latched.filter (· == .discrepancy) else []
    let m := ((m.wr Reg.SAF_FAULT 0).setB F.SAF_FAULT_coil_rail rail).set F.SAF_CAUSE_first 0
    let m := { m.disarm with safety := { m.disarm.safety with latched := keep, floopA := false, floopB := false
                                                              outFail := [] } }
    let m := m.permits
    m.when (m.runState == .faultLatched && keep.isEmpty) (·.toRun .safeHold Cause.faultReset)
  else m

/-! ## Two-channel inputs (R329 to R331) -/

/-- The input bits of SAF_INPUT: input and channel. -/
def inputField : ContactInput → Channel → Field
  | .door, .a => F.SAF_INPUT_door_a | .door, .b => F.SAF_INPUT_door_b
  | .estop, .a => F.SAF_INPUT_estop_a | .estop, .b => F.SAF_INPUT_estop_b

/-- The cause an input makes. -/
def inputCause : ContactInput → SafetyCause
  | .door => .door | .estop => .estop

/-- The re-test of an input after a discrepancy (R329). -/
def SafetyState.retest (sf : SafetyState) : ContactInput → Option Bool
  | .door => sf.retestDoor | .estop => sf.retestEstop

/-- Set the re-test of an input. -/
def SafetyState.setRetest (sf : SafetyState) (i : ContactInput) (v : Option Bool) : SafetyState :=
  match i with
  | .door => { sf with retestDoor := v } | .estop => { sf with retestEstop := v }

/-- DISCREPANCY ends as a condition when no re-test is open and BRK_AUX agrees. -/
def Mach.discSettle (m : Mach) : Mach :=
  if m.discPending then m else if .discrepancy ∈ m.safety.conds then m.endCond .discrepancy else m

/-- The door test (R331): both off together, then both on together without a discrepancy. -/
def Mach.doorTest (m : Mach) (a b : Bool) : Mach :=
  if !a && !b then { m with safety := { m.safety with doorOff := true } }
  else if a && b && m.safety.doorOff && !m.flag F.SAF_FAULT_disc_door then (m.on F.SAF_STAT_door_test).permits
  else m

/-- A channel of an input has a new filtered state: the re-test advances, a demand starts with a channel that reads off, or ends
once both read on. -/
def Mach.inputChange (m : Mach) (i : ContactInput) (c : Channel) (on : Bool) : Mach :=
  let m := m.setB (inputField i c) on
  let a := m.flag (inputField i .a)
  let b := m.flag (inputField i .b)
  let m := m.when (a != b) (·.mark (.differ (match i with | .door => .door | .estop => .estop)))
  let rt := match m.safety.retest i with
    | none => none
    | some seen => if !a && !b then some true else if a && b && seen then none else some seen
  let m := { m with safety := m.safety.setRetest i rt }
  let m := if a && b && rt.isNone then
      (if inputCause i ∈ m.safety.conds then m.endCond (inputCause i) else m.permits)
    else (if on || inputCause i ∈ m.safety.conds then m else m.safetyCause (inputCause i))
  let m := m.discSettle
  match i with
  | .door => m.doorTest a b
  | .estop => m

/-- DOOR_INPUT_CHANGE (R329, R331). -/
def execDoorInputChange (c : Channel) (on : Bool) (s : State) : Host.Outcome State Fault Refusal :=
  eff s (s.mach.inputChange .door c on)

/-- ESTOP_INPUT_CHANGE (R329). -/
def execEstopInputChange (c : Channel) (on : Bool) (s : State) : Host.Outcome State Fault Refusal :=
  eff s (s.mach.inputChange .estop c on)

/-- INPUT_DISCREPANCY (R329): the channels have differed for 50 ms. For DOOR the door test returns to 0 (R331). -/
def Mach.inputDiscrepancy (m : Mach) (i : ContactInput) : Mach :=
  if m.flag (inputField i .a) = m.flag (inputField i .b) then m
  else
    let m := m.await (.differ (match i with | .door => .door | .estop => .estop)) 50000000
    let m := m.safFault (match i with | .door => F.SAF_FAULT_disc_door | .estop => F.SAF_FAULT_disc_estop)
    let m := { m with safety := { m.safety.setRetest i (some false) with doorOff := m.safety.doorOff && decide (i ≠ ContactInput.door) } }
    let m := m.when (decide (i = ContactInput.door)) (·.off F.SAF_STAT_door_test)
    m.safetyCause .discrepancy

def execInputDiscrepancy (i : ContactInput) (s : State) : Host.Outcome State Fault Refusal :=
  eff s (s.mach.inputDiscrepancy i)

/-- CROSS_SHORT (R73, R327): a latched cause; for DOOR the door test returns to 0 (R331). SAF_FAULT has no bit for BRK_AUX. -/
def execCrossShort (i : SourcedInput) (s : State) : Host.Outcome State Fault Refusal :=
  let m := match i with
    | .door => s.mach.safFault F.SAF_FAULT_xs_door
    | .estop => s.mach.safFault F.SAF_FAULT_xs_estop
    | .brkAux => s.mach
  let m := m.when (decide (i = SourcedInput.door)) fun m => { m.off F.SAF_STAT_door_test with safety := { m.safety with doorOff := false } }
  eff s (m.safetyCause .crossShort)

/-! ## Loops and rails -/

/-- The module holds the fault loop open itself. -/
def Mach.loopHeld (m : Mach) : Bool := m.safety.floopA || m.safety.floopB

/-- Note whether a loop's reading shows a short to an external source: above 13 mA, or above 60 V on its IN pin (R74). The
spec names the finding and no reaction, and the model has none.
DESIGN CHOICE: log entry 68. -/
def Mach.loopShort (m : Mach) (hvil short : Bool) : Mach :=
  let s := m.safety.shorts
  { m with safety := { m.safety with shorts := if hvil then (s.1, short) else (short, s.2) } }

/-- FAULT_LOOP_OPEN (R333): FLOOP is recorded unless the module opened the loop. -/
def execFaultLoopOpen (s : State) : Host.Outcome State Fault Refusal :=
  let m := s.mach.loopOpens
  eff s (if m.loopHeld || .floop ∈ m.safety.conds then m else m.safetyCause .floop)

/-- A current of 5 mA or more, in 0.1 mA, is a closed loop while the loop supply is within its limits (R47, R74); boundary scan
holds the loops without current (R515). -/
def Mach.loopCloses (m : Mach) (current : Byte) : Bool :=
  m.flag F.SAF_STAT_loop_supply_ok && !m.extest && decide (50 ≤ current.toNat)

/-- The current shows a short: above 13 mA, or with more than 60 V on the IN pin (R74). -/
def loopShorted (current : Byte) (over60 : Bool) : Bool := decide (130 < current.toNat) || over60

/-- Every element of the fault loop is closed: no comparator of a node is tripped (R127). -/
def Mach.elementsClosed (m : Mach) : Mach :=
  { m with chain := { m.chain with nodes := m.chain.nodes.map fun (n : NodeModel) => { n with tripped := false } } }

/-- FAULT_LOOP_CLOSE (R333): the loop reads closed, every element in it is closed, and FLOOP's condition is gone; while the module
holds the loop open no current flows. -/
def execFaultLoopClose (current : Byte) (over60 : Bool) (s : State) : Host.Outcome State Fault Refusal :=
  let m := s.mach
  eff s (if m.loopHeld || !m.loopCloses current then m
    else (((m.elementsClosed.on F.SAF_INPUT_floop).set F.SAF_INPUT_floop_i current.toNat).loopShort false
      (loopShorted current over60)).endCond .floop)

/-- The HVIL loop carries no current: it reads open, at a free value below 5 mA (R74). -/
def Mach.hvilOpens (m : Mach) : Mach :=
  ((m.off F.SAF_INPUT_hvil).set F.SAF_INPUT_hvil_i (m.freeNow.toNat % 50)).freeTicked

/-- HVIL_OPEN (R333): HVIL is recorded. -/
def execHvilOpen (s : State) : Host.Outcome State Fault Refusal :=
  let m := s.mach.hvilOpens
  eff s (if .hvil ∈ m.safety.conds then m else m.safetyCause .hvil)

/-- HVIL_CLOSE (R327): the non-latched cause ends. -/
def execHvilClose (current : Byte) (over60 : Bool) (s : State) : Host.Outcome State Fault Refusal :=
  let m := s.mach
  eff s (if !m.loopCloses current then m
    else (((m.on F.SAF_INPUT_hvil).set F.SAF_INPUT_hvil_i current.toNat).loopShort true
      (loopShorted current over60)).endCond .hvil)

/-- LOOP_SUPPLY_FAULT (R47): both loops are treated as open; cause LOOP_SUPPLY. -/
def execLoopSupplyFault (s : State) : Host.Outcome State Fault Refusal :=
  let m := ((s.mach.off F.SAF_STAT_loop_supply_ok).hvilOpens).loopOpens
  eff s ((m.safFault F.SAF_FAULT_loop_supply).safetyCause .loopSupply)

/-- LOOP_SUPPLY_RECOVERY (R326). -/
def execLoopSupplyRecovery (s : State) : Host.Outcome State Fault Refusal :=
  eff s ((s.mach.on F.SAF_STAT_loop_supply_ok).endCond .loopSupply)

/-- COIL_RAIL_FAULT (R80): with AUX_24V at 20 V or more it is reported, and the close permit falls. -/
def execCoilRailFault (s : State) : Host.Outcome State Fault Refusal :=
  eff s (if 2000 ≤ s.mach.get F.PWR_SUP_STAT_aux_v then
      ((s.mach.off F.SAF_STAT_coil_ok).safFault F.SAF_FAULT_coil_rail).permits
    else s.mach)

/-- COIL_RAIL_RECOVERY (R80). After a power-up coil_ok reads 0 until the first one, which reports the rail's first reading.
DESIGN CHOICE: log entry 68. -/
def execCoilRailRecovery (s : State) : Host.Outcome State Fault Refusal :=
  eff s ((s.mach.on F.SAF_STAT_coil_ok).off F.SAF_FAULT_coil_rail).permits

/-! ## The channel link (R324, R325) -/

/-- CHANNEL_EXCHANGE (R324): a valid exchange; the link is valid and no channel acts alone. -/
def execChannelExchange (s : State) : Host.Outcome State Fault Refusal :=
  let m := s.mach.on F.SAF_STAT_link_ok
  let m := { m with safety := { m.safety with linkCount := m.safety.linkCount + 1, aloneA := false, aloneB := false } }
  eff s (m.endCond .channelLink)

/-- A channel finds the link lost (R324, R325): it records CHANNEL_LINK and acts alone. -/
def Mach.linkLoss (m : Mach) (c : Channel) : Mach :=
  let m := (m.off F.SAF_STAT_link_ok).safFault F.SAF_FAULT_link
  let m := { m with safety := { m.safety with aloneA := m.safety.aloneA || decide (c = Channel.a)
                                              aloneB := m.safety.aloneB || decide (c = Channel.b)
                                              aloneBNs := if c = Channel.b then m.upNs else m.safety.aloneBNs } }
  m.safetyCause .channelLink

/-- CHANNEL_LINK_LOSS (R324, R325). -/
def execChannelLinkLoss (c : Channel) (s : State) : Host.Outcome State Fault Refusal := eff s (s.mach.linkLoss c)

/-- CHANNEL_B_BRK_TRIP_RELEASE (R325): only channel B acting alone, trip_timeout and 0.5 ms after its own detection. -/
def execChannelBBrkTripRelease (s : State) : Host.Outcome State Fault Refusal :=
  eff s (s.mach.when s.mach.safety.aloneB fun m =>
    (m.passUntil m.safety.aloneBNs (m.param 6 % 65536 * 1000 + 500000)).releaseTripLs)

/-! ## Output tests (R335 to R337) -/

/-- The SAF_FAULT bit of a failed output test. -/
def testFault : Drive → Field
  | .brkTrip => F.SAF_FAULT_test_trip | .brkClose => F.SAF_FAULT_test_close | .discDrv => F.SAF_FAULT_test_disc

/-- The switch of BRK_TRIP that a channel drives is on. -/
def Mach.tripSwitch (m : Mach) : Channel → Bool
  | .a => m.flag F.SAF_STAT_trip_hs | .b => m.flag F.SAF_STAT_trip_ls

/-- A channel holds its switch of BRK_TRIP off. -/
def Mach.tripSwitchOff (m : Mach) : Channel → Mach
  | .a => m.releaseTripHs | .b => m.releaseTripLs

/-- The other channel. -/
def otherChannel : Channel → Channel
  | .a => .b | .b => .a

/-- OUTPUT_TEST_PULSE (R79, R335 to R337): no pulse on a BRK_TRIP switch that is off; with a demand, also one whose cause has
latched at once, the result is discarded and the switch stays off; a failure records OUTPUT_TEST and the other channel holds its switch off; a pass is the output's last. -/
def Mach.outputTest (m : Mach) (c : Channel) (o : Drive) (ok : Bool) : Mach :=
  if o = .brkTrip ∧ m.tripSwitch c = false then m
  else if !m.safety.conds.isEmpty || !m.safety.latched.isEmpty then
    (m.count Reg.SAF_CNT_TEST_DISC).when (o == .brkTrip) (·.tripSwitchOff c)
  else if ok then
    ({ m with safety := { m.safety with outFail := drop1 m.safety.outFail (o, c) } }).permits
  else
    let m := m.safFault (testFault o)
    let m := { m with safety := { m.safety with outFail := addOnce m.safety.outFail (o, c) } }
    (m.safetyCause .outputTest).when (o == .brkTrip) (·.tripSwitchOff (otherChannel c))

def execOutputTestPulse (c : Channel) (o : Drive) (ok : Bool) (s : State) : Host.Outcome State Fault Refusal :=
  eff s (s.mach.outputTest c o ok)

/-- SOURCE_OFF_PULSE (R72, R330): the channel's source pins carry the pulse, channel B's after channel A's. While a source is in
its own pulse the input fed from it holds its filtered state. -/
def Mach.sourcePulse (m : Mach) (c : Channel) : Mach :=
  if c = .b ∧ m.safety.pulse ≠ some .a ∨ c = .a ∧ m.safety.pulse = some .a then m
  else { m with safety := { m.safety with pulse := some c } }.send (.sourcePulse c)

def execSourceOffPulse (c : Channel) (s : State) : Host.Outcome State Fault Refusal := eff s (s.mach.sourcePulse c)

/-! ## The trip rule's end (R334, R342) -/

/-- A trip or no-permit telegram that is not confirmed holds BRK_TRIP, when no other cause demands. -/
def Mach.tripHeld (m : Mach) : Bool :=
  m.safety.tel.pending.isSome && !m.power.openReq
    && m.safety.conds.all fun c => c == .telTrip || c == .telNoPermit

/-- TRIP_RELEASE (R334): once a demand or open request stands, channel A releases its high-side switch at the earlier of two
instants: trip_hold of a small current in the comparator stream, or trip_timeout after the demand. With no healthy stream only
the second counts.
DESIGN CHOICE: log entry 12. -/
def Mach.tripRelease (m : Mach) : Mach :=
  match m.safety.tripRule with
  | none => m
  | some t0 =>
    if m.tripHeld then m
    else
      let late := t0 + m.param 6 % 65536 * 1000
      let at' := match m.safety.quietNs with
        | none => late
        | some q => min late (max t0 (q + m.param 5 % 65536 * 1000))
      (m.passUntil at' 0).releaseTripHs

def execTripRelease (s : State) : Host.Outcome State Fault Refusal := eff s s.mach.tripRelease

/-! ## Safety telegrams (R338 to R342) -/

/-- The word at a byte offset of a telegram. -/
def telWord (bs : List Byte) (o : Nat) : Word :=
  bytesWord (bs.getD o 0) (bs.getD (o + 1) 0) (bs.getD (o + 2) 0) (bs.getD (o + 3) 0)

/-- The flags of a telegram. -/
def telFlag (bs : List Byte) (i : Nat) : Bool := (bs.getD 17 0).getLsbD i

/-- A copy of the sequence has already come on the path: the copy is a duplicate (R339). -/
def TelState.has (t : TelState) (p : TelPath) (seq : Word) : Bool := t.seen.contains (p, seq)

/-- The newest sequence that the module knows: of a copy that waits, of the last accepted telegram, of the reference. -/
def TelState.newest (t : TelState) : Option Word :=
  match t.firsts.getLast? with
  | some f => some f.seq
  | none => match t.lastOk with
    | some l => some l
    | none => t.ref

/-- The time-stamp condition: within ±tel_age of the module's time, seconds by their low 32 bits. -/
def Mach.telAgeOk (m : Mach) (bs : List Byte) : Bool :=
  let d : Int := ((telWord bs 4) - BitVec.ofNat 32 m.time.sec).toInt * 1000000000
    + ((telWord bs 8).toNat : Int) - (m.time.ns : Int)
  decide (d.natAbs ≤ m.param 3 % 256 * 1000000)

/-- The conditions of R339 but the sequence. -/
def Mach.telFormOk (m : Mach) (bs : List Byte) : Bool :=
  bs.length == 32 && safetyCrc (bs.take 28) == telWord bs 28 && bs.getD 12 0 == 0x51
    && bs.getD 13 0 == BitVec.ofNat 8 (m.get F.GLB_SLOT_slot) && m.param 1 % 65536 != 0
    && (bs.getD 14 0 ++ bs.getD 15 0 : BitVec 16) == BitVec.ofNat 16 (m.param 1)
    && m.telAgeOk bs && m.flag F.TB_STAT_synced

/-- The copy's sequence was confirmed from the other path alone and this path has not delivered it. -/
def Mach.telLate (m : Mach) (p : TelPath) (seq : Word) : Option TelCopy :=
  match m.safety.tel.lastOk with
  | none => none
  | some l => if (l - seq).toNat ≤ 100 then m.safety.tel.absent.find? fun c => c.seq == seq && c.path == p else none

/-- The sequence condition for a copy that is not late: 1 to 100 above the last accepted one, or waived for the first copy,
whose sequence is the reference of those that follow until one is accepted.
DEDUCED: log entry 14. -/
def Mach.telSeqOk (m : Mach) (seq : Word) : Bool :=
  match m.safety.tel.lastOk with
  | none => match m.safety.tel.ref with
    | none => true
    | some r => decide ((seq - r).toNat ≤ 100)
  | some l => decide (1 ≤ (seq - l).toNat ∧ (seq - l).toNat ≤ 100)

/-- The status telegram (R338), sent on both paths. -/
def Mach.statusBytes (m : Mach) (echo : Word) : List Byte :=
  let flags : Nat := (m.flag F.SAF_STAT_run_permit).toNat + 2 * (m.flag F.SAF_STAT_close_permit).toNat
    + 4 * (m.flag F.SAF_STAT_latched).toNat + 8 * (m.flag F.SAF_STAT_stop_demand).toNat
    + 16 * (m.flag F.SAF_STAT_brk_closed).toNat + 32 * (m.flag F.SAF_STAT_door_test).toNat
  let b := wordBytes m.safety.tel.ownSeq ++ wordBytes (BitVec.ofNat 32 m.time.sec) ++ wordBytes (BitVec.ofNat 32 m.time.ns)
    ++ [0x52, BitVec.ofNat 8 (m.get F.GLB_SLOT_slot)] ++ halfBytes (BitVec.ofNat 16 (m.param 1))
    ++ halfBytes (BitVec.ofNat 16 flags) ++ wordBytes echo ++ [BitVec.ofNat 8 (m.get F.SAF_CAUSE_first)]
    ++ List.replicate 5 0
  b ++ wordBytes (safetyCrc b)

/-- The sessions that a status telegram goes to (R401): those that delivered a valid copy of the answered one, or with
none the one that delivered the last valid Ethernet copy; closed sessions get nothing. -/
def Mach.statusSessions (m : Mach) (echo : Word) : List Nat :=
  let l := m.safety.tel.ethSess
  let l := if m.safety.tel.lastEth = some echo then l else l.getLast?.toList
  l.filter fun s => m.host.sessions.any (·.id == s)

/-- Send the status telegram that answers sequence `echo`: on Ethernet, and on CAN1 through MB0 (R424). -/
def Mach.sendStatus (m : Mach) (echo : Word) : Mach :=
  let b := m.statusBytes echo
  let m := m.each (m.statusSessions echo) fun m s => m.send (.dareri s (telegramMsg b))
  let m := m.canLoad 1 (0x180 + m.get F.GLB_SLOT_slot) 13 b
  { m with safety := { m.safety with tel := { m.safety.tel with ownSeq := m.safety.tel.ownSeq + 1 } } }

/-- A demanding flag of a first valid copy acts at once (R340, R342). -/
def Mach.telDemand (m : Mach) (c : SafetyCause) (seq : Word) : Mach :=
  if c ∈ m.safety.conds then m
  else
    let m := m.when (c == .telTrip) (·.on F.SAF_TEL_STAT_trip_pending)
    let m := { m with safety := { m.safety with tel := { m.safety.tel with pending := some (c, seq), permit := false } } }.mark .trip
    m.safetyCause c

/-- The pending trip is confirmed: BRK_TRIP may be released (R342). -/
def Mach.tripConfirmed (m : Mach) : Mach :=
  { m.off F.SAF_TEL_STAT_trip_pending with
    safety := { m.safety with tel := { m.safety.tel with pending := none } } }

/-- A telegram is confirmed: accepted, with its permitting flags, the end of telegram causes whose BRK_TRIP has been
released, the confirmation of a pending trip, and an armed fault reset (R340, R342, R345). -/
def Mach.telConfirm (m : Mach) (seq : Word) (bs : List Byte) : Mach :=
  let trip := telFlag bs 1
  let run := telFlag bs 0
  let m := match m.safety.tel.pending with
    | some (.telTrip, q) => if seq = q + 1 ∧ trip then m.tripConfirmed else m
    | some (_, q) => if seq = q + 1 ∧ (trip ∨ ¬ run) then m.tripConfirmed else m
    | none => m
  let m := (m.wr Reg.SAF_TEL_SEQ seq).on F.SAF_TEL_STAT_confirmed
  let m := { m with safety := { m.safety with tel := { m.safety.tel with
      lastOk := some seq, permit := run && !trip, closeFlag := telFlag bs 3
      firsts := m.safety.tel.firsts.filter (·.seq != seq), confirmed := true, okNs := m.upNs } } }
  let released := !m.flag F.SAF_STAT_trip_hs
  let m := m.when (!trip && released && .telTrip ∈ m.safety.conds) (·.endCond .telTrip)
  let m := m.when (run && !trip && released && .telNoPermit ∈ m.safety.conds) (·.endCond .telNoPermit)
  let m := m.when (decide (.telLoss ∈ m.safety.conds)) (·.endCond .telLoss)
  let m := m.permits
  let m := m.when (telFlag bs 2 && m.flag F.SAF_STAT_reset_armed
    && decide (m.upNs ≤ m.safety.armedNs.getD 0 + 1000000000)) (·.faultReset)
  m.sendStatus seq

/-- The other path. -/
def otherPath : TelPath → TelPath
  | .eth => .can1 | .can1 => .eth

/-- A valid copy shows its path alive (R341); its sequence is noted (R339). With MB0 of CAN1 suspended the CAN path is lost all the
same (R436).
DEDUCED: log entry 39. -/
def Mach.pathAlive (m : Mach) (p : TelPath) (seq : Word) : Mach :=
  let t := m.safety.tel
  let t := { t with seen := (p, seq) :: t.seen, lastEth := if p = TelPath.eth then some seq else t.lastEth }
  if p = .can1 ∧ m.flag (F.CAN_MB_CTRL_suspended 1 0) then { m with safety := { m.safety with tel := t } }
  else
  let m := m.mark (.path p)
  { m.off (match p with | .eth => F.SAF_TEL_STAT_eth_lost | .can1 => F.SAF_TEL_STAT_can_lost) with
    safety := { m.safety with tel := t } }

/-- TELEGRAM_COPY_RX (R339, R340). -/
def Mach.telegramRx (m : Mach) (p : TelPath) (bs : List Byte) : Mach :=
  let seq := telWord bs 0
  if m.telFormOk bs then
    if m.safety.tel.has p seq then m
    else match m.telLate p seq with
      | some c =>
        let m := m.pathAlive p seq
        let m := { m with safety := { m.safety with tel := { m.safety.tel with absent := drop1 m.safety.tel.absent c } } }
        if c.bytes.take 28 = bs.take 28 then m.permits
        else (m.safFault F.SAF_FAULT_tel_mismatch).safetyCause .telMismatch
      | none =>
        if m.telSeqOk seq then
          let m := m.pathAlive p seq
          match m.safety.tel.firsts.find? (·.seq == seq) with
          | some f =>
            if f.bytes.take 28 = bs.take 28 then m.telConfirm seq bs
            else
              let m := { m with safety := { m.safety with tel := { m.safety.tel with
                firsts := drop1 m.safety.tel.firsts f } } }
              (m.safFault F.SAF_FAULT_tel_mismatch).safetyCause .telMismatch
          | none =>
            let t := m.safety.tel
            let gap := match t.newest with
              | none => false
              | some l => decide (1 < (seq - l).toInt)
            let m := m.when gap (·.count Reg.SAF_CNT_TEL_GAP)
            let m := { m with safety := { m.safety with tel := { t with
              firsts := t.firsts ++ [TelCopy.mk seq p bs m.upNs], ref := some (t.ref.getD seq) } } }
            let m := m.permits
            if telFlag bs 1 then m.telDemand .telTrip seq
            else if telFlag bs 0 then m
            else m.telDemand .telNoPermit seq
        else m.count Reg.SAF_CNT_TEL_BAD
  else m.count Reg.SAF_CNT_TEL_BAD

def execTelegramCopyRx (p : TelPath) (bytes : List Byte) (s : State) : Host.Outcome State Fault Refusal :=
  eff s (s.mach.telegramRx p bytes)

/-- TELEGRAM_CONFIRM_WINDOW (R340): the oldest copy that waits is confirmed alone; the other path is absent for it. -/
def Mach.telWindow (m : Mach) : Mach :=
  match m.safety.tel.firsts with
  | [] => m
  | f :: _ =>
    let m := (m.passUntil f.atNs 5000000).count Reg.SAF_CNT_TEL_LATE
    let m := { m with safety := { m.safety with tel := { m.safety.tel with
      absent := (m.safety.tel.absent ++ [{ f with path := otherPath f.path }]).reverse.take 101 |>.reverse } } }
    m.telConfirm f.seq f.bytes

def execTelegramConfirmWindow (s : State) : Host.Outcome State Fault Refusal := eff s s.mach.telWindow

/-- TELEGRAM_PATH_LOSS (R341): TEL_LOSS with both paths lost, or with no telegram confirmed for 20 ms. With both paths lost the
sequence condition is waived for the next copy (R339). -/
def Mach.pathLoss (m : Mach) (p : TelPath) : Mach :=
  let f := match p with | .eth => F.SAF_TEL_STAT_eth_lost | .can1 => F.SAF_TEL_STAT_can_lost
  let m := m.await (.path p) 20000000
  let was := m.flag f
  let m := (m.on f).when (!was) (·.on F.SAF_IRQ_STAT_path_lost)
  if m.flag F.SAF_TEL_STAT_eth_lost && m.flag F.SAF_TEL_STAT_can_lost then
    let m := m.off F.SAF_TEL_STAT_confirmed
    let m := { m with safety := { m.safety with tel := { m.safety.tel with
      lastOk := none, ref := none, seen := [], lastEth := none, firsts := [], absent := [], permit := false
      confirmed := false } } }
    if .telLoss ∈ m.safety.conds then m else m.safetyCause .telLoss
  else if m.safety.tel.confirmed ∧ m.safety.tel.okNs + 20000000 ≤ m.upNs then
    let m := m.off F.SAF_TEL_STAT_confirmed
    let m := { m with safety := { m.safety with tel := { m.safety.tel with permit := false, confirmed := false } } }
    if .telLoss ∈ m.safety.conds then m else m.safetyCause .telLoss
  else m.permits

def execTelegramPathLoss (p : TelPath) (s : State) : Host.Outcome State Fault Refusal := eff s (s.mach.pathLoss p)

/-- TRIP_CONFIRM_TIMEOUT (R342): 2 × tel_period have passed; the trip counts as confirmed. -/
def execTripConfirmTimeout (s : State) : Host.Outcome State Fault Refusal :=
  eff s (s.mach.when s.mach.safety.tel.pending.isSome fun m =>
    (m.await .trip (m.param 2 % 256 * 2000000)).tripConfirmed)

end Sys2Proof.Machine
end

