-- ==== Sys2Proof/Machine/Can.lean ====
section
/-!
DEFINITION. The CAN FD ports (ch. 14): arbitration, sent and received frames, clashes, errors and bus-off, the message
buffers and the receive FIFO. An attempt to send is one step, the command that reports its end: what is committed during
an attempt is a command behind it in the queue (R428, R429).
-/

namespace Sys2Proof.Machine

/-! ## Frames -/

/-- The number of a port. -/
def canPortNo (x : BitVec 1) : Nat := x.toNat

/-- The bytes of a frame by its dlc code and format (R425, R431). -/
def canLength (info : Word) : Nat :=
  let d := fieldOf info 16 4
  if info.getLsbD 20 then 0
  else if !info.getLsbD 21 then min 8 d
  else [0, 1, 2, 3, 4, 5, 6, 7, 8, 12, 16, 20, 24, 32, 48, 64].getD d 64

/-- The data bytes of a frame. -/
def canBytes (f : CanFrame) : List Byte := (wordsBytes f.data).take (canLength f.info)

/-- The entry of a frame (R431): reserved bits 0, bytes beyond the length 0. -/
def canEntry (f : CanFrame) : CanFrame :=
  let id := if f.id.getLsbD 31 then f.id &&& 0x9FFFFFFF else f.id &&& 0x1FFC0000
  let ws := bytesWords (canBytes f)
  ⟨id, f.info &&& 0x00FF0000, ws ++ List.replicate (16 - ws.length) 0⟩

/-- The frame as the port sends it (R425): never a remote frame, with ESI while error-passive. -/
def canOut (f : CanFrame) (passive : Bool) : CanFrame :=
  let esi := passive && f.info.getLsbD 21
  canEntry { f with info := (f.info &&& 0x006F0000) ||| (if esi then 0x00800000 else 0) }

/-- The CAN counter at an instant (R382). -/
def canCounter (ns : Nat) : Word := BitVec.ofNat 32 (ns / 1000)

/-- The port takes part in the bus: ERROR_ACTIVE or ERROR_PASSIVE. -/
def Mach.canUp (m : Mach) (x : Nat) : Bool :=
  m.domOn .can && m.clkOk .can && m.flag (F.CAN_CTRL_en x) && decide (m.get (F.CAN_STAT_state x) < 2)

/-! ## Arbitration (R428) -/

/-- The buffer takes part in arbitration. -/
def Mach.canReady (m : Mach) (x b : Nat) : Bool :=
  m.flag (F.CAN_MB_CTRL_en x b) && m.flag (F.CAN_MB_CTRL_dir x b) && m.flag (F.CAN_MB_CTRL_pending x b)

/-- The priority of a frame, lower first: base identifier, standard before extended, identifier extension. -/
def canPrio (f : CanFrame) : Nat :=
  let ext := f.id.getLsbD 31
  fieldOf f.id 18 11 * 2 ^ 19 + (if ext then 2 ^ 18 + fieldOf f.id 0 18 else 0)

/-- The buffer that enters arbitration next: of the highest priority, between equal ones the lowest number.
DEDUCED: log entry 39. -/
def Mach.canWinner (m : Mach) (x : Nat) : Option Nat :=
  let bufs := (m.canPort x).bufs.toList
  ((List.range 32).filter fun b => m.canReady x b).foldl (fun w b =>
    match w with
    | none => some b
    | some a => if canPrio (bufs.getD b emptyCanFrame) < canPrio (bufs.getD a emptyCanFrame) then some b else some a) none

/-! ## Error counters (R435) -/

/-- The error state follows the counters: passive from 128 on. -/
def Mach.canState (m : Mach) (x : Nat) : Mach :=
  let st := if 128 ≤ m.get (F.CAN_STAT_tec x) ∨ 128 ≤ m.get (F.CAN_STAT_rec x) then 1 else 0
  let was := m.get (F.CAN_STAT_state x)
  if 2 ≤ was then m
  else (m.set (F.CAN_STAT_state x) st).when (decide (st = 1 ∧ was = 0)) (·.on (F.CAN_IRQ_STAT_passive x))

/-- Errors add to the counters; above 255 the port is in bus-off, where the transmit counter shows a value that the spec
does not state, and recovery starts by itself with auto_rec. -/
def Mach.canAdd (m : Mach) (x tec rec' : Nat) : Mach :=
  let t := m.get (F.CAN_STAT_tec x) + tec
  let m := m.set (F.CAN_STAT_rec x) (min 255 (m.get (F.CAN_STAT_rec x) + rec'))
  if 255 < t then
    let m := ((m.set (F.CAN_STAT_tec x) m.freeNow.toNat).freeTicked).set (F.CAN_STAT_state x) 2
    let m := (m.on (F.CAN_IRQ_STAT_bus_off x)).count (Reg.CAN_CNT_BUSOFF x)
    m.setCan x { m.canPort x with recovers := m.flag (F.CAN_CTRL_auto_rec x), sinceNs := m.upNs, recNs := m.upNs }
  else (m.set (F.CAN_STAT_tec x) t).canState x

/-- A frame sent without error takes 1 from the transmit counter. -/
def Mach.canSentOk (m : Mach) (x : Nat) : Mach :=
  (m.set (F.CAN_STAT_tec x) (m.get (F.CAN_STAT_tec x) - 1)).canState x

/-- A frame received without error takes 1 from the receive counter; above 127 it becomes one of 119 to 127.
DEDUCED: log entry 39. -/
def Mach.canGotOk (m : Mach) (x : Nat) : Mach :=
  let r := m.get (F.CAN_STAT_rec x)
  let m := if r ≤ 127 then m.set (F.CAN_STAT_rec x) (r - 1)
    else (m.set (F.CAN_STAT_rec x) (119 + m.freeNow.toNat % 9)).freeTicked
  m.canState x

/-- The code of an error (CANx_STAT.lec). -/
def lecCode : CanErr → Nat
  | .stuff => 1 | .form => 2 | .ackErr => 3 | .bit1 => 4 | .bit0 => 5 | .crc => 6

/-- CAN_ERROR (R435).
DEDUCED: log entry 39. -/
def Mach.canError (m : Mach) (x : Nat) (kind : CanErr) (inData : Bool) (tec rec' : Nat) : Mach :=
  if m.canUp x then
    let m := ((m.set (F.CAN_STAT_lec x) (lecCode kind)).setB (F.CAN_STAT_lec_data x) inData).count (Reg.CAN_CNT_ERR x)
    m.canAdd x tec rec'
  else m

def execCanError (x : BitVec 1) (kind : CanErr) (inData transmitting : Bool) (tecAdd recAdd : Nat) (s : State) :
    Host.Outcome State Fault Refusal :=
  eff s (s.mach.canError (canPortNo x) kind inData (if transmitting then tecAdd else 0) (if transmitting then 0 else recAdd))

/-- RECOVER (R435): with auto_rec at 0 it starts the recovery of a port in bus-off. -/
def Mach.canRecover (m : Mach) (x : Nat) : Mach :=
  if m.get (F.CAN_STAT_state x) = 2 ∧ (m.canPort x).recovers = false then
    m.setCan x { m.canPort x with recovers := true, recNs := m.upNs }
  else m

def execRecover (_master : Nat) (x : BitVec 1) (s : State) : Host.Outcome State Fault Refusal :=
  eff s (s.mach.access (Reg.CAN_CTRL (canPortNo x)) (·.canRecover (canPortNo x)))

/-- The port is ERROR_ACTIVE with counters at 0. -/
def Mach.canFresh (m : Mach) (x : Nat) : Mach :=
  let m := ((m.set (F.CAN_STAT_tec x) 0).set (F.CAN_STAT_rec x) 0).set (F.CAN_STAT_state x) 0
  m.setCan x { m.canPort x with recovers := false }

/-- The port integrates: it joins the bus after 11 recessive bits (R437). -/
def Mach.canJoining (m : Mach) (x : Nat) : Mach :=
  let m := (m.canFresh x).set (F.CAN_STAT_state x) 3
  m.setCan x { m.canPort x with sinceNs := m.upNs }

/-- The length of a nominal bit in units of 12.5 ns (R426). -/
def Mach.canBit (m : Mach) (x : Nat) : Nat :=
  m.get (F.CAN_NBT_nbrp x) * (1 + m.get (F.CAN_NBT_ntseg1 x) + m.get (F.CAN_NBT_ntseg2 x))

/-- CAN_RECOVERY_END (R435): at the earliest 128 × 11 nominal bits after the recovery began. -/
def Mach.canRecovered (m : Mach) (x : Nat) : Mach :=
  if m.domOn .can && m.get (F.CAN_STAT_state x) == 2 && (m.canPort x).recovers then
    ((m.passUntil (m.canPort x).recNs (1408 * m.canBit x * 25 / 2)).canFresh x).on (F.CAN_IRQ_STAT_recovered x)
  else m

def execCanRecoveryEnd (x : BitVec 1) (s : State) : Host.Outcome State Fault Refusal :=
  eff s (s.mach.canRecovered (canPortNo x))

/-- CAN_BUS_JOIN (R437): a port that is INTEGRATING joins the bus, at the earliest 11 nominal bits after it began. -/
def Mach.canJoin (m : Mach) (x : Nat) : Mach :=
  if m.domOn .can && m.clkOk .can && m.flag (F.CAN_CTRL_en x) && m.get (F.CAN_STAT_state x) == 3 then
    (m.passUntil (m.canPort x).sinceNs (11 * m.canBit x * 25 / 2)).set (F.CAN_STAT_state x) 0
  else m

def execCanBusJoin (x : BitVec 1) (s : State) : Host.Outcome State Fault Refusal := eff s (s.mach.canJoin (canPortNo x))

/-! ## Sending (R427, R433, R434) -/

/-- A ring of 51 entries of 80 bytes takes one more entry at its tail (R415, R430).
DESIGN CHOICE: log entry 70. -/
def Mach.ringPut (m : Mach) (r : Nat) : Mach := m.set (F.Q_PTR_tail r) ((m.get (F.Q_PTR_tail r) + 80) % 4080)

/-- Its head entry is taken. -/
def Mach.ringTake (m : Mach) (r : Nat) : Mach := m.set (F.Q_PTR_head r) ((m.get (F.Q_PTR_head r) + 80) % 4080)

/-- The record of a frame sent, with its stamp (R430): the newest 51 stand on the port's ring, which lies in PD_MGMT. -/
def Mach.canRecord (m : Mach) (x : Nat) (f : CanFrame) (stamp : Word) : Mach :=
  if m.domOn .mgmt then
    let p := m.canPort x
    let m := m.setCan x { p with sent := ((f, stamp) :: p.sent).take 51 }
    (m.ringPut (21 + 2 * x)).when (decide (51 ≤ p.sent.length)) (·.ringTake (21 + 2 * x))
  else m

/-- CAN_FRAME_TX_DONE: the buffer's frame is out; `sofNs` nanoseconds ago its SOF left the connector. -/
def Mach.canSent (m : Mach) (x b tdcv sofNs : Nat) : Mach :=
  if m.canUp x && m.canWinner x == some b then
    let f := canOut ((m.canPort x).bufs.toList.getD b emptyCanFrame) (m.get (F.CAN_STAT_state x) == 1)
    let stamp := canCounter (m.nowNs - sofNs)
    let m := ((m.off (F.CAN_MB_CTRL_pending x b)).set (F.CAN_MB_CTRL_losses x b) 0).count (Reg.CAN_CNT_TX x)
    let m := (m.wr (Reg.CAN_MB_STAMP x b) stamp).when (decide (2 ≤ b)) (·.on (F.CAN_IRQ_STAT_tx_done x))
    let m := m.when (f.info.getLsbD 22 && m.flag (F.CAN_TDC_tdc_en x) && decide (m.get (F.CAN_TDC_tdcf x) ≤ tdcv))
      (·.set (F.CAN_STAT_tdcv x) tdcv)
    ((m.canSentOk x).canRecord x f stamp).send (.canTx (BitVec.ofNat 1 x) f)
  else m

def execCanFrameTxDone (x : BitVec 1) (b : BitVec 5) (tdcv : BitVec 7) (sofNs : Nat) (s : State) :
    Host.Outcome State Fault Refusal := eff s (s.mach.canSent (canPortNo x) b.toNat tdcv.toNat sofNs)

/-- CAN_CLASH_LOSS (R434): the eighth in a row suspends the buffer. The kind and the phase of the bit error are open.
DEDUCED: log entry 39. -/
def Mach.canClash (m : Mach) (x b : Nat) (bitErr : Bool) : Mach :=
  if m.canUp x && m.canWinner x == some b then
    let n := m.get (F.CAN_MB_CTRL_losses x b) + 1
    let m := m.set (F.CAN_MB_CTRL_losses x b) n
    let m := m.when bitErr fun m =>
      let v := m.freeNow.toNat
      m.freeTicked.canError x (if v % 2 = 0 then .bit1 else .bit0) (decide (v / 2 % 2 = 1)) 8 0
    m.when (decide (8 ≤ n)) fun m =>
      let m := (m.on (F.CAN_MB_CTRL_suspended x b)).off (F.CAN_MB_CTRL_pending x b)
      let m := m.when (decide (b = 0)) fun m => m.setCan x { m.canPort x with suspNs := m.upNs }
      (m.on (F.CAN_IRQ_STAT_id_clash x)).log 0x0B 1 0 (m.rd (Reg.CAN_MB_ID x b))
  else m

def execCanClashLoss (x : BitVec 1) (b : BitVec 5) (bitErr : Bool) (s : State) : Host.Outcome State Fault Refusal :=
  eff s (s.mach.canClash (canPortNo x) b.toNat bitErr)

/-- A suspended buffer resumes with its content and no losses. -/
def Mach.canResume (m : Mach) (x b : Nat) : Mach :=
  if m.flag (F.CAN_MB_CTRL_suspended x b) then
    ((m.off (F.CAN_MB_CTRL_suspended x b)).set (F.CAN_MB_CTRL_losses x b) 0).on (F.CAN_MB_CTRL_pending x b)
  else m

/-- CAN_FIXED_RESUME: 1 s after the suspension of the fixed transmit buffer. -/
def Mach.fixedResume (m : Mach) (x : Nat) : Mach :=
  if m.domOn .can && m.flag (F.CAN_MB_CTRL_suspended x 0) then
    (m.passUntil (m.canPort x).suspNs 1000000000).canResume x 0
  else m

def execCanFixedResume (x : BitVec 1) (s : State) : Host.Outcome State Fault Refusal :=
  eff s (s.mach.fixedResume (canPortNo x))

/-! ## Receiving (R424, R430, R433, R434) -/

/-- A frame passes an identifier with its mask; ide matches. -/
def canPasses (f : CanFrame) (id mask : Word) : Bool :=
  (f.id ^^^ id) &&& mask &&& 0x1FFFFFFF == 0 && f.id.getLsbD 31 == id.getLsbD 31

/-- The enabled receive buffer of lowest number that takes the frame. -/
def Mach.canMatch (m : Mach) (x : Nat) (f : CanFrame) : Option Nat :=
  (List.range 32).find? fun b => m.flag (F.CAN_MB_CTRL_en x b) && !m.flag (F.CAN_MB_CTRL_dir x b)
    && canPasses f (m.rd (Reg.CAN_MB_ID x b)) (m.rd (Reg.CAN_MB_MASK x b))

/-- Append to the receive FIFO: 51 entries; without PD_MGMT, where its ring lies, the frame is lost (R472). -/
def Mach.canFifo (m : Mach) (x : Nat) (f : CanFrame) (stamp : Word) : Mach :=
  let p := m.canPort x
  if 51 ≤ p.fifo.length ∨ m.domOn .mgmt = false then
    (m.count (Reg.CAN_CNT_FIFO_OVR x)).on (F.CAN_IRQ_STAT_fifo_ovr x)
  else
    let m := (m.setCan x { p with fifo := p.fifo ++ [(f, stamp)] }).ringPut (20 + 2 * x)
    (m.set (F.CAN_FIFO_STAT_count x) (p.fifo.length + 1)).on (F.CAN_IRQ_STAT_fifo_rx x)

/-- Store in a receive buffer. The command telegram of CAN1 goes to channel A, without Distaff (R424). -/
def Mach.canStore (m : Mach) (x b : Nat) (f : CanFrame) (stamp : Word) : Mach :=
  let m := (m.canRegs x b f).wr (Reg.CAN_MB_STAMP x b) stamp
  if x = 1 ∧ b = 1 then m.telegramRx .can1 (canBytes f)
  else
    let m := m.when (m.flag (F.CAN_MB_CTRL_full x b)) fun m =>
      (m.on (F.CAN_MB_CTRL_ovr x b)).count (Reg.CAN_CNT_RX_OVR x)
    (m.on (F.CAN_MB_CTRL_full x b)).on (F.CAN_IRQ_STAT_rx x)

/-- The identifier of an enabled transmit buffer that has nothing to send (R434).
DEDUCED: log entry 39. -/
def Mach.canClashRx (m : Mach) (x : Nat) (f : CanFrame) : Bool :=
  (List.range 32).any fun b => m.flag (F.CAN_MB_CTRL_en x b) && m.flag (F.CAN_MB_CTRL_dir x b)
    && !m.flag (F.CAN_MB_CTRL_pending x b)
    && (canEntry ((m.canPort x).bufs.toList.getD b emptyCanFrame)).id == f.id

/-- CAN_FRAME_RX (R430): `sofNs` nanoseconds ago the SOF reached the connector. -/
def Mach.canGot (m : Mach) (x : Nat) (raw : CanFrame) (sofNs : Nat) : Mach :=
  if m.canUp x then
    let f := canEntry raw
    let stamp := canCounter (m.nowNs - sofNs)
    let m := (m.count (Reg.CAN_CNT_RX x)).canGotOk x
    let m := m.when (m.canClashRx x f) fun m => (m.count (Reg.CAN_CNT_CLASH_RX x)).on (F.CAN_IRQ_STAT_id_clash x)
    let fifo := fun (m : Mach) =>
      m.when (m.flag (F.CAN_CTRL_fifo_en x) && canPasses f (m.rd (Reg.CAN_FIFO_ID x)) (m.rd (Reg.CAN_FIFO_MASK x)))
        (·.canFifo x f stamp)
    if f.info.getLsbD 20 then fifo m
    else match m.canMatch x f with
      | some b => m.canStore x b f stamp
      | none => fifo m
  else m

def execCanFrameRx (x : BitVec 1) (f : CanFrame) (sofNs : Nat) (s : State) : Host.Outcome State Fault Refusal :=
  eff s (s.mach.canGot (canPortNo x) f sofNs)

/-! ## Host commands (R423, R429, R432, R440) -/

/-- A command of a host on a message buffer; the fixed buffers belong to the module (R423). -/
def Mach.canHost (m : Mach) (x b : Nat) (f : Mach → Mach) : Mach :=
  m.access (Reg.CAN_MB_CTRL x b) fun m => if b < 2 then m.refuse Err.refusedState else f m

/-- The INFO word names a frame that the port can send. -/
def infoOk (info : Word) : Bool :=
  info.getLsbD 21 || (!info.getLsbD 22 && decide (fieldOf info 16 4 ≤ 8))

/-- MB_COMMIT (R429, R440).
DEDUCED: log entry 39. -/
def Mach.mbCommit (m : Mach) (x b : Nat) : Mach :=
  if !m.flag (F.CAN_MB_CTRL_dir x b) then m
  else if infoOk (m.rd (Reg.CAN_MB_INFO x b)) then m.canCommit x b
  else m.refuse Err.refusedValue

def execMbCommit (_master : Nat) (x : BitVec 1) (b : BitVec 5) (s : State) : Host.Outcome State Fault Refusal :=
  eff s (s.mach.canHost (canPortNo x) b.toNat (·.mbCommit (canPortNo x) b.toNat))

/-- MB_ABORT: ends pending. -/
def execMbAbort (_master : Nat) (x : BitVec 1) (b : BitVec 5) (s : State) : Host.Outcome State Fault Refusal :=
  eff s (s.mach.canHost (canPortNo x) b.toNat (·.off (F.CAN_MB_CTRL_pending (canPortNo x) b.toNat)))

/-- A frame has arrived in the buffer since the master's latching read of it: the copy it holds is another frame's
(R432). -/
def Mach.canNewer (m : Mach) (master x b : Nat) : Bool :=
  m.latches.any fun l => l.master == master && l.reg == Reg.CAN_MB_CTRL x b && l.copy.any fun w => m.rd w.1 != w.2

/-- A release of a receive buffer: a frame that arrived after the master's latching read stays for its next read (R432). -/
def Mach.canFree (m : Mach) (master x b : Nat) : Mach :=
  (m.when (!m.canNewer master x b) (·.off (F.CAN_MB_CTRL_full x b))).off (F.CAN_MB_CTRL_ovr x b)

/-- CLR_FULL: frees a receive buffer. -/
def execClrFull (master : Nat) (x : BitVec 1) (b : BitVec 5) (s : State) : Host.Outcome State Fault Refusal :=
  eff s (s.mach.canHost (canPortNo x) b.toNat (·.canFree master (canPortNo x) b.toNat))

/-- POP: removes the head entry. -/
def Mach.canPop (m : Mach) (x : Nat) : Mach :=
  let p := m.canPort x
  let m := m.when (!p.fifo.isEmpty) (·.ringTake (20 + 2 * x))
  (m.setCan x { p with fifo := p.fifo.tail }).set (F.CAN_FIFO_STAT_count x) p.fifo.tail.length

def execPop (_master : Nat) (x : BitVec 1) (s : State) : Host.Outcome State Fault Refusal :=
  eff s (s.mach.access (Reg.CAN_FIFO_CTRL (canPortNo x)) (·.canPop (canPortNo x)))

/-- The CANx_CNT registers (R440). -/
def canCounters (k : Nat) : List Nat :=
  [Reg.CAN_CNT_TX k, Reg.CAN_CNT_RX k, Reg.CAN_CNT_ERR k, Reg.CAN_CNT_BUSOFF k, Reg.CAN_CNT_FIFO_OVR k,
   Reg.CAN_CNT_RX_OVR k, Reg.CAN_CNT_CLASH_RX k]

/-- CAN_CLR_CNT. -/
def execCanClrCnt (_master : Nat) (x : BitVec 1) (s : State) : Host.Outcome State Fault Refusal :=
  eff s (s.mach.access (Reg.CAN_CTRL (canPortNo x)) (·.clearRegs (canCounters (canPortNo x))))

/-! ## Reinitialisation (R437) -/

/-- The port as R437 leaves it, before it joins the bus. -/
def Mach.canReinit (m : Mach) (x : Nat) : Mach :=
  let m := m.canJoining x
  let m := (m.setCan x { m.canPort x with fifo := [] }).set (F.CAN_FIFO_STAT_count x) 0
  let m := m.set (F.Q_PTR_head (20 + 2 * x)) (m.get (F.Q_PTR_tail (20 + 2 * x)))
  let m := m.each (List.range 32) fun m b =>
    let m := (m.off (F.CAN_MB_CTRL_full x b)).off (F.CAN_MB_CTRL_suspended x b)
    (m.set (F.CAN_MB_CTRL_losses x b) 0).when (decide (2 ≤ b)) (·.off (F.CAN_MB_CTRL_pending x b))
  m.canFixed x

end Sys2Proof.Machine
end

