-- ==== Sys2Proof/Machine/Bfp.lean ====
section
/-!
DEFINITION. Block floating point (R212 to R215): exact dyadic values, rounding half to even, the normalisation of a
lane, BFP words (R162, R235), the sine in turns (R248).
-/

namespace Sys2Proof.Machine

/-! ## Exact values -/

/-- An exact value `n × 2^k`. -/
structure Dy where
  n : Int
  k : Int
  deriving DecidableEq, Repr

/-- Round `n / d` half to even (R212), for `d > 0`. -/
def roundHalfEven (n : Int) (d : Nat) : Int :=
  let q := n / d
  let r := n % d
  if 2 * r < d then q else if 2 * r > d then q + 1 else if q % 2 = 0 then q else q + 1

/-- Round `n × 2^k` half to even to a multiple of `2^e`, as the multiple. A magnitude of 2^40 multiples or more is
answered as 2^40 with its sign: every caller clamps below that. -/
def Dy.roundAt (x : Dy) (e : Int) : Int :=
  if x.n = 0 then 0
  else if e ≤ x.k then
    if 40 < x.k - e then (if 0 < x.n then 2 ^ 40 else -2 ^ 40) else x.n * 2 ^ (x.k - e).toNat
  else
    let s := (e - x.k).toNat
    if x.n.natAbs.log2 + 1 < s then 0 else roundHalfEven x.n (2 ^ s)

/-- The exponent of the leading bit of a non-zero value. -/
def Dy.lead (x : Dy) : Int := x.n.natAbs.log2 + x.k

def Dy.zero : Dy := ⟨0, 0⟩

def Dy.neg (x : Dy) : Dy := ⟨-x.n, x.k⟩

def Dy.abs (x : Dy) : Dy := ⟨x.n.natAbs, x.k⟩

def Dy.add (x y : Dy) : Dy :=
  if x.n = 0 then y else if y.n = 0 then x
  else if x.k ≤ y.k then ⟨x.n + y.n * 2 ^ (y.k - x.k).toNat, x.k⟩ else ⟨x.n * 2 ^ (x.k - y.k).toNat + y.n, y.k⟩

def Dy.sub (x y : Dy) : Dy := x.add y.neg

def Dy.mul (x y : Dy) : Dy := ⟨x.n * y.n, x.k + y.k⟩

def Dy.sum (xs : List Dy) : Dy := xs.foldl Dy.add .zero

/-- Exact order: `x < y`. -/
def Dy.lt (x y : Dy) : Bool := decide ((x.sub y).n < 0)

def Dy.le (x y : Dy) : Bool := decide ((x.sub y).n ≤ 0)

def Dy.eq (x y : Dy) : Bool := decide ((x.sub y).n = 0)

def Dy.min (x y : Dy) : Dy := if y.lt x then y else x

def Dy.max (x y : Dy) : Dy := if x.lt y then y else x

def Dy.ofInt (n : Int) : Dy := ⟨n, 0⟩

/-- A quotient `n / d` as a value that rounds the same at any exponent that keeps at most 60 of its leading bits: 64
bits of quotient and more, and a last bit that says whether a remainder is left. -/
def Dy.ratio (n : Int) (d : Nat) : Dy :=
  if n = 0 then .zero
  else
    let up := 64 + d.log2
    let q := n.natAbs * 2 ^ up / d
    let r := n.natAbs * 2 ^ up % d
    let v : Int := 2 * q + (if r = 0 then 0 else 1)
    ⟨if n < 0 then -v else v, -(up + 1 : Int)⟩

/-- The quotient of two values, for a non-zero divisor. -/
def Dy.div (x y : Dy) : Dy :=
  let q := Dy.ratio (if y.n < 0 then -x.n else x.n) y.n.natAbs
  ⟨q.n, q.k + x.k - y.k⟩

/-- The integer square root by Newton's steps from above. -/
def isqrtLoop (n : Nat) : Nat → Nat → Nat
  | 0, x => x
  | fuel + 1, x =>
    let y := (x + n / x) / 2
    if y < x then isqrtLoop n fuel y else x

def isqrt (n : Nat) : Nat := if n = 0 then 0 else isqrtLoop n (n.log2 + 2) (2 ^ (n.log2 / 2 + 1))

/-- The square root of a non-negative value, with a last bit that says whether it is exact. -/
def Dy.sqrt (x : Dy) : Dy :=
  if x.n = 0 then .zero
  else
    let odd := x.k % 2
    let n := x.n.natAbs * 2 ^ (128 + odd.toNat)
    let k := x.k - odd - 128
    let s := isqrt n
    ⟨2 * s + (if s * s = n then 0 else 1), k / 2 - 1⟩

/-- A value bounded to plus or minus `b`. -/
def clampInt (b v : Int) : Int := if b < v then b else if v < -b then -b else v

/-! ## Lanes -/

/-- The exact value of ply `j` of a lane (R212). -/
def Lane.val (l : Lane) (j : Nat) : Dy := ⟨(l.m[j]?.getD 0).toInt, l.e.toInt⟩

/-- The exact values of a lane. -/
def Lane.vals (l : Lane) : List Dy := (List.range 8).map l.val

/-- The largest mantissa magnitude of a normalised lane: 2^23 − 1. -/
def mantMax : Int := 2 ^ 23 - 1

/-- A lane from mantissas and an exponent. -/
def Lane.of (ms : List Int) (e : Int) : Lane :=
  ⟨Vector.ofFn fun j => BitVec.ofInt 24 (ms.getD j.val 0), BitVec.ofInt 8 e⟩

/-- The exponent that R212 needs for exact values of which one is not zero: the leading bit of the largest lands at
bit 22, one more where a rounded magnitude reaches 2^23. -/
def neededExp (xs : List Dy) : Int :=
  let lead := (xs.filter (·.n ≠ 0)).foldl (fun a x => if a < x.lead then x.lead else a) (-(2 ^ 40 : Int))
  let e := lead - 22
  if xs.any (fun x => 2 ^ 23 ≤ (x.roundAt e).natAbs) then e + 1 else e

/-- Normalisation of a lane (R212, R213): the lane, and whether ovf and unf are set. -/
def normalise (xs : List Dy) : Lane × LaneFlags :=
  if xs.all (·.n = 0) then (Lane.zero, LaneFlags.none)
  else
    let e := neededExp xs
    if 127 < e then
      (Lane.of (xs.map fun x => clampInt mantMax (x.roundAt 127)) 127, { LaneFlags.none with ovf := true })
    else if e < -127 then
      let ms := xs.map (·.roundAt (-127))
      (if ms.all (· = 0) then Lane.zero else Lane.of ms (-127), { LaneFlags.none with unf := true })
    else (Lane.of (xs.map (·.roundAt e)) e, LaneFlags.none)

/-- The integer value of a ply (R235). -/
def Dy.toInt32 (x : Dy) : Int := clampInt (2 ^ 31 - 1) (x.roundAt 0)

/-- The value of a BFP word (R162, R235). -/
def bfpVal (w : Word) : Dy := ⟨(w.extractLsb' 8 24).toInt, (w.extractLsb' 0 8).toInt⟩

/-- A BFP word from a mantissa and an exponent. -/
def bfpOf (m : Mant) (e : Expo) : Word := m ++ e

/-- A single value as a normalised BFP word, with the flags of R213. -/
def bfpNorm (x : Dy) : Word × LaneFlags :=
  let r := normalise [x]
  (bfpOf (r.1.m[0]) r.1.e, r.2)

/-- A single value as a BFP word. -/
def toBfp (x : Dy) : Word := (bfpNorm x).1

/-! ## Rational values -/

/-- An exact value as a rational number. -/
def Dy.rat (x : Dy) : Rat := if 0 ≤ x.k then ((x.n * 2 ^ x.k.toNat : Int) : Rat) else mkRat x.n (2 ^ (-x.k).toNat)

/-- The value of a BFP word. -/
def ratOf (w : Word) : Rat := (bfpVal w).rat

/-- A rational number rounded half to even to a BFP word (R162). -/
def ratBfp (x : Rat) : Word := toBfp (Dy.ratio x.num x.den)

/-! ## The sine in turns (R248) -/

/-- π scaled by 2^128. -/
def piScaled : Nat := 1069028584064966747859680373161870783300

/-- sin(x / 2^128) scaled by 2^128 for `x` from 0 to π/2: the Taylor series, `fuel` terms from the term `t` of order
`n`. -/
def sinLoop (xx : Nat) : Nat → Nat → Int → Int
  | 0, _, _ => 0
  | fuel + 1, n, t => t - sinLoop xx fuel (n + 2) (t * xx / 2 ^ 256 / ((n + 1) * (n + 2)))

/-- Entry `i` of the table of R248, 0 to 1024: sin(2πi/1024) × 2^22, rounded half to even. The series keeps 128 bits
and 25 terms, far below half an entry's last bit. -/
def sinTab (i : Nat) : Int :=
  let h := i % 512
  let q := if 256 < h then 512 - h else h
  let x := 2 * piScaled * q / 1024
  let s := sinLoop (x * x) 25 1 x
  let r := if q = 256 then 2 ^ 22 else roundHalfEven s (2 ^ 106)
  if i < 512 then r else -r

/-- sin_t of the exact fraction of turns `num / den`, in units of 2^-22 (R248). -/
def sinT (num : Int) (den : Nat) : Dy :=
  let f := (roundHalfEven (num % (den : Int) * 2 ^ 32) den).toNat % 2 ^ 32
  let i := f / 2 ^ 22
  let r : Nat := f % 2 ^ 22
  let d := sinTab (i + 1) - sinTab i
  ⟨sinTab i + roundHalfEven (d * r) (2 ^ 22), -22⟩

/-- sin_t of a dyadic number of turns: a whole number of turns has fraction 0. -/
def Dy.sinTurns (x : Dy) : Dy := if 0 ≤ x.k then sinT 0 1 else sinT x.n (2 ^ (-x.k).toNat)

end Sys2Proof.Machine
end

