-- ==== Sys2Proof/Machine/Memory.lean ====
section
/-!
DEFINITION. Accesses to SRAM under the error-correcting code (ch. 15): poisoned code words, what a reader and a writer
of one see, and the regions of R451.
-/

namespace Sys2Proof.Machine

/-- The agents of MEM_ERR_INFO (R457). -/
def Agent.carder : Nat := 0
def Agent.host : Nat := 1
def Agent.distaff : Nat := 2
def Agent.dma : Nat := 3
def Agent.fetch : Nat := 4
def Agent.bank : Nat := 5
def Agent.lane : Nat := 6
def Agent.arrayFs : Nat := 7
def Agent.digest : Nat := 8
def Agent.writer : Nat := 9
def Agent.xlink : Nat := 10

/-- The code word of an address (R441). -/
def codeWord (a : Nat) : Nat := a / 8 * 8

/-- The code word of an address is poisoned. -/
def Mach.poisoned (m : Mach) (a : Nat) : Bool := decide (codeWord a ∈ m.memi.poison)

/-- Some code word of `n` bytes from `a` is poisoned. -/
def Mach.anyPoison (m : Mach) (a n : Nat) : Bool := m.memi.poison.any fun p => codeWord a ≤ p && p < a + n

/-- Record where a read that was not clean took place (R457): instance, word, class, agent, syndrome. -/
def Mach.errLoc (m : Mach) (a cls agent syndrome : Nat) : Mach :=
  let m := (m.set F.MEM_ERR_LOC_instance (instOf a)).set F.MEM_ERR_LOC_word (a % 0x20000 / 8)
  ((m.set F.MEM_ERR_INFO_class cls).set F.MEM_ERR_INFO_agent agent).set F.MEM_ERR_INFO_syndrome syndrome

/-- A reader meets a poisoned word (R448). The syndrome of data 0 with check bits 0xFF is 0xFF, since data 0 has check
bits 0 (R442, R455). A word that this read found uncorrectable is recorded as such (R457). -/
def Mach.poisonHit (m : Mach) (a agent : Nat) : Mach :=
  let m := if codeWord a ∈ m.memi.fresh then { m with memi := { m.memi with fresh := drop1 m.memi.fresh (codeWord a) } }
    else m.errLoc a 3 agent 0xFF
  (m.count Reg.MEM_CNT_POISON_HIT).on F.MEM_IRQ_STAT_poison_hit

/-- The lane whose memory holds an address (R221). -/
def laneOf (a : Nat) : Nat := (a - laneMemBase) / 0x2000

/-- The address lies in lane memory. -/
def inLaneMem (a : Nat) : Bool := decide (laneMemBase ≤ a ∧ a < 0x1500000)

/-- The address lies in program memory. -/
def inProgMem (a : Nat) : Bool := decide (progMemBase ≤ a ∧ a < 0x1140000)

/-- The address lies in a parameter bank. -/
def inBanks (a : Nat) : Bool := decide (bankABase ≤ a ∧ a < 0x1220000)

/-- Bit `n` of SPN_LANE_INVAL_k is set (R221). -/
def Mach.laneInval (m : Mach) (n : Nat) : Mach :=
  let m := { m with memi := { m.memi with inval := addOnce m.memi.inval n } }
  (m.setBit (Reg.SPN_LANE_INVAL (n / 32)) (n % 32) true).on F.SPN_IRQ_STAT_lane_inval

/-- The engine poisons a code word (R443): its data read as 0; in lane memory R221 applies. -/
def Mach.poisonWord (m : Mach) (a : Nat) : Mach :=
  let m := { m with mem := writeBytes m.mem (codeWord a) (List.replicate 8 0)
                    memi := { m.memi with poison := addOnce m.memi.poison (codeWord a) } }
  m.when (inLaneMem a) (·.laneInval (laneOf a))

/-- The code words written in full by words from `a` on lose their poison (R443, R445). -/
def unpoison (ps : List Nat) (a n : Nat) : List Nat := ps.filter fun p => p < a || a + n < p + 8

/-- They lose their upsets too. -/
def unupset (us : List Upset) (a n : Nat) : List Upset := us.filter fun u => u.addr < a || a + n < u.addr + 8

/-- A reader meets an upset word: a correctable one is corrected, written back and counted (R444), an uncorrectable one poisoned
and counted, whoever finds it (R219, R443). -/
def Mach.meetOne (m : Mach) (agent : Nat) (u : Upset) : Mach :=
  let m := { m with memi := { m.memi with upsets := m.memi.upsets.filter (·.addr != u.addr) } }
  if u.ue then
    let m := ((m.poisonWord u.addr).errLoc u.addr 2 agent u.syndrome.toNat).count Reg.MEM_CNT_UE
    { m with memi := { m.memi with fresh := addOnce m.memi.fresh (codeWord u.addr) } }
  else ((m.errLoc u.addr 1 agent u.syndrome.toNat).count (Reg.MEM_CNT_CE (instOf u.addr))).on F.MEM_IRQ_STAT_ce

/-- The upset words among `n` bytes from `a` on. -/
def Mach.upsetsIn (m : Mach) (a n : Nat) : List Upset :=
  m.memi.upsets.filter fun u => decide (codeWord a ≤ u.addr) && decide (u.addr < a + n)

/-- A reader reads `n` bytes from `a` on. -/
def Mach.meet (m : Mach) (a n agent : Nat) : Mach := m.each (m.upsetsIn a n) fun m u => m.meetOne agent u

/-- The old word that a partial write reads (R446): a correction counts as a merge too. -/
def Mach.mergeMeet (m : Mach) (a agent : Nat) : Mach :=
  match m.memi.upsets.find? (·.addr == codeWord a) with
  | none => m
  | some u => (m.meetOne agent u).when (!u.ue) (·.count Reg.MEM_CNT_MERGE)

/-- A partial write to a poisoned code word, which it has read, is abandoned (R447, R457). -/
def Mach.abandonWrite (m : Mach) (agent a : Nat) : Mach :=
  let m := if codeWord a ∈ m.memi.fresh then { m with memi := { m.memi with fresh := drop1 m.memi.fresh (codeWord a) } }
    else m.errLoc a 3 agent 0xFF
  let m := (m.count Reg.MEM_CNT_ABANDON).on F.MEM_IRQ_STAT_abandon
  m.when (inLaneMem a) (·.laneInval (laneOf a))

/-- Write words that cover whole code words, or words of no poisoned one. -/
def Mach.storeFull (m : Mach) (a : Nat) (ws : List Word) : Mach :=
  { m with mem := writeMemWords m.mem a ws
           memi := { m.memi with poison := unpoison m.memi.poison a (4 * ws.length)
                                 upsets := unupset m.memi.upsets a (4 * ws.length) } }

/-- The frame engine, the chain ports, the sense interface and the Flyer assemble whole code words and write them in full
(R445): words from `a` on, with the other halves of the first and the last code word as they stand. -/
def Mach.storeWhole (m : Mach) (a : Nat) (ws : List Word) : Mach :=
  let head := if a % 8 = 0 then [] else [readMemWord m.mem (codeWord a)]
  let tail := if (a + 4 * ws.length) % 8 = 0 then [] else [readMemWord m.mem (a + 4 * ws.length)]
  m.storeFull (codeWord a) (head ++ ws ++ tail)

/-- An agent stores one word: a partial write (R445 to R447). -/
def Mach.storeAs (m : Mach) (agent a : Nat) (w : Word) : Mach :=
  let m := m.mergeMeet a agent
  if m.poisoned a then m.abandonWrite agent a else { m with mem := writeMemWord m.mem a w }

/-- The module's own engines store one word. -/
def Mach.storeWord (m : Mach) (a : Nat) (w : Word) : Mach := m.storeAs Agent.writer a w

/-- Store consecutive words: an aligned pair is a full write, a single half a partial one (R445). -/
def Mach.storeWords (m : Mach) (a : Nat) : List Word → Mach
  | [] => m
  | [w] => m.storeWord a w
  | w :: w' :: rest =>
    if a % 8 = 0 then (m.storeFull a [w, w']).storeWords (a + 8) rest
    else (m.storeWord a w).storeWords (a + 4) (w' :: rest)

/-- The active holds the lane-memory stores of its fast sections during a resync (R361); data beyond the 64 KB of the
queue abort the resync.
DEDUCED: log entry 31. -/
def Mach.noteStore (m : Mach) (a : Nat) (ws : List Word) : Mach :=
  match m.pair.resync with
  | none => m
  | some c =>
    if m.role = .active ∧ m.get F.SPN_STAT_section = 1 ∧ (m.cycle - c).toNat < 2 ^ 31 ∧ inLaneMem a then
      let q := m.pair.storeQueue ++ ((List.range ws.length).zip ws).map fun (i, w) =>
        (BitVec.ofNat 20 (a - laneMemBase + 4 * i), w)
      if 16384 < q.length then m.resyncAbort else { m with pair := { m.pair with storeQueue := q } }
    else m

/-- The array stores words that cover whole code words of lane memory. -/
def Mach.laneFull (m : Mach) (a : Nat) (ws : List Word) : Mach := (m.noteStore a ws).storeFull a ws

/-- The array stores one word to lane memory. -/
def Mach.laneWord (m : Mach) (a : Nat) (w : Word) : Mach := (m.noteStore a [w]).storeAs Agent.lane a w

/-- A word as the digest and CRC engines see it: each byte of a poisoned code word counts as 0xFF (R448). -/
def Mach.digestWord (m : Mach) (a : Nat) : Word := if m.poisoned a then 0xFFFFFFFF else readMemWord m.mem a

/-- The words of a range as the digest and CRC engines see them. -/
def Mach.digestWords (m : Mach) (a n : Nat) : List Word := (List.range n).map fun i => m.digestWord (a + 4 * i)

/-- The parameter bank in force and the shadow bank (R211). -/
def Mach.bankBase (m : Mach) : Nat := if m.flag F.SPN_BANK_STAT_in_force then bankBBase else bankABase

def Mach.shadowBase (m : Mach) : Nat := if m.flag F.SPN_BANK_STAT_in_force then bankABase else bankBBase

/-- A word of the bank in force. -/
def Mach.bankWord (m : Mach) (o : Nat) : Word := readMemWord m.mem (m.bankBase + o)

/-- The array runs: RUNNING or SELFTEST (R203). -/
def Mach.arrayRuns (m : Mach) : Bool := m.get F.SPN_STAT_state == 2 || m.get F.SPN_STAT_state == 4

end Sys2Proof.Machine
end

