-- ==== Sys2Proof/Machine/Session.lean ====
section
/-!
DEFINITION. What ends with its holder: mailbox answers (R404 to R406), operation slots (R408 to R411), locks of a lost
master (R403), session closes (R395), the update stage and lock (R491) and a Distaff restart (R460).
-/

namespace Sys2Proof.Machine

/-! ## Mailboxes -/

/-- The mailbox is busy. -/
def Mach.mbxBusy (m : Mach) (b : Nat) : Bool := m.flag (F.MBX_CTRL_busy b)

/-- The opcodes of R407 with the lengths they take (R479, R502). -/
def mbxOpcodes : List (Nat × Nat × Nat) :=
  [(0x01, 0, 16), (0x02, 0, 0), (0x10, 0, 0), (0x11, 0, 0), (0x12, 1, 1), (0x13, 1, 1), (0x14, 0, 0), (0x15, 0, 0),
   (0x20, 1, 3)]

/-- What is wrong with a command as such (R407). -/
def Mach.mbxBad (m : Mach) (b : Nat) : Option (BitVec 16) :=
  match mbxOpcodes.find? (·.1 == m.get (F.MBX_CTRL_opcode b)) with
  | none => some Err.badOpcode
  | some (_, lo, hi) =>
    if lo ≤ m.get (F.MBX_CTRL_length b) ∧ m.get (F.MBX_CTRL_length b) ≤ hi then none else some Err.badLength

/-- Complete a mailbox with an error, aux and answer words (R404): the answer is written, busy cleared, the doorbell bit
set. The answer of a mailbox whose holder is gone is discarded, its lock released, its doorbell bit not set (R406). -/
def Mach.mbxPut (m : Mach) (b : Nat) (err : BitVec 16) (aux : Nat) (ws : List Word) : Mach :=
  let h := m.host
  let m := { m.off (F.MBX_CTRL_busy b) with host := { h with mbxOrder := drop1 h.mbxOrder b
                                                             mbxOrphan := drop1 h.mbxOrphan b } }
  if b ∈ h.mbxOrphan then m.wr (Reg.MBX_LOCK b) 0
  else
    let m := m.each ((List.range 16).zip ws) fun m (k, w) => m.wr (Reg.MBX_DATA b k) w
    let m := ((m.set (F.MBX_STAT_error b) err.toNat).set (F.MBX_STAT_aux b) aux).set (F.MBX_STAT_resp_len b) ws.length
    m.setBit Reg.MBX_DB_STAT b true

/-- Distaff answers the commands at the front that are no commands (R407). -/
def Mach.mbxReject (m : Mach) : Mach :=
  m.each m.host.mbxOrder fun m b =>
    if m.host.mbxOrder.head? = some b ∧ m.power.distaffAbsent = false then
      match m.mbxBad b with
      | some e => m.mbxPut b e 0 []
      | none => m
    else m

/-- A mailbox is completed; the next in the order are looked at. -/
def Mach.mbxAnswer (m : Mach) (b : Nat) (err : BitVec 16) (aux : Nat := 0) (ws : List Word := []) : Mach :=
  (m.mbxPut b err aux ws).mbxReject

/-- The mailboxes that are busy, in the order of their go bits, completed with an error. -/
def Mach.mbxFlush (m : Mach) (err : BitVec 16) : Mach := m.each m.host.mbxOrder fun m b => m.mbxAnswer b err

/-- Distaff serves this mailbox now: it is the oldest busy one, its opcode is `op`, and Distaff is present (R404). -/
def Mach.mbxServes (m : Mach) (b op : Nat) : Bool :=
  m.host.mbxOrder.head? == some b && m.get (F.MBX_CTRL_opcode b) == op && !m.power.distaffAbsent

/-- The request words of a mailbox. -/
def Mach.mbxWords (m : Mach) (b : Nat) : List Word :=
  (List.range (m.get (F.MBX_CTRL_length b))).map fun k => m.rd (Reg.MBX_DATA b k)

/-- The master whose command a mailbox carries. -/
def Mach.mbxCaller (m : Mach) (b : Nat) : Nat := (m.host.mbxMaster.toList.getD b 0)

/-! ## Operation slots -/

/-- Slot states (R408). -/
def OpSt.idle : Nat := 0
def OpSt.queued : Nat := 1
def OpSt.running : Nat := 2
def OpSt.done : Nat := 3
def OpSt.failed : Nat := 4
def OpSt.aborted : Nat := 5

/-- The state of a slot. -/
def Mach.opState (m : Mach) (n : Nat) : Nat := m.get (F.OP_STATUS0_state n)

/-- The slot is QUEUED or RUNNING. -/
def Mach.opActive (m : Mach) (n : Nat) : Bool := m.opState n == 1 || m.opState n == 2

/-- The slot's opcode. -/
def Mach.opCode (m : Mach) (n : Nat) : Nat := m.get (F.OP_CTRL_opcode n)

/-- The resources an opcode uses (R412): chain management 0, FRAM 1, NOR1 2, the array 3, the module 4, update 5. -/
def opResources (op : Nat) : List Nat :=
  if op = 1 ∨ op = 2 ∨ op = 3 then [0]
  else if op = 4 then [1, 2]
  else if op = 5 ∨ op = 7 ∨ op = 8 ∨ op = 9 then [2]
  else if op = 6 then [3]
  else if op = 10 then [4]
  else [5]

/-- The opcode exists (R412). -/
def opKnown (op : Nat) : Bool :=
  decide (1 ≤ op ∧ op ≤ 10) || decide (0x10 ≤ op ∧ op ≤ 0x15) || decide (op = 0x18)

/-- Two opcodes share a resource. -/
def opClash (a b : Nat) : Bool := (opResources a).any (· ∈ opResources b)

/-- QUEUED operations whose resource is free run, in the order in which they were started (R408). -/
def Mach.opSchedule (m : Mach) : Mach :=
  m.each m.host.opQueue fun m n =>
    let earlier := m.host.opQueue.takeWhile (· != n)
    m.when (m.opState n == 1 && !earlier.any fun k => opClash (m.opCode k) (m.opCode n))
      (·.set (F.OP_STATUS0_state n) OpSt.running)

/-- An update operation of the owner starts or ends now (R491). -/
def Mach.updTouch (m : Mach) : Mach := { m with mgmt := { m.mgmt with updNs := m.upNs } }

/-- The operation of a slot starts or ends: an update operation (R493) of the master that holds the owner lock keeps the
lock. -/
def Mach.updUse (m : Mach) (n : Nat) : Mach :=
  m.when (decide (0x10 ≤ m.opCode n ∧ m.opCode n ≤ 0x15 ∧ m.mgmt.updOwner ≠ 0)
    && m.host.opMaster.toList.getD n 0 == m.mgmt.updOwner) (·.updTouch)

/-- A slot reaches a final state (R409): error and aux, progress 1000 in DONE, the bit of OP_IRQ_STAT; the next
operation on its resource runs. -/
def Mach.opFinal (m : Mach) (n st : Nat) (err : BitVec 16) (aux : Nat := 0) : Mach :=
  let m := ((m.updUse n).set (F.OP_STATUS1_aux n) aux).when (st == OpSt.done) (·.set (F.OP_STATUS0_progress n) 1000)
  let m := ((m.off (F.OP_STATUS0_paused n)).set (F.OP_STATUS0_error n) err.toNat).set (F.OP_STATUS0_state n) st
  let m := { m.setBit Reg.OP_IRQ_STAT n true with
    host := { m.host with opQueue := drop1 m.host.opQueue n, opDone := drop1 m.host.opDone n
                          opRest := m.host.opRest.setIfInBounds n [] } }
  m.opSchedule

/-- An operation fails with a code (R412). -/
def Mach.opFail (m : Mach) (n : Nat) (err : BitVec 16) (aux : Nat := 0) : Mach := m.opFinal n OpSt.failed err aux

/-! Result records (R410): record i lies at offset (i mod cap) × size of the slot's window. -/

/-- The base of a slot's result window (R421). -/
def opWindow (n : Nat) : Nat := 0x68000 + 0x800 * n

/-- The record size in words of an opcode (R412). -/
def opSizeWords (op : Nat) : Nat :=
  if op = 1 then 17 else if op = 3 ∨ op = 4 then 8 else if op = 7 then 16 else if op = 10 then 4 else 1

/-- The records that a window holds. -/
def opCap (op : Nat) : Nat := 512 / opSizeWords op

/-- Write one record in full, then count it. -/
def Mach.opRecord (m : Mach) (n : Nat) (ws : List Word) : Mach :=
  let i := m.get (F.OP_STATUS1_partial n)
  let size := opSizeWords (m.opCode n)
  let at0 := opWindow n + 4 * (i % opCap (m.opCode n) * size)
  let m := m.each ((List.range size).zip ws) fun m (k, w) => m.wr (at0 + 4 * k) w
  m.set (F.OP_STATUS1_partial n) (i + 1)

/-- Progress per mille where a rule gives it: WIRE_CAL with every period complete (R414), SELFTEST (R516). -/
def Mach.opProgress (m : Mach) (n : Nat) : Mach :=
  let r := m.get (F.OP_STATUS1_partial n)
  match m.opCode n with
  | 3 => m.set (F.OP_STATUS0_progress n) (900 + 100 * r / max 1 m.nodeCount)
  | 10 =>
    let asked := ((List.range 8).filter fun k => (m.rd (Reg.OP_ARG n 0)).getLsbD k).length
    m.set (F.OP_STATUS0_progress n) (1000 * r / max 1 asked)
  | _ => m

/-- The records that fit are written; the operation pauses while the window is full and more wait, else its work is
complete.
DEDUCED: log entry 45. -/
def Mach.opPump (m : Mach) (n : Nat) : Mach :=
  let rest := m.host.opRest.toList.getD n []
  let room := opCap (m.opCode n) - (m.get (F.OP_STATUS1_partial n) - m.get (F.OP_ACK_ack n))
  let m := (m.each (rest.take room) fun m r => m.opRecord n r).opProgress n
  let left := rest.drop room
  let m := { m.setB (F.OP_STATUS0_paused n) (!left.isEmpty) with
    host := { m.host with opRest := m.host.opRest.setIfInBounds n left } }
  if left.isEmpty then { m with host := { m.host with opDone := addOnce m.host.opDone n } } else m

/-- The work of an operation gives these records. -/
def Mach.opGive (m : Mach) (n : Nat) (rs : List (List Word)) : Mach :=
  { m with host := { m.host with opRest := m.host.opRest.setIfInBounds n rs } }.opPump n

/-- Distaff works on this slot: it runs this opcode, whose work is still to do. -/
def Mach.opWorks (m : Mach) (n op : Nat) : Bool :=
  m.opState n == 2 && m.opCode n == op && !m.power.distaffAbsent && !decide (n ∈ m.host.opDone)
    && (m.host.opRest.toList.getD n []).isEmpty

/-- In loader safe mode LOG_READ and the update operations alone are served (R496).
DEDUCED: log entry 45. -/
def Mach.opServed (m : Mach) (op : Nat) : Bool := !m.power.safeMode || op == 4 || decide (0x10 ≤ op)

/-- Distaff works on this slot, and its opcode is served. -/
def Mach.opMay (m : Mach) (n op : Nat) : Bool := m.opWorks n op && m.opServed op

/-- The work of an operation: it fails with a code before any effect, or is done. -/
def Mach.opWork (m : Mach) (n op : Nat) (err : Mach → Option (BitVec 16 × Nat)) (go : Mach → Mach) : Mach :=
  if m.opWorks n op then
    match (if m.opServed op then err m else some (Err.refusedState, 0)) with
    | some (e, aux) => m.opFail n e aux
    | none => go m
  else m

/-- A release of a slot in a final state (R410): IDLE, with the window, the arguments and both status words zero. -/
def Mach.opIdle (m : Mach) (n : Nat) : Mach :=
  let m := ((m.wr (Reg.OP_STATUS0 n) 0).wr (Reg.OP_STATUS1 n) 0).clearRegs ((List.range 16).map (Reg.OP_ARG n))
  (m.resetRange (opWindow n) (opWindow n + 0x800)).wr (Reg.OP_ACK n) 0

/-- A slot's owner goes: in a final state the slot becomes IDLE. -/
def Mach.opRelease (m : Mach) (n : Nat) : Mach :=
  (m.when (decide (3 ≤ m.opState n)) (·.opIdle n)).wr (Reg.OP_OWNER n) 0

/-! ## Locks of a lost master (R403, R406, R411) -/

/-- Release every lock register that a lost master holds. A busy mailbox keeps its lock until its command has ended
(R406); a QUEUED operation is aborted, a RUNNING one runs on without an owner (R411). -/
def Mach.releaseLocks (m : Mach) (master : Nat) : Mach :=
  let w := BitVec.ofNat 32 master
  let m := m.each (List.range 16) fun m b => m.when (m.rd (Reg.MBX_LOCK b) == w) fun m =>
    if m.mbxBusy b then { m with host := { m.host with mbxOrphan := addOnce m.host.mbxOrphan b } }
    else m.wr (Reg.MBX_LOCK b) 0
  let m := m.each (List.range 16) fun m k => m.when (m.rd (Reg.MBX_GLOCK k) == w) (·.wr (Reg.MBX_GLOCK k) 0)
  let m := m.each (List.range 16) fun m n => m.when (m.rd (Reg.OP_OWNER n) == w) fun m =>
    let queued := m.opState n == 1
    (m.opRelease n).when queued (·.opFinal n OpSt.aborted Err.aborted)
  m.when (m.rd Reg.SNS_SP_OWNER == w) (·.wr Reg.SNS_SP_OWNER 0)

/-! ## The update stage and the owner lock (R491) -/

/-- Update stages (MGT_UPD_STAT.stage). -/
def Stage.idle : Nat := 0
def Stage.open : Nat := 1
def Stage.orphaned : Nat := 2
def Stage.verified : Nat := 3
def Stage.activating : Nat := 4
def Stage.trial : Nat := 5
def Stage.safeMode : Nat := 6

/-- The update stage. -/
def Mach.stage (m : Mach) : Nat := m.get F.MGT_UPD_STAT_stage

/-- Change the update stage. -/
def Mach.setStage (m : Mach) (st : Nat) : Mach :=
  if m.stage = st then m else (m.set F.MGT_UPD_STAT_stage st).on F.MGT_IRQ_STAT_stage_change

/-- The transfer buffer is zeroed (R506). -/
def Mach.xferClear (m : Mach) : Mach := m.resetRange (Reg.MGT_XFER_BUF 0) (Reg.MGT_XFER_BUF 1024)

/-- The owner lock is released. -/
def Mach.updRelease (m : Mach) : Mach :=
  let m := ((m.set F.MGT_UPD_STAT_owner 0).set F.MGT_UPD_STAT_idle_s 0).xferClear
  { m with mgmt := { m.mgmt with updOwner := 0, updCert := 0 } }

/-- The block map is cleared and the staging data discarded. -/
def Mach.stagingClear (m : Mach) : Mach :=
  let m := (m.set F.MGT_UPD_PAGES_pages 0).set F.MGT_IMG_SECVER_staged 0
  { m with mgmt := { m.mgmt with blockMap := [], stagePages := [], staged := none, verified := false } }

/-! ## Sessions (R394, R395) -/

/-- A stream counts its records anew. -/
def HostState.streamReset (h : HostState) (s : Nat) : HostState :=
  { h with streamSeq := h.streamSeq.setIfInBounds s 0, streamSkip := h.streamSkip.setIfInBounds s 0 }

/-- Stop and clear a stream: its registers return to their reset words. -/
def Mach.streamClear (m : Mach) (s : Nat) : Mach :=
  let m := m.resetRange (Reg.Q_STR_CFG s) (Reg.Q_STR_CFG s + 16)
  { m with host := m.host.streamReset s }

/-- The session is open. -/
def Mach.sessionOpen (m : Mach) (s : Nat) : Bool := m.host.sessions.any (·.id == s)

/-- The session's bit in ETH_SESS_STAT. -/
def Mach.sessBit (m : Mach) (s : Nat) (b : Bool) : Mach := m.setBit Reg.ETH_SESS_STAT s b

/-- A session closes (R395, R406, R411, R491). -/
def Mach.closeSession (m : Mach) (s : Nat) : Mach :=
  if m.sessionOpen s then
    let m := m.releaseLocks s
    let m := m.when (decide (1 ≤ s ∧ s ≤ 8)) (·.wr (Reg.GLB_IRQ_EN s) 0)
    let m := m.each (List.range 16) fun m k => m.when (m.get (F.Q_STR_CFG_session k) == s) (·.streamClear k)
    let m := { m with host := { m.host with sessions := m.host.sessions.filter (·.id != s) }
                      latches := m.latches.filter (·.master != s) }
    let m := match m.safety.key with
      | some (k, _, _) => if k = s then m.keyAbort s else m
      | none => m
    let m := m.when (decide (m.mgmt.updOwner = s) && (m.stage == Stage.open || m.stage == Stage.verified))
      (·.setStage Stage.orphaned)
    (m.sessBit s false).on F.ETH_IRQ_STAT_session
  else m

/-- Every session closes.
DEDUCED: log entry 44. -/
def Mach.closeSessions (m : Mach) : Mach := m.each (m.host.sessions.map (·.id)) fun m s => m.closeSession s

/-- SESSION_CLOSE (R395). -/
def execSessionClose (x : Nat) (s : State) : Host.Outcome State Fault Refusal := eff s (s.mach.closeSession x)

/-- CLOSE_NOTIFY (R394). -/
def execCloseNotify (x : Nat) (s : State) : Host.Outcome State Fault Refusal := eff s (s.mach.closeSession x)

/-- SESSION_IDLE_TIMEOUT (R394): no authenticated record has come for ETH_SESS_CFG.idle seconds. -/
def Mach.idleClose (m : Mach) (x : Nat) : Mach :=
  match m.host.sessions.find? (·.id == x) with
  | none => m
  | some z => (m.passUntil z.lastNs (m.get F.ETH_SESS_CFG_idle * 1000000000)).closeSession x

def execSessionIdleTimeout (x : Nat) (s : State) : Host.Outcome State Fault Refusal := eff s (s.mach.idleClose x)

/-! ## Distaff (R460) -/

/-- Reset types (R472). -/
def ResetType.powerOn : Nat := 1
def ResetType.host : Nat := 2
def ResetType.auto : Nat := 3
def ResetType.watchdog : Nat := 4
def ResetType.abort : Nat := 5
def ResetType.domain : Nat := 6

/-- Distaff is absent, or is there. -/
def Mach.setAbsent (m : Mach) (b : Bool) : Mach := { m with power := { m.power with distaffAbsent := b } }

/-- The supervisor restarts Distaff: absent from now on; the reset type is recorded (R472). -/
def Mach.distaffDown (m : Mach) (type : Nat) : Mach :=
  let m := (m.set F.PWR_RESET_CAUSE_type type).log 0x0A type
  (m.when (!m.power.distaffAbsent) (·.mark .distaff)).setAbsent true

/-- What Distaff forces of FLY_BLOCK_k once it is there again: all ones while BRK_AUX reports closed in a rest state, and an end of
what was forced when it reports open in both channels (R464, R465). -/
def Mach.blockSettle (m : Mach) : Mach :=
  let isOpen := !m.flag F.SAF_INPUT_brk_aux_a && !m.flag F.SAF_INPUT_brk_aux_b
  if m.power.blockHold && isOpen then
    { m.setAllBlock 0 with power := { m.power with blockHold := false } }
  else if m.runState.rest && m.brkClosed && !m.power.blockHold then
    { (m.setAllBlock 0xFFFFFFFF).log 0x03 1 with power := { m.power with blockHold := true } }
  else m

/-- A Distaff restart completes (R460): busy mailboxes and active operations end with RECEIVER_RESET (R405, R411), the
locks of master 15 are released, halted rings run again (R415). Its count of restarts grows. -/
def Mach.distaffUp (m : Mach) : Mach :=
  let m := m.mbxFlush Err.receiverReset
  let m := m.each m.host.opQueue fun m n => m.opFinal n OpSt.aborted Err.receiverReset
  let m := (m.releaseLocks 15).each (List.range 64) fun m r => m.off (F.Q_SIZE_halted r)
  let m := (m.count Reg.PWR_CNT_DISTAFF).on F.PWR_IRQ_STAT_distaff_restart
  { m with power := { m.power with
      distaffAbsent := false, restartWait := false, restarts := (m.upNs :: m.power.restarts).take 3 } }.blockSettle

end Sys2Proof.Machine
end

