-- ==== Sys2Proof/Machine/Brodot.lean ====
section
/-!
DEFINITION. The Brodot image as it lies in the staging area (R487, R488): its header, its section table and its sections, read
from the bytes. What ECDSA and SHA give stays outside: facts of the signatures, and digests as functions without a body.
-/

namespace Sys2Proof.Machine

/-- The bytes of a field. -/
def cutBytes (bs : List Byte) (start n : Nat) : List Byte := (bs.drop start).take n

/-- A field of an image, most significant byte first (R487). -/
def imgNum (bs : List Byte) (start n : Nat) : Nat := (cutBytes bs start n).foldl (fun v b => 256 * v + b.toNat) 0

/-- S: the length of header and sections. -/
def imgBody (bs : List Byte) : Nat := imgNum bs 16 4

/-- The number of sections. -/
def imgCount (bs : List Byte) : Nat := imgNum bs 20 2

/-- An entry of the section table: type, flags, offset, length, CRC-32C. -/
def imgEntry (bs : List Byte) (k : Nat) : Nat × Nat × Nat × Nat × Nat :=
  let e := 64 + 16 * k
  (imgNum bs e 2, imgNum bs (e + 2) 2, imgNum bs (e + 4) 4, imgNum bs (e + 8) 4, imgNum bs (e + 12) 4)

/-- The sections as (type, bytes), in the order of the table. -/
def imgSections (bs : List Byte) : List (Nat × List Byte) :=
  (List.range (imgCount bs)).map fun k => let e := imgEntry bs k; (e.1, cutBytes bs e.2.2.1 e.2.2.2.1)

/-- The sections of one type. -/
def imgOf (bs : List Byte) (ty : Nat) : List (List Byte) := ((imgSections bs).filter (·.1 == ty)).map (·.2)

/-- The section table: each section lies behind the table and inside S, with flags 0 and its CRC-32C. -/
def imgTableOk (bs : List Byte) : Bool :=
  (List.range (imgCount bs)).all fun k =>
    let e := imgEntry bs k
    e.2.1 == 0 && decide (64 + 16 * imgCount bs ≤ e.2.2.1 ∧ e.2.2.1 + e.2.2.2.1 ≤ imgBody bs)
      && (crc32c (cutBytes bs e.2.2.1 e.2.2.2.1)).toNat == e.2.2.2.2

/-- The image type by its code. -/
def ImageKind.ofCode : Nat → Option ImageKind
  | 1 => some .firmware | 2 => some .reludProgram | 3 => some .keyBundle | _ => none

/-- How often a section type may stand in an image of a type (R488): the least and the largest number. -/
def sectionCount (k : ImageKind) (ty : Nat) : Nat × Nat :=
  match k, ty with
  | .firmware, 1 => (1, 1)
  | .firmware, 2 => (0, 1)
  | .firmware, 3 => (0, 16)
  | .firmware, 4 => (1, 1)
  | .reludProgram, 2 => (1, 1)
  | .keyBundle, 5 => (1, 1)
  | _, _ => (0, 0)

/-- The length limit of an image type (R487). -/
def imageLimit : ImageKind → Nat
  | .firmware => 12582912 | .reludProgram => 1048576 | .keyBundle => 65536

/-- A section's own layout fits its length (R488). -/
def sectionFits (ty : Nat) (bs : List Byte) : Bool :=
  let n := bs.length
  match ty with
  | 2 =>
    let k := 16 + 4 * imgNum bs 12 4
    decide (16 ≤ n ∧ imgNum bs 12 4 ≤ 65536) && (n == k || n == k + 65536)
  | 3 => decide (4 ≤ n ∧ n ≤ 4 + 262144)
  | 4 => n == 64
  | _ => true

/-- The first check of R489: magic, format_version, S, section table, section CRCs, section types and counts, length limit.
DESIGN CHOICE: log entry 47. -/
def imgFormatOk (bs : List Byte) : Bool :=
  match ImageKind.ofCode (imgNum bs 6 1) with
  | none => false
  | some k =>
    imgNum bs 0 4 == 0x42524454 && imgNum bs 4 2 == 1 && imgBody bs % 4 == 0 && bs.length == imgBody bs + 208
      && decide (1 ≤ imgCount bs ∧ imgCount bs ≤ 64 ∧ 64 + 16 * imgCount bs ≤ imgBody bs ∧ imgNum bs 10 2 ≤ 64)
      && imgTableOk bs && decide (bs.length ≤ imageLimit k)
      && ((imgSections bs).all fun s => decide (1 ≤ s.1 ∧ s.1 ≤ 5) && sectionFits s.1 s.2)
      && [1, 2, 3, 4, 5].all fun ty =>
        let n := (imgOf bs ty).length
        decide ((sectionCount k ty).1 ≤ n ∧ n ≤ (sectionCount k ty).2)

/-- device_id, and hardware version A in hw_mask (R487, R489). -/
def imgTargetOk (bs : List Byte) : Bool := imgNum bs 8 2 == 0x1800 && (imgNum bs 7 1).testBit 0

/-- A PROGRAM section (R488); the one of a FIRMWARE image is the reference control program. -/
def imgProgram (kind : ImageKind) (version : Word) (bs : List Byte) : ProgImage :=
  let n := imgNum bs 12 4
  let bank := bs.drop (16 + 4 * n)
  { level := BitVec.ofNat 8 (imgNum bs 0 4), version := version, fastPc := BitVec.ofNat 16 (imgNum bs 4 4)
    estPc := BitVec.ofNat 16 (imgNum bs 8 4), words := bytesWords (cutBytes bs 16 (4 * n))
    bank := if bank.isEmpty then none else some (bytesWords bank), reference := kind == .firmware }

/-- A NODE_IMG section (R488).
DESIGN CHOICE: log entry 47. -/
def imgNode (bs : List Byte) : NodeImage :=
  let b := bs.drop 4
  { vendor := BitVec.ofNat 16 (imgNum bs 0 2), ntype := BitVec.ofNat 16 (imgNum bs 2 2), bytes := b, digest := Config.sha256 b }

/-- A KEYS section, whose layout no rule states: the owner key's id, 1 to 4 trust anchors, the policy bit (R485, R486).
DESIGN CHOICE: log entry 47. -/
def imgKeys (bs : List Byte) : KeyBundle :=
  let k := Config.keysSection bs
  { ownerKeyId := k.1, anchors := BitVec.ofNat 3 (1 + k.2.1 % 4), ownerSigReq := k.2.2 }

/-- The image that bytes hold, with the facts of its signatures; a countersignature is present unless its record is all
zero.
DESIGN CHOICE: log entry 47. -/
def imageOf (bs : List Byte) (sig : SigFacts) : Image :=
  let kind := (ImageKind.ofCode (imgNum bs 6 1)).getD .firmware
  let version := BitVec.ofNat 32 (imgNum bs 12 4)
  { kind := kind, formatOk := imgFormatOk bs, targetOk := imgTargetOk bs
    sig := { sig with ownerRecord := (cutBytes bs (imgBody bs + 104) 104).any (· != 0) }
    secVer := BitVec.ofNat 8 (imgNum bs 10 2), version := version, digest := Config.sha384 bs, length := bs.length
    prog := (imgOf bs 2).head?.map (imgProgram kind version)
    safety := ((imgOf bs 4).head?.map bytesWords).getD []
    nodeImgs := (imgOf bs 3).map imgNode
    keys := (imgOf bs 5).head?.map imgKeys }

/-- The pages of the session's image. -/
def Mach.updPages (m : Mach) : Nat := (m.mgmt.updLen + 4095) / 4096

/-- The bytes of the staging area over the image length of the session. -/
def Mach.stagedBytes (m : Mach) : List Byte :=
  let page := fun p => wordsBytes (((m.mgmt.stagePages.find? (·.1 == p)).map (·.2)).getD [])
  ((List.range m.updPages).flatMap page).take m.mgmt.updLen

end Sys2Proof.Machine
end

