-- ==== Sys2Proof/Machine/Police.lean ====
section
/-!
DEFINITION. What a host ring port lets in (R20, R392): its service and its token buckets.
-/

namespace Sys2Proof.Machine

/-- The port's number in TB_STAT.src_in_use. -/
def portNo (p : BitVec 1) : Nat := p.toNat + 1

/-- The island of a host port (R13). -/
def ethIsland (p : Nat) : Island := if p = 1 then .eth0 else .eth1

/-- A host port is in service: PD_HOST is on and the port's clock good (R20). -/
def Mach.ethServes (m : Mach) (p : Nat) : Bool := m.domOn .host && m.clkOk (ethIsland p)

/-! ## Policing (R392) -/

/-- The line rate of a port in bit/s. -/
def Mach.lineRate (m : Mach) (p : Nat) : Nat :=
  match m.get (F.ETH_PORT_STAT_speed p) with
  | 2 => 10000000000
  | 1 => 1000000000
  | _ => 0

/-- The rate per second and the burst of a bucket of port `p`: 0 Forward, 1 Own and 2 Group in bits, 3 Control in
frames. -/
def Mach.bucketOf (m : Mach) (p b : Nat) : Nat × Nat :=
  match b with
  | 0 => (min (m.get F.ETH_POLICE_CFG_fwd_rate * 100000000) (m.lineRate (3 - p) * 9 / 10), 64 * 8192)
  | 1 => (m.get F.ETH_POLICE_CFG_own_rate * 10000000, 32 * 8192)
  | 2 => (m.get F.ETH_POLICE_CFG_grp_rate * 1000000, 8 * 8192)
  | _ => (2000, 64)

/-- The place of a bucket in the state. -/
def bucketIx (p b : Nat) : Nat := 4 * (p - 1) + b

/-- The tokens of a bucket that are out now, times 10^9. -/
def Mach.bucketUsed (m : Mach) (p b : Nat) : Nat :=
  let k := m.host.buckets.toList.getD (bucketIx p b) ⟨0, 0⟩
  k.used - (m.bucketOf p b).1 * (m.upNs - k.atNs)

/-- A bucket holds these tokens.
DEDUCED: log entry 43. -/
def Mach.bucketHas (m : Mach) (p b cost : Nat) : Bool :=
  decide (m.bucketUsed p b + cost * 1000000000 ≤ (m.bucketOf p b).2 * 1000000000)

/-- Take tokens from a bucket. -/
def Mach.bucketTake (m : Mach) (p b cost : Nat) : Mach :=
  { m with host := { m.host with
    buckets := m.host.buckets.setIfInBounds (bucketIx p b) ⟨m.bucketUsed p b + cost * 1000000000, m.upNs⟩ } }

/-- Frames received and discarded are added to the window of a port. -/
def Mach.windowAdd (m : Mach) (p rx drop : Nat) : Mach :=
  let w := m.host.window.toList.getD (p - 1) (0, 0)
  { m with host := { m.host with window := m.host.window.setIfInBounds (p - 1) (w.1 + rx, w.2 + drop) } }

/-- A port receives a frame. -/
def Mach.frameIn (m : Mach) (p : Nat) : Mach := (m.count (Reg.ETH_CNT_RX p)).windowAdd p 1 0

/-- Police a frame against its buckets, all of which must hold its tokens: passed, or discarded and counted.
DEDUCED: log entry 43. -/
def Mach.police (m : Mach) (p : Nat) (bs : List Nat) (cost : Nat) (pass : Mach → Mach) : Mach :=
  if bs.all fun b => m.bucketHas p b cost then pass (m.each bs fun m b => m.bucketTake p b cost)
  else (m.count (Reg.ETH_CNT_POLICE p)).windowAdd p 0 1

/-- A PTP message at a ring port, in the Control bucket. -/
def Mach.ptpIn (m : Mach) (port : BitVec 1) (f : Mach → Mach) : Mach :=
  if m.ethServes (portNo port) then (m.frameIn (portNo port)).police (portNo port) [3] 1 f else m

end Sys2Proof.Machine
end

