-- ==== Sys2Proof/Machine/TimeBase.lean ====
section
/-!
DEFINITION. The time base (ch. 12): rate and phase, the servo and its states, PTP, the cross-link measure, comparators,
capture units and the J15 signals.
-/

namespace Sys2Proof.Machine

/-! ## Roundings the spec leaves open -/

/-- A quotient whose rounding no rule states: one of its two neighbouring integers, the exact one where it is one.
DESIGN CHOICE: log entry 41. -/
def Mach.openDiv (m : Mach) (a : Int) (b : Nat) : Int × Mach :=
  if a % b = 0 then (a / b, m) else (a / b + (m.freeNow.toNat % 2 : Nat), m.freeTicked)

/-- A signed value of a 32-bit register, saturating. -/
def satWord (x : Int) : Word := BitVec.ofInt 32 (max (-2147483648) (min 2147483647 x))

/-! ## Source and synchronisation (R371 to R373) -/

/-- TB_STAT.state. -/
def Sync.free : Nat := 0
def Sync.acquiring : Nat := 1
def Sync.locked : Nat := 2
def Sync.holdover : Nat := 3

/-- The source in use (R371), as TB_STAT.src_in_use codes it; PTP without a port that had an exchange reads none. -/
def Mach.timeSource (m : Mach) : Nat :=
  let src := m.get F.TB_CTRL_src
  if src = 0 then 0
  else if src = 2 then 4
  else if m.role = .standby ∧ m.flag F.XL_STAT_lease_ok then 3
  else m.time.ptpPort

/-- A signed register's value lies within ±sync_limit. -/
def Mach.withinSync (m : Mach) (a : Nat) : Bool :=
  decide ((m.rd a).toInt.natAbs ≤ m.get F.TB_SYNC_CFG_sync_limit * 1000)

/-- The time base is synchronised (R373). -/
def Mach.syncHolds (m : Mach) : Bool :=
  m.timeSource != 0 && m.withinSync Reg.TB_OFFSET
    && (match m.time.lastOkNs with
        | none => false
        | some t => decide (m.upNs ≤ t + m.get F.TB_SYNC_CFG_holdover_max * 1000000000))
    && (m.timeSource != 3 || m.withinSync Reg.ETH_PTP_OFS)

/-- Enter a synchronisation state. -/
def Mach.syncState (m : Mach) (st : Nat) : Mach :=
  if m.get F.TB_STAT_state = st then m else (m.set F.TB_STAT_state st).on F.TB_IRQ_STAT_state_change

/-- Form TB_STAT's source and synced anew; report the edges of synced. With PD_MGMT off a servo that follows a source holds over
(R372). -/
def Mach.timeStat (m : Mach) : Mach :=
  let was := m.flag F.TB_STAT_synced
  let follows := m.get F.TB_STAT_state == Sync.locked || m.get F.TB_STAT_state == Sync.acquiring
  let m := m.when (follows && !m.domOn .mgmt) (·.syncState Sync.holdover)
  let s := m.syncHolds
  let m := (m.set F.TB_STAT_src_in_use m.timeSource).setB F.TB_STAT_synced s
  (m.when (s && !was) (·.on F.TB_IRQ_STAT_sync_gained)).when (was && !s) (·.on F.TB_IRQ_STAT_sync_lost)

/-! ## Comparators (R379) -/

/-- A comparator is enabled. -/
def Mach.cmpOn (m : Mach) (c : Nat) : Bool := m.flag (F.TB_CMP_CTRL_en c)

/-- The signed distance in seconds of a due time's low 32 bits from the present ones. -/
def Mach.dueSecs (m : Mach) (c : Nat) : Int := (m.rd (Reg.TB_CMP_SEC c) - BitVec.ofNat 32 m.time.sec).toInt

/-- The due time of a comparator in nanoseconds since the epoch. -/
def Mach.dueNs (m : Mach) (c : Nat) : Int :=
  ((m.time.sec : Int) + m.dueSecs c) * 1000000000 + m.get (F.TB_CMP_NS_ns c)

/-- Set a comparator's due time. -/
def Mach.setDue (m : Mach) (c : Nat) (t : Int) : Mach :=
  (m.wr (Reg.TB_CMP_SEC c) (BitVec.ofInt 32 (t / 1000000000))).wr (Reg.TB_CMP_NS c)
    (BitVec.ofNat 32 (t % 1000000000).toNat)

/-- Comparator 1 is loaded for PPS_OUT (R379, R84): due 15 ns before the next whole second, with a period of one second. -/
def Mach.ppsLoad (m : Mach) : Mach :=
  let next : Nat := (m.nowNs + 15) / 1000000000 + 1
  (((m.setDue 1 ((next : Int) * 1000000000 - 15)).wr (Reg.TB_CMP_PER 1) 1000000000).on (F.TB_CMP_CTRL_periodic 1)).on
    (F.TB_CMP_CTRL_en 1)

/-- An output edge at J15 comes 15 ns after its comparator's instant, and its capture stamp refers to J15 (R84). -/
def Mach.captureEdge (m : Mach) (c : Nat) : Mach :=
  let t := m.nowNs + 15
  let x := { m with time := { m.time with sec := t / 1000000000, ns := t % 1000000000 } }
  { x.captureSource c with time := m.time }

/-- What a firing drives at J15 (R381): PPS_OUT by comparator 1 for pps_width ms under pps_mode, TRIG_OUT by comparator 2 for
trig_width µs. -/
def Mach.cmpOutput (m : Mach) (c : Nat) : Mach :=
  if c = 1 then
    let mode := m.get F.TB_CTRL_pps_mode
    m.when (mode == 1 || mode == 2 && m.flag F.TB_STAT_synced) fun m => (m.send (.ppsPulse (m.get F.TB_PULSE_pps_width))).captureEdge 2
  else if c = 2 then (m.send (.trigPulse (m.get F.TB_PULSE_trig_width))).captureEdge 3
  else m

/-- A comparator fires: its bit of TB_CMP_HIT is set; a periodic one adds its period to the due time. -/
def Mach.cmpFire (m : Mach) (c : Nat) : Mach :=
  let m := (m.setBit Reg.TB_CMP_HIT c true).on F.TB_IRQ_STAT_cmp
  let m := m.when (m.flag (F.TB_CMP_CTRL_periodic c)) fun m =>
    m.setDue c (m.dueNs c + (m.rd (Reg.TB_CMP_PER c)).toNat)
  m.cmpOutput c

/-- A forward step past the due time (R369): the comparator fires once; a periodic one advances by whole periods to the
first due time later than the new time and counts the periods skipped. -/
def Mach.cmpStep (m : Mach) (due : Int) (c : Nat) : Mach :=
  let per := (m.rd (Reg.TB_CMP_PER c)).toNat
  let m := m.cmpFire c
  if m.flag (F.TB_CMP_CTRL_periodic c) ∧ 0 < per then
    let k := (((m.nowNs : Int) - due) / per).toNat
    let n := (m.rd Reg.TB_CNT_SKIP).toNat + k
    (m.setDue c (due + (k + 1) * per)).wr Reg.TB_CNT_SKIP (BitVec.ofNat 32 (min n 0xFFFFFFFF))
  else m

/-- COMPARATOR_FIRE for a comparator other than 0: enabled, it fires when the time reaches its due time. -/
def Mach.comparator (m : Mach) (c : Nat) : Mach :=
  if m.cmpOn c then (m.passTo (m.dueNs c).toNat).cmpFire c else m

/-! ## Rate and phase (R368 to R370) -/

/-- The owner check of R370: only master 15 while src is not FREE. -/
def Mach.timeOwned (m : Mach) (master : Nat) : Bool := m.get F.TB_CTRL_src == 0 || master == 15

/-- An increment in units of 2^-32 ns. -/
def incrUnits (ns : Nat) (frac : Word) : Int := (ns : Int) * 4294967296 + frac.toNat

/-- The nominal increment, 8 ns. -/
def nominalIncr : Int := 8 * 4294967296

/-- The increment in force. -/
def TimeState.incr (t : TimeState) : Int := incrUnits t.incrNs t.incrFrac

/-- The limits of R368. -/
def Mach.incrOk (m : Mach) (v : Int) : Bool :=
  let ppm := fun (k : Nat) (d base : Int) => decide ((d.natAbs : Int) * 1000000 ≤ k * base)
  ppm 200 (v - nominalIncr) nominalIncr
    && (!m.cyclesOn || (ppm 100 (v - nominalIncr) nominalIncr && ppm 5 (v - m.time.incr) m.time.incr))

/-- Put an increment in force from the next tick, and into its registers. -/
def Mach.setIncr (m : Mach) (v : Int) : Mach :=
  let m := (m.wr Reg.TB_INCR_NS (BitVec.ofInt 32 (v / 4294967296))).wr Reg.TB_INCR_FRAC (BitVec.ofInt 32 v)
  { m with time := { m.time with incrNs := (v / 4294967296).toNat, incrFrac := BitVec.ofInt 32 v } }

/-- A write to TB_INCR_NS (R368, R370). -/
def Mach.incrWrite (m : Mach) (master : Nat) (ns : BitVec 8) : Mach :=
  let v := incrUnits ns.toNat (m.rd Reg.TB_INCR_FRAC)
  if m.timeOwned master = false then m.refuse Err.notOwner 15
  else if m.incrOk v then m.setIncr v
  else m.refuse Err.refusedValue

/-- TB_INCR_NS_WRITE (R368). -/
def execTbIncrNsWrite (master : Nat) (ns : BitVec 8) (s : State) : Host.Outcome State Fault Refusal :=
  eff s (s.mach.access Reg.TB_INCR_NS (·.incrWrite master ns))

/-- Step the time to an instant, with a fraction (R369): comparators whose due time the step passes fire in the step
tick. -/
def Mach.stepTime (m : Mach) (t : Nat) (frac : Word) : Mach :=
  let dues := (List.range 16).map fun c => (c, m.cmpOn c, m.dueNs c, decide (m.dueNs c ≤ m.nowNs))
  let m := { m with time := { m.time with sec := t / 1000000000, ns := t % 1000000000, frac := frac, stepAt := some m.time.up } }
  let m := (m.count Reg.TB_CNT_STEP).on F.TB_IRQ_STAT_step
  m.each dues fun m (c, on, due, past) => m.when (on && !past && decide (due ≤ m.nowNs)) (·.cmpStep due c)

/-- A write to TB_ADJ_NS (R369, R370): bit 31 absolute, bit 30 backwards, bits 29 to 0 nanoseconds. -/
def Mach.adjWrite (m : Mach) (master : Nat) (data : Word) : Mach :=
  let ns := data.toNat % 2 ^ 30
  let lo := (m.rd Reg.TB_ADJ_SEC_LO).toNat
  let hi := (m.rd Reg.TB_ADJ_SEC_HI).toNat
  let d := lo * 1000000000 + ns
  if m.timeOwned master = false then m.refuse Err.notOwner 15
  else if m.cyclesOn then m.refuse Err.refusedState
  else if 1000000000 ≤ ns then m.refuse Err.refusedValue
  else if data.getLsbD 31 then m.stepTime ((hi * 2 ^ 32 + lo) * 1000000000 + ns) 0
  else if data.getLsbD 30 then
    if m.nowNs < d then m.refuse Err.refusedValue else m.stepTime (m.nowNs - d) m.time.frac
  else m.stepTime (m.nowNs + d) m.time.frac

/-- TB_ADJ_NS_WRITE (R369). -/
def execTbAdjNsWrite (master : Nat) (data : Word) (s : State) : Host.Outcome State Fault Refusal :=
  eff s (s.mach.access Reg.TB_ADJ_NS (·.adjWrite master data))

/-- TB_CLR_CNT (R385). -/
def Mach.tbClear (m : Mach) : Mach :=
  m.clearRegs [Reg.TB_CNT_STEP, Reg.TB_CNT_SKIP, Reg.TB_CNT_CAP_OVR, Reg.TB_CNT_PPS_REJ]

def execTbClrCnt (_master : Nat) (s : State) : Host.Outcome State Fault Refusal :=
  eff s (s.mach.access Reg.TB_CTRL (·.tbClear))

/-- TB_CTRL takes its RW fields: src 0b11 and pps_mode 0b11 are refused. A change of src to FREE enters FREE; leaving
FREE waits for the first accepted measurement (R372). -/
def Mach.tbCtrlWrite (m : Mach) (data : Word) : Mach :=
  let src := fieldOf data 0 2
  if src = 3 ∨ fieldOf data 6 2 = 3 then m.refuse Err.refusedValue
  else
    let was := m.get F.TB_CTRL_src
    let m := (m.set F.TB_CTRL_src src).set F.TB_CTRL_pps_mode (fieldOf data 6 2)
    let m := m.when (src == 0 && was != 0) fun m =>
      { m.syncState Sync.free with time := { m.time with lastOkNs := none, goodRun := 0 } }
    (m.when (data.getLsbD 5) (·.tbClear)).timeStat

/-! ## The servo (R372) -/

/-- Clamp an increment to the limits of R368. -/
def Mach.clampIncr (m : Mach) (v : Int) : Int :=
  let lim := fun (k : Nat) (base : Int) (x : Int) =>
    let d := base * k / 1000000
    max (base - d) (min (base + d) x)
  if m.cyclesOn then lim 5 m.time.incr (lim 100 nominalIncr v) else lim 200 nominalIncr v

/-- The proportional-integral loop at an accepted measurement of offset `x` with interval `τ`, both in nanoseconds: the
correction against the offset is x / (8 τ) plus the integral term, which has grown by x / (128 τ). -/
def Mach.servo (m : Mach) (x : Int) (τ : Nat) : Mach :=
  if τ = 0 then m
  else
    let i := m.time.integral + (x : Rat) / (128 * τ)
    let c := (x : Rat) / (8 * τ) + i
    let v := (nominalIncr : Rat) * (1 - c)
    let (u, m) := m.openDiv v.num v.den
    let m := m.setIncr (m.clampIncr u)
    { m with time := { m.time with integral := i } }

/-- A measurement of offset `x` ns from a source: accepted when that source is in use and Distaff is present (R371,
R372). In OFF an offset above 1 ms is stepped away. -/
def Mach.measure (m : Mach) (source : Nat) (x : Int) : Mach :=
  if m.timeSource ≠ source ∨ source = 0 ∨ m.power.distaffAbsent then m
  else
    let τ := match m.time.lastOkNs with
      | none => 0
      | some t => m.upNs - t
    let inside := decide (x.natAbs ≤ m.get F.TB_SYNC_CFG_lock_limit * 10)
    let run := if inside then min 8 (m.time.goodRun + 1) else 0
    let m := m.wr Reg.TB_OFFSET (satWord x)
    let m := { m with time := { m.time with goodRun := run, lastOkNs := some m.upNs } }
    let m := m.syncState (if run = 8 then Sync.locked else Sync.acquiring)
    let m := if m.runState = .off ∧ 1000000 < x.natAbs ∧ m.cyclesOn = false then
        let t := (m.nowNs : Int) - x
        if t < 0 then m else m.stepTime t.toNat m.time.frac
      else m.servo x τ
    m.timeStat

/-- SYNC_HOLDOVER (R372). -/
def execSyncHoldover (s : State) : Host.Outcome State Fault Refusal :=
  let m := s.mach
  let st := m.get F.TB_STAT_state
  eff s (if st = Sync.locked ∨ st = Sync.acquiring then (m.syncState Sync.holdover).timeStat else m)

/-- HOLDOVER_MAX_EXPIRY (R373): the last accepted measurement becomes older than holdover_max. -/
def execHoldoverMaxExpiry (s : State) : Host.Outcome State Fault Refusal :=
  let m := s.mach
  eff s (match m.time.lastOkNs with
    | none => m
    | some t => (m.passUntil t (m.get F.TB_SYNC_CFG_holdover_max * 1000000000 + 1)).timeStat)

/-! ## PTP (R374 to R376) -/

/-- The part of a pair that belongs to a ring port. -/
def ofPort {α : Type} (p : BitVec 1) (x : α × α) : α := if p = 0 then x.1 else x.2

/-- Replace the part of a pair. -/
def setRing2 {α : Type} (p : BitVec 1) (x : α × α) (v : α) : α × α := if p = 0 then (v, x.2) else (x.1, v)

/-- The ordinary clock takes messages: PD_HOST on and oc_en 1. -/
def Mach.ptpOn (m : Mach) : Bool := m.domOn .host && m.flag F.ETH_PTP_CFG_oc_en

/-- The mean path delay d_p in nanoseconds from the doubled delays of the exchanges. -/
def pathMean (l : List Int) : Rat := (l.sum : Rat) / (2 * l.length)

/-- The master's Sync interval in nanoseconds, at least one. -/
def Mach.syncInterval (m : Mach) : Nat :=
  let l := (BitVec.ofNat 8 (m.get F.ETH_PTP_STAT_log_sync)).toInt
  if 0 ≤ l then 1000000000 * 2 ^ l.toNat else max 1 (1000000000 / 2 ^ l.natAbs)

/-- A port had a valid exchange within 4 intervals (R375). -/
def Mach.exchangeOk (m : Mach) (p : BitVec 1) : Bool :=
  (ofPort p m.time.exchNs).any fun t => decide (m.upNs < t + 4 * m.syncInterval)

/-- Form the port bits of ETH_PTP_STAT anew. -/
def Mach.portStat (m : Mach) : Mach :=
  (m.setB F.ETH_PTP_STAT_port1_ok (m.exchangeOk 0)).setB F.ETH_PTP_STAT_port2_ok (m.exchangeOk 1)

/-- Which port the servo uses after a Sync (R375): it changes when the other's d_p is lower by more than 50 ns for 16
consecutive Sync messages, or when the port in use had no exchange for 4 intervals and the other had one. -/
def Mach.portChoice (m : Mach) : Mach :=
  let t := m.time
  let use : BitVec 1 := if t.ptpPort = 2 then 1 else 0
  let own := ofPort use t.paths
  let other := ofPort (use + 1) t.paths
  if t.ptpPort = 0 ∨ other = [] then { m with time := { t with betterRun := 0 } }
  else
    let run := if pathMean other + 50 < pathMean own then t.betterRun + 1 else 0
    if 16 ≤ run ∨ (m.exchangeOk use = false ∧ m.exchangeOk (use + 1)) then
      { m with time := { t with ptpPort := 3 - t.ptpPort, betterRun := 0 } }
    else { m with time := { t with betterRun := run } }

/-- PTP_SYNC_RX (R375): an unusable message is discarded and counted.
DEDUCED: log entry 43. -/
def Mach.ptpSync (m : Mach) (f : PtpSync) : Mach :=
  if m.ptpOn = false then m
  else if f.valid = false ∨ m.flag F.ETH_PTP_STAT_master_sel = false then m.count Reg.ETH_PTP_CNT_BAD
  else
    let m := (m.count Reg.ETH_PTP_CNT_SYNC).set F.ETH_PTP_STAT_log_sync f.logInt.toNat
    let m := { m with time := { m.time with syncs := setRing2 f.port m.time.syncs (some f) } }
    let m := m.portChoice.portStat
    let path := ofPort f.port m.time.paths
    if path = [] ∨ portNo f.port ≠ m.time.ptpPort then m.timeStat
    else
      let x := ((f.t2 - f.t1 - f.cSync : Int) : Rat) - pathMean path
      let (n, m) := m.openDiv x.num x.den
      (m.wr Reg.ETH_PTP_OFS (satWord n)).timeStat.measure (portNo f.port) n

def execPtpSyncRx (f : PtpSync) (s : State) : Host.Outcome State Fault Refusal := eff s (s.mach.ptpIn f.port (·.ptpSync f))

/-- PTP_DELAY_REQ_SEND (R375): out of one ring port, the ports in turn. -/
def execPtpDelayReqSend (t3 : Int) (s : State) : Host.Outcome State Fault Refusal :=
  let m := s.mach
  let port := m.time.reqPort
  eff s (if m.ptpOn then
      let m := (m.count Reg.ETH_PTP_CNT_DREQ).send (.delayReq port)
      { m with time := { m.time with dreqs := setRing2 port m.time.dreqs (some t3), reqPort := port + 1 } }
    else m)

/-- PTP_DELAY_RESP_RX (R375): the exchange is complete; d_p is the mean over the last 16 of the port. -/
def Mach.ptpResp (m : Mach) (p : BitVec 1) (t4 cResp : Int) : Mach :=
  if m.ptpOn = false then m
  else match ofPort p m.time.syncs, ofPort p m.time.dreqs with
    | some f, some t3 =>
      let d2 := (f.t2 - f.t1 - f.cSync) + (t4 - t3 - cResp)
      let path := (d2 :: ofPort p m.time.paths).take 16
      let use := if m.time.ptpPort = 0 then portNo p else m.time.ptpPort
      let m := { m with time := { m.time with
        paths := setRing2 p m.time.paths path, dreqs := setRing2 p m.time.dreqs none, ptpPort := use
        exchNs := setRing2 p m.time.exchNs (some m.upNs) } }
      let q := 4 * pathMean path
      let (n, m) := m.openDiv q.num q.den
      let m := m.wr (if p = 0 then Reg.ETH_PTP_PATH_1 else Reg.ETH_PTP_PATH_2) (BitVec.ofInt 32 n)
      m.portStat.timeStat
    | _, _ => m.count Reg.ETH_PTP_CNT_BAD

def execPtpDelayRespRx (port : BitVec 1) (t4 cResp : Int) (s : State) : Host.Outcome State Fault Refusal :=
  eff s (s.mach.ptpIn port (·.ptpResp port t4 cResp))

/-- PTP_ANNOUNCE_RX (R374): a message of another domain is discarded; the sender that the best master clock algorithm
selects is the master. -/
def Mach.ptpAnnounce (m : Mach) (f : PtpAnnounce) : Mach :=
  if m.ptpOn = false then m
  else if f.domain.toNat ≠ m.get F.ETH_PTP_CFG_domain then m.count Reg.ETH_PTP_CNT_BAD
  else if f.best then
    ((m.wr Reg.ETH_PTP_GM_LO (f.identity.setWidth 32)).wr Reg.ETH_PTP_GM_HI ((f.identity >>> 32).setWidth 32)).on
      F.ETH_PTP_STAT_master_sel
  else m

def execPtpAnnounceRx (f : PtpAnnounce) (s : State) : Host.Outcome State Fault Refusal := eff s (s.mach.ptpIn f.port (·.ptpAnnounce f))

/-- PTP_TC_FORWARD (R376): a Sync or Delay_Req that came in at `port`; with tc_en at 0 no residence time is added. -/
def execPtpTcForward (port : BitVec 1) (residence : Nat) (s : State) : Host.Outcome State Fault Refusal :=
  eff s (s.mach.ptpIn port fun m =>
    if m.flag F.ETH_PTP_CFG_tc_en then (m.count Reg.ETH_PTP_CNT_TC).send (.tcForward residence) else m.send (.tcForward 0))

/-! ## Pair time (R378) -/

/-- Every 64 cycles a STANDBY on XLINK sends a MARK (R378). -/
def Mach.markSend (m : Mach) : Mach :=
  m.when (m.timeSource == 3 && m.xlUp && m.cycle.toNat % 64 == 0) (·.send .xlMark)

/-- XLINK_MARK_ECHO (R378): a STANDBY on XLINK averages the path delay over the last 16 echoes; times in 0.25 ns. -/
def Mach.markEcho (m : Mach) (roundTrip : Nat) : Mach :=
  if m.timeSource = 3 then
    let es := (roundTrip :: m.time.echoes).take 16
    let m := { m with time := { m.time with echoes := es } }
    let (d, m) := m.openDiv ((es.map fun (e : Nat) => (e : Int) - 192).sum) (2 * es.length)
    m.set F.TB_XL_DELAY_d_x d.toNat
  else m

def execXlinkMarkEcho (roundTrip : Nat) (s : State) : Host.Outcome State Fault Refusal :=
  eff s (s.mach.markEcho roundTrip)

/-- The offset θ from the arrival of a CYCLE frame after the own sample instant, in 0.25 ns (R378); 0 on an ACTIVE. -/
def Mach.pairOffset (m : Mach) (arrival : Int) : Mach :=
  if m.timeSource = 3 then
    let θ := arrival - 4000 - m.get F.TB_XL_DELAY_d_x
    let (x, m) := m.openDiv θ 4
    (m.wr Reg.TB_PAIR_OFS (BitVec.ofInt 32 θ)).measure 3 x
  else m.when (m.role == .active) (·.wr Reg.TB_PAIR_OFS 0)

/-! ## Capture units and PPS_IN (R380, R381) -/

/-- CAPTURE_ARM: a source beyond CLAIM is refused; arming clears full and ovr. -/
def Mach.captureArm (m : Mach) (u src : Nat) : Mach :=
  if 9 < src then m.refuse Err.refusedValue
  else ((m.set (F.TB_CAP_CTRL_src u) src).off (F.TB_CAP_CTRL_full u)).off (F.TB_CAP_CTRL_ovr u)

def execCaptureArm (_master : Nat) (u : BitVec 3) (src : BitVec 4) (s : State) : Host.Outcome State Fault Refusal :=
  eff s (s.mach.access (Reg.TB_CAP_CTRL u.toNat) (·.captureArm u.toNat src.toNat))

/-- CAPTURE_EVENT: an event on the unit's source. -/
def execCaptureEvent (u : BitVec 3) (s : State) : Host.Outcome State Fault Refusal :=
  eff s (s.mach.captureUnit u.toNat)

/-- PPS_IN_EDGE (R381): stamped; with src PPS the stamp of unit 0 gives the servo an offset, and its reading frees the
unit. -/
def Mach.ppsIn (m : Mach) : Mach :=
  let fresh := m.get (F.TB_CAP_CTRL_src 0) == 1 && !m.flag (F.TB_CAP_CTRL_full 0)
  let m := m.captureSource 1
  if fresh && m.get F.TB_CTRL_src == 2 && !m.power.distaffAbsent then
    let ns := m.get (F.TB_CAP_NS_ns 0)
    let x : Int := if ns < 500000000 then ns else (ns : Int) - 1000000000
    let m := m.off (F.TB_CAP_CTRL_full 0)
    if 250000000 < x.natAbs ∧ m.get F.TB_STAT_state = Sync.locked then m.count Reg.TB_CNT_PPS_REJ
    else m.measure 4 x
  else m

def execPpsInEdge (s : State) : Host.Outcome State Fault Refusal := eff s s.mach.ppsIn

end Sys2Proof.Machine
end

