-- ==== Sys2Proof/Machine/Boot.lean ====
section
/-!
DEFINITION. Images and programs (R487 to R489, R498), the key store (R485, R504), wipes (R484), the configuration
(R500), the boot of R459 with the journal of R494 to R497, and module resets (R472).
-/

namespace Sys2Proof.Machine

/-! ## Images (R489) -/

/-- The countersignature check applies to an image. -/
def Mach.countersigned (m : Mach) (i : Image) : Bool :=
  m.flag F.LCY_STATE_owner_sig_req || (i.kind == .keyBundle && m.lifeCycle != .manufacture) || i.sig.ownerRecord

/-- The checks of R489 but the last, in their order; the digest check applies when a digest is given. -/
def Mach.imageError (m : Mach) (i : Image) (digest : Option (List Word)) : Option (BitVec 16) :=
  if i.formatOk = false ∨ i.targetOk = false then some Err.image
  else if i.sig.etiotanOk = false ∨ (m.countersigned i ∧ i.sig.ownerOk = false) then some Err.signature
  else if i.secVer.toNat < m.get F.LCY_ROLLBACK_count then some Err.rollback
  else if digest.any (· != i.digest) then some Err.verify
  else none

/-- The image type is permitted in the life-cycle state (R481, R486): none when DECOMMISSIONED; in MANUFACTURE a key
bundle only from master 13. -/
def Mach.imageAllowed (m : Mach) (i : Image) (master : Nat) : Bool :=
  m.lifeCycle != .decommissioned && (i.kind != .keyBundle || m.lifeCycle != .manufacture || master == 13)

/-- All the checks of R489. -/
def Mach.imageCheck (m : Mach) (i : Image) (digest : Option (List Word)) (master : Nat) : Option (BitVec 16) :=
  match m.imageError i digest with
  | some e => some e
  | none => if m.imageAllowed i master then none else some Err.lifeCycle

/-! ## Programs (R498) -/

/-- Put program words at index 0 of program memory and zeros behind them. -/
def Mach.programWords (m : Mach) (ws : List Word) : Mach :=
  (m.zeroise progMemBase 0x1140000).storeFull progMemBase ws

/-- Distaff loads a program: program memory, SPN_ENTRY, SPN_PROG_LEN, and with bank contents bank A, which is then the
bank in force. The array is LOADED. The reference program starts with the default parameters (R194). -/
def Mach.loadProgram (m : Mach) (p : ProgImage) : Mach :=
  let m := m.programWords p.words
  let m := (m.set F.SPN_ENTRY_fast_pc p.fastPc.toNat).set F.SPN_ENTRY_est_pc p.estPc.toNat
  let m := m.set F.SPN_PROG_LEN_len p.words.length
  let m := match p.bank with
    | none => m
    | some ws => ((m.zeroise bankABase bankBBase).storeFull bankABase ws).off F.SPN_BANK_STAT_in_force
  let m := m.wr Reg.GLB_PROG_VER (splice p.version 0 8 p.level.toNat)
  { m.set F.SPN_STAT_state 1 with
    spin := { m.spin with refProg := p.reference }, prog := { m.prog with params := [], est := [], prot := [] } }

/-- The program of a slot: 4 is the reference control program of the running image. -/
def Mach.slotImage (m : Mach) (slot : Nat) : Option Image :=
  if slot = 4 then m.mgmt.running else (m.mgmt.slots.toList[slot]?).bind (·.image)

/-- The check of a slot's image (R498): R489 without the digest check. An empty slot holds no image of valid format. -/
def Mach.slotCheck (m : Mach) (slot master : Nat) : Except (BitVec 16) ProgImage :=
  match m.slotImage slot with
  | none => .error Err.image
  | some i => match m.imageCheck i none master with
    | some e => .error e
    | none => match i.prog with
      | none => .error Err.image
      | some p => .ok p

/-- Load the boot slot at step 5 of R459 or under R23: an empty or bad slot leaves the array EMPTY, and GLB_PROG_VER 0 (R33).
DESIGN CHOICE: log entry 5. -/
def Mach.loadBootSlot (m : Mach) : Mach :=
  match m.slotCheck m.mgmt.bootSlot 15 with
  | .ok p => { m.loadProgram p with mgmt := { (m.loadProgram p).mgmt with loadedSlot := m.mgmt.bootSlot } }
  | .error _ => if m.get F.SPN_STAT_state = 0 then m.noProgram else m

/-! ## Life-cycle registers (R504) -/

/-- LCY_STATE and LCY_OWNER_ID follow the life-cycle state and the key store. -/
def Mach.lcySync (m : Mach) : Mach :=
  let m := m.set F.LCY_STATE_state m.lifeCycle.code
  match m.mgmt.keys with
  | none =>
    let m := ((m.off F.LCY_STATE_owner_key).off F.LCY_STATE_owner_sig_req).off F.LCY_STATE_anchors
    (m.wr Reg.LCY_OWNER_ID_LO 0).wr Reg.LCY_OWNER_ID_HI 0
  | some k =>
    let m := ((m.on F.LCY_STATE_owner_key).setB F.LCY_STATE_owner_sig_req k.ownerSigReq).set F.LCY_STATE_anchors
      k.anchors.toNat
    (m.wr Reg.LCY_OWNER_ID_LO (k.ownerKeyId.setWidth 32)).wr Reg.LCY_OWNER_ID_HI ((k.ownerKeyId >>> 32).setWidth 32)

/-- Advance the anti-rollback counter to a value, if that is higher (R490). -/
def Mach.rollbackTo (m : Mach) (v : Nat) : Mach :=
  m.when (decide (m.get F.LCY_ROLLBACK_count < v)) (·.set F.LCY_ROLLBACK_count v)

/-! ## Wipes (R484) -/

/-- Calibration records below 256, the module's own (R499): 16 words each. -/
def keepModuleCal (c : SMap Word) : SMap Word := keepBelow c (256 * 16)

/-- Perform a pending wipe. Bits 0 to 3 of the code are the wipe mask, bit 4 stands for MANUFACTURE to PROVISIONED,
bit 5 for DECOMMISSIONED. -/
def Mach.wipe (m : Mach) (code : Nat) : Mach :=
  let b := fun i => code.testBit i
  let g := m.mgmt
  let all := b 5
  let logs := b 3 || b 4 || all
  let stage := b 4 || all
  let m := { m with mgmt := { g with
    slots := if b 0 || all then Vector.replicate 4 ⟨none⟩ else g.slots
    calA := if b 1 || all then keepModuleCal g.calA else g.calA
    calB := if b 1 || all then keepModuleCal g.calB else g.calB
    cfgA := if b 2 || all then none else g.cfgA
    cfgB := if b 2 || all then none else g.cfgB
    log := if logs then [] else g.log
    unarchived := if logs then 0 else g.unarchived
    archive := if logs then [] else g.archive
    staged := if stage then none else g.staged
    stagePages := if stage then [] else g.stagePages
    blockMap := if stage then [] else g.blockMap
    journal := if stage then .normal else g.journal
    keys := if all then none else g.keys
    wiped := 0 } }
  let m := m.when all (·.off F.LCY_STATE_dev_key)
  (m.off F.LCY_WIPE_STAT_pending).lcySync

/-! ## The configuration (R500) -/

/-- Addresses of the rows of a block that hold RW fields, each with its RW mask. -/
def rwWords (rows : List RegRow) : List (Nat × Word) :=
  (rows.filter (·.rw != 0)).flatMap fun r =>
    (List.range r.n1).flatMap fun i => (List.range r.n2).map fun j => (r.first + r.s1 * i + r.s2 * j, r.rw)

/-- The registers of the configuration: every RW field of CHA, FLY, SNS, TB, ETH, CAN0, CAN1 and XL, MEM_SCRUB_CFG,
MBX_CFG and MGT_UPD_CFG. The lock register SNS_SP_OWNER names a session and is left out. -/
def configWords : List (Nat × Word) :=
  (([0x80000, 0xA0000, 0x100000, 0x30000, 0xC0000, 0xD0000, 0xE0000, 0xB0000].flatMap fun b => rwWords (blockRows b))
    ++ [(Reg.MEM_SCRUB_CFG, (regRow? Reg.MEM_SCRUB_CFG).map (·.rw) |>.getD 0),
        (Reg.MBX_CFG, 0xFFFF), (Reg.MGT_UPD_CFG, 0x7FF)]).filter (·.1 != Reg.SNS_SP_OWNER)

/-- The configuration as it stands, the words that differ from their reset words. -/
def Mach.configNow (m : Mach) : List (Nat × Word) :=
  (configWords.map fun (a, k) => (a, m.rd a &&& k)).filter fun (a, w) =>
    w != (resetWord a &&& ((configWords.lookup a).getD 0))

/-- Put a saved word's RW bits into its register. -/
def Mach.configPut (m : Mach) (a : Nat) (w : Word) : Mach :=
  let k := (configWords.lookup a).getD 0
  m.wr a ((m.rd a &&& ~~~k) ||| (w &&& k))

/-- The valid copy with the higher generation. -/
def MgmtState.config (g : MgmtState) : Option ConfigCopy :=
  match g.cfgA, g.cfgB with
  | some a, some b => if a.gen < b.gen then some b else some a
  | some a, none => some a
  | none, b => b

/-- The registers of a block that a module reset keeps (R472): those of the time base, and of the CAN ports while PD_CAN stays on. -/
def keptAt (again can : Bool) (a : Nat) : Bool :=
  again && (decide (0x30000 ≤ a ∧ a < 0x40000) || (can && decide (0xD0000 ≤ a ∧ a < 0xF0000)))

/-- Distaff applies the configuration: each RW field takes its saved value or its reset value, but what a module reset keeps; the
time base takes its increment. Without a copy the boot slot is the reference program.
DEDUCED: log entry 23. -/
def Mach.configApply (m : Mach) (again can : Bool) : Mach :=
  match m.mgmt.config with
  | none => { m with mgmt := { m.mgmt with bootSlot := 4 } }
  | some c =>
    let m := m.each (c.regs.filter fun x => !keptAt again can x.1) fun m (a, w) => m.configPut a w
    let v := incrUnits (m.get F.TB_INCR_NS_ns) (m.rd Reg.TB_INCR_FRAC)
    let m := { m with time := { m.time with incrNs := (v / 4294967296).toNat, incrFrac := BitVec.ofInt 32 v } }
    { m with mgmt := { m.mgmt with bootSlot := c.bootSlot } }

/-! ## Boot (R459) -/

/-- ETH_IP_ADDR takes the address in force (R390). -/
def Mach.ipInForce (m : Mach) : Mach :=
  m.wr Reg.ETH_IP_ADDR (m.rd Reg.ETH_IP_NET + 16 + BitVec.ofNat 32 (m.get F.GLB_SLOT_slot))

/-- A domain comes on during a boot; one whose rail is at fault stays off until a write requests it (R37). With a safety
demand present the Flyer broadcasts from the moment it works.
DEDUCED: log entry 23. -/
def Mach.bootDomain (m : Mach) (d : Domain) : Mach :=
  if m.get (pdField d) = 3 then m
  else
    let m := if d = .can ∧ !m.domOn .can then ((m.domainOn d).canStart 0).canStart 1 else m.domainOn d
    m.when (d == .chain && !m.safety.conds.isEmpty) (·.demandStop .safety)

/-- The end of a confirm (R490, R495, R497): the advance is made, the journal reads NORMAL, the update counts as confirmed. -/
def Mach.confirmDone (m : Mach) (v : Nat) : Mach :=
  ((({ m with mgmt := { m.mgmt with journal := .normal, confirmNs := none } }.rollbackTo v).off
    F.LCY_ROLLBACK_advance_pending).count Reg.MGT_PCNT_UPDATE).set F.MGT_UPD_STAT_trial_count 0

/-- The loader's view of the journal (R494, R495, R497): whether the boot goes on, with the running image and the
journal it leaves. -/
def Mach.bootJournal (m : Mach) : Mach × Bool :=
  match m.mgmt.journal with
  | .normal => (m, true)
  | .activating => match m.mgmt.staged with
    | some i =>
      if (m.imageError i m.mgmt.jDigest).isNone then
        ({ m with mgmt := { m.mgmt with running := some i, journal := .trial 1 } }, true)
      else (m, false)
    | none => (m, false)
  | .trial n => if n = 3 then (m, false) else ({ m with mgmt := { m.mgmt with journal := .trial (n + 1) } }, true)
  | .confirming v => (if m.supply = .normal then m.confirmDone v else m, true)

/-- The running image passes R489 at step 3, with the digest of the journal. -/
def Mach.runningOk (m : Mach) : Bool :=
  m.mgmt.running.any fun i => i.kind == .firmware && (m.imageError i m.mgmt.jDigest).isNone

/-- The stage that a boot restores (R493 to R497). -/
def Mach.bootStage (m : Mach) : Mach :=
  let g := m.mgmt
  let st := match g.journal with
    | .trial _ => Stage.trial
    | _ => if g.updOwner ≠ 0 then Stage.orphaned else Stage.idle
  let m := (m.set F.MGT_UPD_STAT_stage st).set F.MGT_UPD_STAT_owner g.updOwner
  let m := m.set F.MGT_UPD_STAT_trial_count (match g.journal with | .trial n => n | _ => 0)
  let m := (m.set F.MGT_UPD_PAGES_pages g.blockMap.length).wr Reg.MGT_UPD_LEN (BitVec.ofNat 32 g.updLen)
  m.set F.MGT_IMG_SECVER_running ((g.running.map (·.secVer.toNat)).getD 0)

/-- Loader safe mode (R496): PD_HOST and PD_SVC come on, BRK_TRIP is de-energised, the stage is SAFE_MODE. -/
def Mach.safeModeBoot (m : Mach) : Mach :=
  let m := { m with power := { m.power with safeMode := true, distaffAbsent := false, heldStandby := none } }
  let m := ((m.bootDomain .host).bootDomain .svc).bootStage.releaseTripHs.releaseTripLs
  (((m.wr Reg.GLB_FW_VER 0).set F.MGT_UPD_STAT_stage Stage.safeMode).on F.MGT_IRQ_STAT_safe_mode).ipInForce

/-- Steps 3 to 6 with a good image: domains, configuration, program, safety parameter set. -/
def Mach.bootOn (m : Mach) (again : Bool) : Mach :=
  let can := m.domOn .can
  let m := m.wr Reg.GLB_FW_VER ((m.mgmt.running.map (·.version)).getD 0)
  let m := m.each [Domain.sense, .can, .host, .svc, .frame, .spin0, .spin1, .chain, .xlink] Mach.bootDomain
  let m := m.setAbsent false
  let m := (m.configApply again can).ipInForce.bootStage.loadBootSlot
  let m := m.each ((List.range 16).zip ((m.mgmt.running.map (·.safety)).getD [])) fun m (n, w) =>
    m.wr (Reg.SAF_PARAM n) w
  m.paramLoad

/-! ## Calibration records (R499) -/

/-- The 16 words of a record in one copy of the store. -/
def calWords (c : SMap Word) (n : Nat) : List Word := (List.range 16).map fun k => lookup 0 c (16 * n + k)

/-- The record's CRC-32C over its bytes 0 to 59 is right. -/
def calOk (ws : List Word) : Bool := crcWords (ws.take 15) == ws.getD 15 0

/-- A record from copy A, or from copy B, or zeros; and whether it was valid. -/
def MgmtState.cal (g : MgmtState) (n : Nat) : List Word × Bool :=
  let a := calWords g.calA n
  let b := calWords g.calB n
  if calOk a then (a, true) else if calOk b then (b, true) else (List.replicate 16 0, false)

/-- The records of 0 to 255 that are valid in a copy, with their words. A record of which no word is stored is all zero and
invalid. -/
def MgmtState.scaling (g : MgmtState) : List (Nat × List Word) :=
  let ks := (((g.calA ++ g.calB).map fun e => e.1 / 16).filter (· < 256)).eraseDups
  (ks.filter fun k => (g.cal k).2).map fun k => (k, (g.cal k).1)

/-- The sense interface takes its scaling from the calibration store (R69, R521): a record invalid in both copies gives none. -/
def Mach.loadScaling (m : Mach) : Mach :=
  let rs := m.mgmt.scaling
  let rec' := fun k => (rs.find? (·.1 == k)).map (·.2)
  { m with sense := { m.sense with shRecord := (rec' Config.shuntRecord).getD []
                                   fgScaling := (rec' Config.fgRecord).map Config.fgScale } }

/-- The boot from step 2 on (R459), with PD_MGMT freshly on. The wipe that a loss of supply cut off resumes before step
4 (R483); the persistent boot count grows (R501). The confirm window of a trial starts at boot_done (R495).
DEDUCED: log entries 6, 23. DESIGN CHOICE: log entry 24. -/
def Mach.boot (m : Mach) (again : Bool) : Mach :=
  let m := { m with power := { m.power with safeMode := false } }
  let m := ((m.domainReset .mgmt).set (pdField .mgmt) 2).loadScaling
  let m := m.when (m.mgmt.wiped != 0) fun m => m.wipe m.mgmt.wiped
  let (m, go) := m.bootJournal
  let m := if go && m.runningOk then m.bootOn again else m.safeModeBoot
  let m := m.storeSettle
  let m := (m.count Reg.MGT_PCNT_BOOT).on F.PWR_IRQ_STAT_boot_done
  let window := match m.mgmt.journal with
    | .trial _ => some (m.upNs + m.get F.MGT_UPD_CFG_confirm_min * 60000000000)
    | _ => none
  { m with power := { m.power with bootDone := true }
           mgmt := { m.mgmt with confirmNs := if m.power.safeMode then none else window } }

/-! ## Power-up and module reset -/

/-- What keeps its content without supply: fuses, NOR, FRAM (R472), and the nodes, which have a supply of their own. -/
def Mach.aonReset (m : Mach) : Mach :=
  let keepAt := [Reg.LCY_STATE, Reg.LCY_ROLLBACK, Reg.LCY_CNT_CHANGE, Reg.MGT_LOG_SEQ, Reg.MGT_PCNT_BOOT,
    Reg.MGT_PCNT_HOURS, Reg.MGT_PCNT_CLOSE, Reg.MGT_PCNT_UPDATE, Reg.GLB_SERIAL_LO, Reg.GLB_SERIAL_HI, Reg.ETH_MAC_LO,
    Reg.ETH_MAC_HI]
    ++ (List.range 48).flatMap fun i => (List.range 8).map fun e => Reg.MEM_REMAP i e
  let z := Mach.reset
  let r := { z with lifeCycle := m.lifeCycle, mgmt := { m.mgmt with verified := false, confirmNs := none, updNs := 0 }
                    chain := { z.chain with nodes := m.chain.nodes }, out := m.out, freeTick := m.freeTick }
  let r := (r.each keepAt fun r a => r.wr a (m.rd a)).lcySync
  r.setB F.LCY_WIPE_STAT_pending (m.mgmt.wiped != 0)

/-- AON power-up (R459 steps 1 to 6): slot pins sampled (R51), every clock good, the device key generated at the first
power-up in MANUFACTURE (R485), the type POWER_ON recorded; by boot_done the store holds 90 % or more (R49, R459). The supply
must stand above the rising threshold (R43, R459). An image given is what NOR0 holds as running image.
DEDUCED: log entries 6, 23. DESIGN CHOICE: log entry 5. -/
def Mach.powerUp (m : Mach) (slot : BitVec 6) (auxV : BitVec 16) (img : Option Image) : Mach :=
  if m.power.powered ∨ auxV.toNat < 1930 then m
  else
    let m := m.aonReset
    let m := { m with power := { m.power with powered := true, slotPins := slot }
                      mgmt := { m.mgmt with running := img.orElse fun _ => m.mgmt.running } }
    let m := ((m.wr Reg.GLB_SLOT (slot.setWidth 32)).wr Reg.PWR_CI_STAT 0xFFF).set F.PWR_SUP_STAT_aux_v auxV.toNat
    let m := m.when (m.lifeCycle == .manufacture) (·.on F.LCY_STATE_dev_key)
    let m := (m.boot false).ppsLoad
    let m := (m.freeTicked.set F.PWR_SUP_STAT_store_level (90 + m.freeNow.toNat % 11)).chargerSet
    (m.mark .hour).log 0x0A ResetType.powerOn

/-- AON_POWER_UP (R459). -/
def execAonPowerUp (slot : BitVec 6) (auxV : BitVec 16) (img : Option Image) (s : State) :
    Host.Outcome State Fault Refusal := eff s (s.mach.powerUp slot auxV img)

/-- The receive FIFO and the records of a CAN port lie on rings in PD_MGMT and are emptied (R472). -/
def Mach.canFifoEmpty (m : Mach) (x : Nat) : Mach :=
  let m := m.set (F.CAN_FIFO_STAT_count x) 0
  m.setCan x { m.canPort x with fifo := [], sent := [] }

/-- Every switched domain but PD_CAN is reset (R472). -/
def Mach.domainsReset (m : Mach) : Mach :=
  m.each [Domain.spin0, .spin1, .frame, .chain, .host, .xlink, .sense, .svc] fun m d =>
    if m.domFault d then m else m.domainOff d

/-- A module reset takes effect (R472): the claim is released first (R353); the run state becomes OFF, or FAULT_LATCHED
while a latched cause stands (R463); a STANDBY whose partner holds the claim keeps BRK_TRIP (R477); sessions close; the
armed fault reset lapses (R478); then the boot runs from step 2.
DEDUCED: log entry 23. -/
def Mach.moduleReset (m : Mach) (type : Nat) : Mach :=
  let held := m.role == .standby && m.flag F.XL_STAT_claim_in
  let m := m.releaseClaim .reset
  let m := { m with power := { m.power with heldStandby := if held then some m.upNs else none, resetPend := none } }
  let m := m.closeSessions
  let m := m.disarm
  let m := if m.safety.latched.isEmpty then (if m.runState = .off then m.recordRun .off Cause.reset
      else m.toRun .off Cause.reset)
    else (if m.runState = .faultLatched then m.recordRun .faultLatched Cause.reset
      else m.toRun .faultLatched Cause.reset)
  let m := m.cyclesStop.dissolvePair
  let m := { m with spin := .init, latches := [] }
  let m := (m.domainsReset.canFifoEmpty 0).canFifoEmpty 1
  let m := { m with power := { m.power with
    bootDone := false, distaffAbsent := true, restartWait := false, guard := none, action := none, openReq := false
    mbxTimeouts := [], lifePend := false, joining := false, blockHold := false, startLeft := 0, portRetried := [] } }
  let m := ((m.set F.PWR_RESET_CAUSE_type type).count Reg.PWR_CNT_RESET).off F.PWR_LADDER_STAT_busy
  let m := m.set F.PWR_LADDER_STAT_rung 0
  (m.boot true).log 0x0A type

/-- MODULE_RESET_TAKE (R472): the pending reset takes effect; the one of LIFECYCLE_SET 100 ms after its DONE (R483). -/
def execModuleResetTake (img : Option Image) (s : State) : Host.Outcome State Fault Refusal :=
  let m := s.mach
  eff s (match m.power.resetPend with
    | none => m
    | some t =>
      let m := (m.await .lifeReset 100000000).unmark .lifeReset
      ({ m with mgmt := { m.mgmt with running := img.orElse fun _ => m.mgmt.running } }).moduleReset t.toNat)

end Sys2Proof.Machine
end

