-- ==== Sys2Proof/Machine/Chain.lean ====
section
/-!
DEFINITION. The Privor chain (ch. 03): ports and launches, received trains, breaks and their repair, the roving walk
with the admission checks A1 and A2 (R133, R134), the node firmware load and the release of nodes.
-/

namespace Sys2Proof.Machine

/-! ## Launches (R95, R98 to R105, R118) -/

/-- Send a frame on every launching port. -/
def Mach.launchAll (m : Mach) (f : Mach → Port → Mach) : Mach := m.each m.launchPorts f

/-- Relayed frames may leave: a STANDBY in relay that reads CLAIM_IN asserted (R118, R363). -/
def Mach.relaying (m : Mach) : Bool :=
  m.role == .standby && m.flag F.XL_STAT_relay && m.flag F.XL_STAT_claim_in

/-- The claim bit of a launched frame (R95); it is not set before the claim settle ends (R351). -/
def Mach.claimBit (m : Mach) : Bool := m.role == .solo || (m.holdsClaim && !m.pair.settle)

/-- SYNC and CMD frames leave as carriers: no claim and no relay (R118). -/
def Mach.asCarrier (m : Mach) : Bool := !m.claimBit && !m.relaying

/-- The source and the claim bit of this module's own frames (R95). -/
def Mach.launcher (m : Mach) : Launcher := ⟨BitVec.ofNat 6 (m.get F.GLB_SLOT_slot), m.claimBit, false⟩

/-- The source and the flags of frames that it relays (R95, R118). -/
def Mach.relayer (m : Mach) : Launcher := ⟨BitVec.ofNat 6 (m.get F.XL_STAT_partner_slot), false, true⟩

/-- The divider D; a field of 0 cannot be written (R121). -/
def Mach.cellDiv (m : Mach) : Nat := max 1 (m.get (F.CH_CFG_cell_div 0))

/-- Symbols leave a port from an instant on; the port is busy until the last of them has left. -/
def Mach.launchAt (m : Mach) (p : Port) (start : Nat) (syms : List Symbol) : Mach :=
  (m.setPort p { m.port p with busyNs := start + 8 * syms.length }).send (.chain p start syms)

/-- The launch of a fixed frame (R105): at once, or directly after an earlier frame that is still being sent. -/
def Mach.fixedStart (m : Mach) (p : Port) : Nat := max m.upNs (m.port p).busyNs

/-- A fixed frame leaves; one that had to wait sets launch_overrun (R105). -/
def Mach.launchFixed (m : Mach) (p : Port) (f : ChainFrame) : Mach :=
  (m.when (m.upNs < (m.port p).busyNs) (·.on (F.CH_IRQ_STAT_launch_overrun (portIx p)))).launchAt p (m.fixedStart p) f.symbols

/-- The fixed launch instants in a cycle with the lengths of the frames in symbols (R105). -/
def Mach.fixedFrames (m : Mach) : List (Nat × Nat) :=
  let n := m.nodeCount
  [(200, 24 + 4 * n), (if m.relaying then 7000 else 5500, 24 + 2 * n + 24 * tailRecords n m.cellDiv), (m.periodNs - 1000, 32)]

/-- The first instant from `t` on at which `len` symbols fit between the windows given as (start, length). -/
def gapFrom (len : Nat) : Nat → List (Nat × Nat) → Nat
  | t, [] => t
  | t, (s, l) :: rest => if t + 8 * len ≤ s then t else gapFrom len (max t (s + 8 * l)) rest

/-- The launch of a MGMT, BOOT or ENUM frame of `len` symbols, not before `at0`: only where its last symbol leaves before the next
fixed launch instant (R105). -/
def Mach.gapStart (m : Mach) (p : Port) (at0 len : Nat) : Nat :=
  let t := max (max m.upNs at0) (m.port p).busyNs
  if p ∈ m.launchPorts then
    let base := m.upNs - (m.nowNs - m.instantOf (m.indexAt m.nowNs))
    let base := base + (t - base) / m.periodNs * m.periodNs
    gapFrom len t ((List.range 3).flatMap fun j => m.fixedFrames.map fun (o, l) => (base + j * m.periodNs + o, l))
  else t

/-- A frame leaves in a gap, not before `at0`. -/
def Mach.sendGap (m : Mach) (p : Port) (at0 : Nat) (f : ChainFrame) : Mach :=
  m.launchAt p (m.gapStart p at0 f.size) f.symbols

/-- The delay measured from a port, if it was measured. -/
def Mach.delayOf (m : Mach) (p : Port) (n : Nat) : Option Nat :=
  if m.flag (F.CH_DELAY_valid (portIx p) n) then some (m.get (F.CH_DELAY_delay_q (portIx p) n)) else none

/-- When a symbol that leaves a port at `t` reaches position `n`, in 0.25 ns: after the delay measured, or where none was
measured after the one that the node holds. -/
def Mach.arrives (m : Mach) (p : Port) (n : Nat) (x : NodeModel) (t : Nat) : Int :=
  4 * (t : Int) + ((m.delayOf p n).map fun d => ((d : Nat) : Int)).getD (x.delay (!m.atZero p))

/-- UPLINK_LAUNCH (R99, R105): every slot leaves unwritten. -/
def execUplinkLaunch (s : State) : Host.Outcome State Fault Refusal :=
  eff s (s.mach.inCycle 200 (·.launchAll fun m p => m.launchFixed p (uplinkFrame m.launcher m.cycle m.nodeCount)))

/-- The SYNC frame of this cycle (R98, R118): it announces the instant that starts cycle k + 2, with lead T + 1000 ns. -/
def Mach.syncOf (m : Mach) : ChainFrame :=
  let f := syncFrame (if m.relaying then m.relayer else m.launcher) (m.cycle + 2) (m.get F.FLY_CYCLE_period) m.cellDiv
    (m.periodNs + 1000) (m.instantOf (m.indexAt m.nowNs + 2))
  { f with carrier := m.asCarrier }

/-- SYNC leaves a port, and the nodes that it reaches take the announced instant (R106). -/
def Mach.syncLaunch (m : Mach) (p : Port) : Mach :=
  let f := m.syncOf
  let start := m.fixedStart p
  let m := m.launchFixed p f
  if f.acts then m.overNodes p fun n x => x.sync (!m.atZero p) f.seq (m.arrives p n x start) f.param.toNat else m

/-- SYNC_LAUNCH (R98, R105). -/
def execSyncLaunch (s : State) : Host.Outcome State Fault Refusal :=
  eff s (s.mach.inCycle (s.mach.periodNs - 1000) (·.launchAll Mach.syncLaunch))

/-- A command train leaves a port and passes the nodes that it reaches, each of which judges its copy (R109). -/
def Mach.trainLaunch (m : Mach) (p : Port) (f : ChainFrame) (slots : List (BitVec 16)) : Mach :=
  let start := m.fixedStart p
  let last := start + 8 * (20 + f.body.length)
  let m := m.launchFixed p f
  m.overNodes p fun n x =>
    x.command (!m.atZero p) f (slots.getD ((x.pos.map (·.toNat)).getD 255) 0xFFFF) (m.arrives p n x last)

/-! ## Controls of a port (R121) -/

/-- The run of STOP symbols follows the launching ports while the broadcast runs (R92). -/
def Mach.stopFollow (m : Mach) (was : List Port) : Mach :=
  if m.flag F.FLY_STOP_active then
    (m.each (m.stopPorts.filter fun p => decide (p ∉ was)) Mach.stopRun).each (was.filter fun p => decide (p ∉ m.stopPorts))
      fun m p => m.send (.stopGroups p false)
  else m

/-- LAUNCH (R121). -/
def execLaunch (_master : Nat) (p : Port) (on : Bool) (s : State) : Host.Outcome State Fault Refusal :=
  eff s (s.mach.access (Reg.CH_CTRL (portIx p)) fun m => (m.setB (F.CH_CTRL_launch (portIx p)) on).stopFollow m.stopPorts)

/-- A write of tx_en (R121): a 1 to CHB is refused in a PAIR ring. -/
def Mach.txEnable (m : Mach) (p : Port) (on : Bool) : Mach :=
  if on && m.pairRing && p == .b then m.refuse Err.refusedState
  else ((m.setB (F.CH_CTRL_tx_en (portIx p)) on).setB (F.CH_LINK_STAT_tx_on (portIx p)) on).stopFollow m.stopPorts

def execTxEn (_master : Nat) (p : Port) (on : Bool) (s : State) : Host.Outcome State Fault Refusal :=
  eff s (s.mach.access (Reg.CH_CTRL (portIx p)) fun m => m.txEnable p on)

/-- The counters of a port; CHA's hold the chain-wide CNT_MISM (R121). -/
def chCounters (p : Port) : List Nat :=
  let x := portIx p
  [Reg.CH_CNT_CV x, Reg.CH_CNT_HDR x, Reg.CH_CNT_SLOT x, Reg.CH_CNT_LATE x, Reg.CH_CNT_BAD x]
    ++ (if p = .a then [Reg.CH_CNT_MISM 0] else [])

def execChxClrCnt (_master : Nat) (p : Port) (s : State) : Host.Outcome State Fault Refusal :=
  eff s (s.mach.access (Reg.CH_CTRL (portIx p)) fun m => m.clearRegs (chCounters p))

/-! ## Received trains (R108, R116) -/

/-- A break that the next cycle boundary reports (R116). -/
def Mach.breakSeen (m : Mach) : Mach := { m with chain := { m.chain with breakPend := true } }

/-- Add `k` to a counter, which saturates. -/
def Mach.countBy (m : Mach) (a k : Nat) : Mach := m.wr a (BitVec.ofNat 32 (min 0xFFFFFFFF ((m.rd a).toNat + k)))

/-- Symbols arrive at a port: code violations are counted, the unused control codes among them (R91, R121).
DEDUCED: log entry 64. -/
def Mach.seeSymbols (m : Mach) (p : Port) (syms : List Symbol) : Mach :=
  m.countBy (Reg.CH_CNT_CV (portIx p)) (violations syms)

/-- The hops that a frame has that comes back to a port or from the other end: N, or of a turned frame the nodes up to the one
that turned it, where its TURN notice named it. -/
def Mach.hopsDue (m : Mach) (p : Port) (turned : Bool) : Option Nat :=
  let t := m.get (F.CH_LINK_STAT_turn_pos (portIx p))
  if !turned then some m.nodeCount
  else if t < m.nodeCount then some (if m.atZero p then t + 1 else m.nodeCount - t) else none

/-- What any received train shows: EOF_BAD or bad > 0 counted, hops compared, turned frames noticed, lateness. -/
def Mach.trainSeen (m : Mach) (p : Port) (f : FrameCheck) : Mach :=
  let x := portIx p
  let m := m.when (f.eofBad || f.bad != 0) (·.count (Reg.CH_CNT_BAD x))
  let due := m.hopsDue p f.turned
  let m := m.when (f.hops.isSome && due.isSome && f.hops != due) (·.on (F.CH_IRQ_STAT_hop_mismatch x))
  let m := (m.setB (F.CH_LINK_STAT_turned x) f.turned).when f.turned (·.breakSeen)
  m.when f.late fun m => (m.count (Reg.CH_CNT_LATE x)).on (F.CH_IRQ_STAT_late_train x)

/-- The frame is the other end's, whole: not turned, hops = N (R120). -/
def Mach.otherEnd (m : Mach) (f : FrameCheck) : Bool := !f.turned && f.hops == some m.nodeCount

/-- A slot is a valid copy: written, with a good scrc (R99, R108). -/
def slotValid (s : SlotRx) (seq : Word) : Bool := !s.word.getLsbD 8 && slotCrc s.word s.pos seq == s.word.setWidth 8

/-- The bytes of a record. -/
def recordBytes (ws : List Word) : List Byte := (wordsBytes ws).take 24

/-- The record's rcrc is good (R101). -/
def recordCrcOk (ws : List Word) : Bool :=
  let bs := recordBytes ws
  crc16 (bs.take 22) == (bs.getD 22 0 ++ bs.getD 23 0 : BitVec 16)

/-- The cell sample that position `p` writes into the train launched in the cycle before `c` (R101). -/
def Mach.sampleOf (m : Mach) (p : Nat) (c : Word) : Word := c - 2 - BitVec.ofNat 32 (p % m.cellDiv)

/-- A record of position `p` is due in the frame of cycle `c` (R206). -/
def Mach.recordDue (m : Mach) (p : Nat) (c : Word) : Bool :=
  decide (p < m.nodeCount) && (m.sampleOf p c).toNat % m.cellDiv == 0

/-- A record is a valid copy: expected position and sample, good rcrc (R108). -/
def Mach.recordValid (m : Mach) (r : RecordRx) (c : Word) : Bool :=
  let bs := recordBytes r.words
  m.recordDue r.pos c && bs.getD 0 0 == BitVec.ofNat 8 r.pos && bs.getD 1 0 == (m.sampleOf r.pos c).setWidth 8
    && recordCrcOk r.words

/-- The slots of a train: valid ones are kept, those that fail their own check are counted. -/
def Mach.takeSlots (m : Mach) (p : Port) (seq : Word) (slots : List SlotRx) : Mach :=
  let ok := (slots.filter fun s => decide (s.pos < m.nodeCount) && slotValid s seq).map fun s => (s.pos, s.word)
  let bad := slots.filter fun s => !s.word.getLsbD 8 && slotCrc s.word s.pos seq != s.word.setWidth 8
  let m := m.each bad fun m _ => m.count (Reg.CH_CNT_SLOT (portIx p))
  m.setPort p { m.port p with slots := (m.port p).slots ++ ok }

/-- An uplink train (R108, R116): the slots that arrived before the freeze instant; under a break what came is forwarded to the
partner (R354). -/
def Mach.uplinkRx (m : Mach) (p : Port) (f : FrameCheck) (slots : List SlotRx) : Mach :=
  if !m.portUp p || p ∉ m.chainPorts then m
  else if !f.hdrOk then m.count (Reg.CH_CNT_HDR (portIx p))
  else if f.kind ≠ kindUplink ∨ (f.seq ≠ m.cycle ∧ f.seq + 1 ≠ m.cycle) then m
  else
    let m := m.trainSeen p f
    let m := m.when (!f.turned) fun m => m.setPort p { m.port p with noHeader := 0 }
    let m := m.when (m.otherEnd f && f.seq == m.cycle) fun m => m.setPort p { m.port p with gotUp := true }
    let m := m.when (f.seq == m.cycle && !m.chain.frozen) (·.takeSlots p f.seq slots)
    m.when (m.pair.formed && m.ringBroken && p == .a) (·.sendXl (.slotx f.seq slots []))

/-- A train of a sequence is late (R121): its freeze instant has come before its last symbol, of which `early` came in time. -/
def Mach.lateTrain (m : Mach) (seq : Word) (syms : List Symbol) (early : Nat) : Bool :=
  seq + 1 == m.cycle || (seq == m.cycle && (m.chain.frozen || decide (early < syms.length)))

/-- The checks of a received train. -/
def Mach.checkTrain (m : Mach) (syms : List Symbol) (early : Nat) : FrameCheck :=
  let r := receiveFrame syms
  r.check (m.lateTrain ((r.header.map (·.seq)).getD 0) syms early)

/-- UPLINK_TRAIN_RX (R99, R108): the symbols that a port receives, of which the first `early` have come before the freeze
instant of the train's cycle. -/
def execUplinkTrainRx (p : Port) (syms : List Symbol) (early : Nat) (s : State) : Host.Outcome State Fault Refusal :=
  let m := s.mach
  eff s ((m.when (m.portUp p) (·.seeSymbols p syms)).uplinkRx p (m.checkTrain syms early)
    ((receiveFrame (syms.take early)).slots m.nodeCount))

/-- Both modules hold the claim (R352): the higher-slot module releases it; the fault is reported there. -/
def Mach.dualClaim (m : Mach) : Mach :=
  if m.holdsClaim && !m.posZero then (m.on F.XL_IRQ_STAT_claim_fault).releaseClaim .dualClaim else m

/-- The position that writes at a tail index of the train whose sequence is `c`: the one p with floor(p / D) = index whose record
is due in it (R101). -/
def Mach.tailPos (m : Mach) (c : Word) (k : Nat) : Option Nat :=
  (List.range m.nodeCount).find? fun p => p / m.cellDiv == k && m.recordDue p c

/-- The records of a train by position; one at an index that no position writes has the position 255. -/
def Mach.tailRecs (m : Mach) (c : Word) (l : List (Nat × List Word)) : List RecordRx :=
  l.map fun e => ⟨(m.tailPos c e.1).getD 255, e.2⟩

/-- The records of a train for the frame of cycle `c`. -/
def Mach.takeRecords (m : Mach) (p : Port) (c : Word) (recs : List RecordRx) : Mach :=
  let ok := (recs.filter fun r => m.recordValid r c).map fun r => (c, r.pos, r.words)
  let bad := recs.filter fun r => (recordBytes r.words).getD 0 0 != 0xFF && !m.recordValid r c
  let m := m.each bad fun m _ => m.count (Reg.CH_CNT_SLOT (portIx p))
  m.setPort p { m.port p with records := (m.port p).records ++ ok }

/-- A command train of the partner has passed the nodes before it reaches port A: they have the instant that its SYNC named, and
judge the copy as any other (R106, R109). A node whose instant has come has applied it then.
DEDUCED: log entry 28. -/
def NodeModel.passed (x : NodeModel) (rev : Bool) (f : ChainFrame) (slot : BitVec 16) (cycle : Word) (at' : Int) (since : Nat) :
    NodeModel :=
  if f.seq = cycle then
    let y := { x with syncFwd := [(cycle, at')], syncRev := [(cycle, at')] }
    if x.held && !x.rom && !x.stopLatched && !x.autoBlock && y.accepts f slot (at' - 2000) then
      { x with applied := Command.ofSlot slot, held := false, holdNs := since }
    else x
  else (x.sync rev f.seq (at' + x.delay rev) 0).command rev f slot (at' - 2000)

/-- The partner's train at port A of a PAIR ring, which acts on the nodes of this module's picture of the chain. -/
def Mach.partnerTrain (m : Mach) (h : Option ChainFrame) (slots : List (BitVec 16)) (bodyOk : Bool) : Mach :=
  match h with
  | none => m
  | some f =>
    let now := m.nowNs - m.instantOf (m.indexAt m.nowNs)
    let at' : Int := 4 * ((m.upNs : Int) - now + (if f.seq = m.cycle then 0 else m.periodNs))
    if m.pairRing && bodyOk && f.acts && (f.seq == m.cycle || f.seq == m.cycle + 1) then
      m.overNodes .a fun _ x =>
        x.passed (m.atZero .a) f (slots.getD ((x.pos.map (·.toNat)).getD 255) 0xFFFF) m.cycle at' now
    else m

/-- A command train (R101, R108, R352): of this cycle or of the one before, which names the cycle after its launch. Under a break
its records are forwarded to the partner (R354). -/
def Mach.cmdRx (m : Mach) (p : Port) (f : FrameCheck) (recs : List RecordRx) (cmds : List (BitVec 16)) : Mach :=
  if !m.portUp p || p ∉ m.chainPorts then m
  else if !f.hdrOk then m.count (Reg.CH_CNT_HDR (portIx p))
  else if f.kind ≠ kindCmd ∨ (f.seq ≠ m.cycle ∧ f.seq ≠ m.cycle + 1 ∧ f.seq + 1 ≠ m.cycle) then m
  else
    let m := m.trainSeen p f
    let m := m.when (m.otherEnd f) fun m => m.setPort p { m.port p with gotCmd := true }
    let partner := m.pairRing && p == .a && f.source.toNat == m.get F.XL_STAT_partner_slot
    let m := m.when (partner && f.claim && !f.relay) fun m =>
      { m.dualClaim with pair := { m.dualClaim.pair with claimSeen := some m.cycle, trainSeen := some (f.seq, cmds) } }
    let m := m.when (f.seq == m.cycle + 1 || (f.seq == m.cycle && !m.chain.frozen)) (·.takeRecords p f.seq recs)
    m.when (m.pair.formed && m.ringBroken && p == .a) (·.sendXl (.slotx f.seq [] recs))

/-- CMD_TRAIN_RX (R100, R101, R108). -/
def execCmdTrainRx (p : Port) (syms : List Symbol) (early : Nat) (s : State) : Host.Outcome State Fault Refusal :=
  let m := s.mach
  let r := receiveFrame syms
  let seq := (r.header.map (·.seq)).getD 0
  let part := if seq = m.cycle then receiveFrame (syms.take early) else r
  let recs := m.tailRecs seq (part.records m.nodeCount m.cellDiv)
  let other := r.header.any fun h => h.source != m.launcher.source
  let m' := (m.when (m.portUp p) (·.seeSymbols p syms)).cmdRx p (m.checkTrain syms early) recs (r.commands m.nodeCount)
  eff s (m'.when (m.portUp p && other) (·.partnerTrain r.header (r.commands m.nodeCount) (r.bodyOk (2 * m.nodeCount))))

/-- MGMT_RESPONSE_RX (R102): the response that chain management last received, by a frame whose hcrc and bcrc are good. -/
def execMgmtResponseRx (p : Port) (syms : List Symbol) (s : State) : Host.Outcome State Fault Refusal :=
  let r := receiveFrame syms
  eff s (s.mach.when (s.mach.portUp p) fun m =>
    let m := (m.seeSymbols p syms).when r.header.isNone (·.count (Reg.CH_CNT_HDR (portIx p)))
    match r.response with
    | some x => { m with chain := { m.chain with lastMgmt := some x } }
    | none => m)

/-- TURN_NOTICE_RX (R91, R116): the data symbol after TURN holds the turned side and the sender's position. -/
def execTurnNoticeRx (p : Port) (notice : Byte) (s : State) : Host.Outcome State Fault Refusal :=
  eff s (s.mach.when (s.mach.portUp p) fun m =>
    let m := m.set (F.CH_LINK_STAT_turn_pos (portIx p)) (notice.toNat % 128)
    (m.setPort p { m.port p with turnSide := notice.getLsbD 7 }).breakSeen)

/-! ## Locks, breaks and repair (R115 to R120) -/

/-- PORT_LOCK_LOSS (R116, R353): port A of the claim holder releases the claim. -/
def Mach.lockLost (m : Mach) (p : Port) : Mach :=
  let m := m.when (m.flag (F.CH_LINK_STAT_rx_lock (portIx p))) (·.mark (.lock p))
  let m := (m.off (F.CH_LINK_STAT_rx_lock (portIx p))).setPort p { m.port p with clean := 0 }
  (m.when (p ∈ m.chainPorts) (·.breakSeen)).when (p == .a) (·.releaseClaim .chain)

def execPortLockLoss (p : Port) (s : State) : Host.Outcome State Fault Refusal :=
  eff s (s.mach.when (s.mach.domOn .chain) (·.lockLost p))

/-- PORT_RELOCK (R476): the port may be reinitialised by itself again. -/
def execPortRelock (p : Port) (s : State) : Host.Outcome State Fault Refusal :=
  eff s (s.mach.when (s.mach.portUp p) fun m =>
    let f := if p = .a then ReFunc.chainA else ReFunc.chainB
    { m.on (F.CH_LINK_STAT_rx_lock (portIx p)) with
      power := { m.power with portRetried := drop1 m.power.portRetried f } })

/-- The ring state as it is reported (R116, R121). -/
def Mach.setRing (m : Mach) (broken : Bool) : Mach :=
  let m := (m.setB (F.CH_LINK_STAT_ring_broken 0) broken).setB (F.CH_LINK_STAT_ring_broken 1) broken
  let m := m.each m.chainPorts fun m p =>
    m.on (if broken then F.CH_IRQ_STAT_ring_broken (portIx p) else F.CH_IRQ_STAT_ring_closed (portIx p))
  { m with ringBroken := broken, chain := { m.chain with breakPend := false } }

/-- The end of a cycle at each port: the runs of clean cycles and, while the port launches, of cycles without the other
end's header. -/
def PortState.cycleEnd (x : PortState) (c : Word) (launching : Bool) : PortState :=
  { x with clean := if x.gotUp && x.gotCmd then min 1000 (x.clean + 1) else 0
           noHeader := if launching then x.noHeader + 1 else 0
           gotUp := false, gotCmd := false, slots := [], records := x.records.filter fun r => r.1 == c }

/-- The cycle boundary before cycle `c` (R116): a break seen in the cycle, or no header from the other end for 2
cycles, makes the ring RING_BROKEN. While no port launches it reads RING_CLOSED (R510). -/
def Mach.cycleBoundary (m : Mach) (c : Word) : Mach :=
  let silent := m.launchPorts.any fun p => 3 ≤ (m.port p).noHeader + 1
  let broken := m.chain.breakPend || silent
  let a := m.chain.portA.cycleEnd c (.a ∈ m.launchPorts)
  let b := m.chain.portB.cycleEnd c (.b ∈ m.launchPorts)
  let m := { m with chain := { m.chain with portA := a, portB := b, breakPend := false } }
  let m := m.when (broken && !m.ringBroken) (·.setRing true)
  if m.launchPorts.isEmpty then
    { (m.off (F.CH_LINK_STAT_ring_broken 0)).off (F.CH_LINK_STAT_ring_broken 1) with ringBroken := false }
  else m

/-- The half of a round trip less the turnaround time (R112), in 0.25 ns. The rounding of an odd difference is open. -/
def Mach.hopDelay (m : Mach) (rt tau : Nat) : Nat × Mach :=
  let r := m.openDiv ((rt : Int) - tau) 2
  (r.1.toNat, r.2)

/-- Store the delay of a node from a port. -/
def Mach.setDelay (m : Mach) (p : Port) (n d : Nat) : Mach :=
  m.wr (Reg.CH_DELAY (portIx p) n) (BitVec.ofNat 32 (2 ^ 31 + d % 2 ^ 16))

/-- Change one node. -/
def Mach.modNode (m : Mach) (n : Nat) (f : NodeModel → NodeModel) : Mach :=
  if h : n < 128 then { m with chain := { m.chain with nodes := m.chain.nodes.set n (f m.chain.nodes[n]) } } else m

/-- The positions of the string's nodes. -/
def Mach.positions (m : Mach) : List Nat := List.range m.nodeCount

/-- The causes of the nodes' latches that stand: the stop broadcast, and an open fault loop. -/
def Mach.latchCauses (m : Mach) : Bool × Bool := (m.flag F.FLY_STOP_active, !m.flag F.SAF_INPUT_floop)

/-- This module may send MGMT and BOOT frames: SOLO or the claim holder (R350). -/
def Mach.mayManage (m : Mach) : Bool := m.role == .solo || m.holdsClaim

/-! ## Management frames (R102) -/

/-- A management request leaves in a gap, not before `at0`, with the next transaction number; no frame leaves during the stop
broadcast (R155). -/
def Mach.mgmtSend (m : Mach) (p : Port) (at0 dest : Nat) (op : Byte) (addr : Nat) (req : List Byte) (len : Nat) : Mach :=
  if m.portUp p && !m.flag F.FLY_STOP_active then
    let t := m.chain.trans + 1
    let m := { m with chain := { m.chain with trans := t } }
    m.sendGap p at0 (mgmtFrame m.launcher t dest op addr (padReq req) len)
  else m

/-- The nodes that a request to a position, or with 0xFF to all, reaches take it. -/
def Mach.mgmtTake (m : Mach) (p : Port) (dest : Nat) (op : Byte) (addr : Nat) (req : List Byte) : Mach :=
  let c := m.latchCauses
  if m.portUp p && !m.flag F.FLY_STOP_active then
    m.overNodes p fun n x => if dest = 0xFF ∨ dest = n then x.mgmt op addr req c.1 c.2 else x
  else m

/-- A management request that its nodes take. -/
def Mach.mgmtAct (m : Mach) (p : Port) (dest : Nat) (op : Byte) (addr : Nat) (req : List Byte) : Mach :=
  (m.mgmtSend p m.upNs dest op addr req 0).mgmtTake p dest op addr req

/-- Port A, or port B where the train of port A does not reach the position.
DEDUCED: log entry 45. -/
def Mach.mgmtPort (m : Mach) (pos : Nat) : Port :=
  if m.pairRing then .a else if !m.portUp .a || (pos != 0xFF && !m.reaches .a pos) then .b else .a

/-- The ports that a request takes: the position's, or for all nodes each port that still reaches some. -/
def Mach.mgmtPorts (m : Mach) (dest : Nat) : List Port :=
  if dest ≠ 0xFF then [m.mgmtPort dest]
  else if m.chainPorts = [.a, .b] ∧ m.positions.any (fun n => !m.reaches .a n) then [.a, .b]
  else [m.mgmtPort 0xFF]

/-- A request on the ports that it takes, with its effect. -/
def Mach.mgmtReq (m : Mach) (dest : Nat) (op : Byte) (addr : Nat) (req : List Byte) : Mach :=
  m.each (m.mgmtPorts dest) fun m p => m.mgmtAct p dest op addr req

/-! ## ENUM (R104) -/

/-- An ENUM frame leaves in a gap, not before `at0`. -/
def Mach.enumSend (m : Mach) (p : Port) (at0 sub count base target : Nat) : Mach :=
  m.sendGap p at0 (enumFrame m.launcher m.chain.walkNo sub count base target)

/-- ECHO to a position and, directly after it, a MARK. -/
def Mach.echoSend (m : Mach) (p : Port) (at0 pos : Nat) : Mach :=
  let m := m.enumSend p at0 3 0 0 pos
  m.launchAt p (m.port p).busyNs [.ctl ctlMark]

/-! ## Closing the ring (R120) -/

/-- TIMING to a node: the delays of both lanes (R102). -/
def Mach.timingSend (m : Mach) (n fwd rev : Nat) : Mach := m.mgmtReq n opTiming 0 (timingReq fwd rev)

/-- An echo repeated while the ring closes, the `k`-th, one per cycle: the node gets TIMING when its delay changed by more than
2 ns. -/
def Mach.echo (m : Mach) (k pos rtA rtB : Nat) : Mach :=
  let m := m.each m.chainPorts fun m p => m.echoSend p (m.upNs + k * m.periodNs) pos
  let tau := ((m.chain.ids[pos]?).map (·.tau)).getD 0
  let a := m.hopDelay rtA tau
  let b := a.2.hopDelay rtB tau
  let m := b.2
  let far := fun (x y : Nat) => 8 < x - y ∨ 8 < y - x
  let old := fun p => (m.delayOf p pos).getD 0
  let moved := decide (far a.1 (old .a) ∨ (m.pairRing = false ∧ far b.1 (old .b)))
  let m := (m.setDelay .a pos a.1).when (!m.pairRing) (·.setDelay .b pos b.1)
  m.when (moved && m.mayManage) fun m => if m.posZero then m.timingSend pos a.1 b.1 else m.timingSend pos b.1 a.1

/-- RING_CLOSE (R120): after 1000 clean cycles of every end and the repeated echoes of every position. `otherEnd` is what the
partner's end of a PAIR ring has seen. -/
def Mach.ringClose (m : Mach) (rt : List (Nat × Nat × Nat)) (otherEnd : Bool) : Mach :=
  if m.ringBroken && m.cyclesOn && (m.chainPorts.all fun p => 1000 ≤ (m.port p).clean) && (!m.pairRing || otherEnd)
      && m.positions.all fun n => rt.any (·.1 == n) then
    (m.each ((List.range rt.length).zip (rt.filter fun r => r.1 < m.nodeCount)) fun m (k, r) =>
      m.echo k r.1 r.2.1 r.2.2).setRing false
  else m

def execRingClose (rt : List (Nat × Nat × Nat)) (otherEnd : Bool) (s : State) : Host.Outcome State Fault Refusal :=
  eff s (s.mach.ringClose rt otherEnd)

/-- PERIODIC_ASSIGN (R120): the position-0 end sends ASSIGN with count 0 in a gap; a restarted node takes its old position from
the count. The port that raises node_join is CHA.
DESIGN CHOICE: log entry 68. -/
def Mach.periodicAssign (m : Mach) (restarted : List Nat) : Mach :=
  if m.runState == .run && m.posZero && m.portUp .a && !m.flag F.FLY_STOP_active then
    let m := (m.enumSend .a m.upNs 1 0 0 0).each (restarted.filter (· < m.nodeCount)) fun m n =>
      let m := (m.modNode n fun _ => .restarted).on (F.CH_IRQ_STAT_node_join 0)
      { m with chain := { m.chain with rejoined := addOnce m.chain.rejoined n } }
    m.overNodes .a fun n x => x.assign n
  else m

def execPeriodicAssign (restarted : List Nat) (s : State) : Host.Outcome State Fault Refusal :=
  eff s (s.mach.periodicAssign restarted)

/-! ## Node configuration (R299, R284, R129) -/

/-- A threshold of the bank in millivolts (R299). -/
def Mach.bankMv (m : Mach) (o : Nat) : Nat := (((bfpVal (m.bankWord o)).mul (Dy.ofInt 1000)).roundAt 0).toNat

/-- config_cycle.quiet: 1 − meas_mode of the bank in force (R284). -/
def Mach.quietMode (m : Mach) : Bool := m.bankWord 0x0124 == 0

/-- The data of config (R129): OV and UV threshold of the bank in force. -/
def Mach.configReq (m : Mach) : List Byte :=
  halfBytes (BitVec.ofNat 16 (m.bankMv 0x6000)) ++ halfBytes (BitVec.ofNat 16 (m.bankMv 0x6004))

/-- The data of config_cycle (R129): [15:8] D, [7] quiet, [6:0] T. -/
def Mach.cycleReq (m : Mach) : List Byte :=
  [0, 0, BitVec.ofNat 8 m.cellDiv, BitVec.ofNat 8 (m.quietMode.toNat * 128 + m.get F.FLY_CYCLE_period % 128)]

/-- TIMING and the configuration WRITEs of a node, from `at0` on, `gap` apart. -/
def Mach.nodeSetup (m : Mach) (n fwd rev at0 gap : Nat) : Mach :=
  let p := m.mgmtPort n
  let one := fun (m : Mach) (k : Nat) (op : Byte) (addr : Nat) (req : List Byte) =>
    (m.mgmtSend p (at0 + k * gap) n op addr req 0).mgmtTake p n op addr req
  one (one (one m 0 opTiming 0 (timingReq fwd rev)) 1 opWrite 0x0100 m.configReq) 2 opWrite 0x0104 m.cycleReq

/-- Bits of a node's last valid uplink slot. -/
def Mach.slotBit (m : Mach) (n i : Nat) : Bool := ((m.chain.lastSlot.toList.getD n none).map (·.getLsbD i)).getD false

/-! ## Node firmware load (R103, R114, R128) -/

/-- The node image of the running image for an identity (R114). -/
def Mach.nodeImage (m : Mach) (x : NodeId) : Option NodeImage :=
  m.mgmt.running.bind fun i => i.nodeImgs.find? fun g => g.vendor == x.vendor && g.ntype == x.ntype

/-- The running image holds a node image for a node's identity, of at most 256 KB (R114, R128). -/
def Mach.hasNodeImage (m : Mach) (x : NodeId) : Bool := (m.nodeImage x).any fun g => decide (g.bytes.length ≤ imageMax)

/-- The 512-byte blocks of an image. -/
def imageBlocks (g : NodeImage) : Nat := (g.bytes.length + 511) / 512

/-- A block of an image, filled up with zeros. -/
def imageBlock (g : NodeImage) (k : Nat) : List Byte :=
  let b := (g.bytes.drop (512 * k)).take 512
  b ++ List.replicate (512 - b.length) 0

/-- The images that a list of nodes needs, each once. -/
def Mach.imagesFor (m : Mach) (ids : List NodeId) : List NodeImage := (ids.filterMap m.nodeImage).foldl addOnce []

/-- BOOT DATA of one block. -/
def Mach.dataSend (m : Mach) (p : Port) (at0 dest : Nat) (g : NodeImage) (k : Nat) : Mach :=
  m.sendGap p at0 (bootFrame m.launcher dest 0 g.vendor g.ntype (512 * k) (imageBlock g k))

/-- BOOT VERIFY and START of an image. -/
def Mach.verifySend (m : Mach) (p : Port) (at0 dest : Nat) (g : NodeImage) : Mach :=
  m.sendGap p at0 (bootFrame m.launcher dest 1 g.vendor g.ntype g.bytes.length g.digest)

def Mach.startSend (m : Mach) (p : Port) (at0 dest : Nat) (g : NodeImage) : Mach :=
  m.sendGap p at0 (bootFrame m.launcher dest 2 g.vendor g.ntype 0 [])

/-- The rounds of map READs that a load makes (R114): until one finds no block missing, at most 3. -/
def loadRounds : Nat → List (List (Nat × Nat)) → List (List (Nat × Nat))
  | 0, _ => []
  | _, [] => [[]]
  | k + 1, r :: rest => if r = [] then [[]] else r :: loadRounds k rest

/-- The blocks that one round resends: to one node where it alone misses the block, once to all otherwise. -/
def resends (r : List (Nat × Nat)) : List (Nat × Nat) :=
  (r.map fun e => (if (r.filter fun x => x.2 == e.2).length = 1 then e.1 else 0xFF, e.2)).foldl addOnce []

/-- One round: boot_map of each position is read, the missing blocks are resent, every `gap` nanoseconds one frame. -/
def Mach.loadRound (m : Mach) (at0 gap : Nat) (ns : List Nat) (ids : Nat → Option NodeId) (r : List (Nat × Nat)) : Mach :=
  let m := m.each ((List.range ns.length).zip ns) fun m (i, n) => m.mgmtSend (m.mgmtPort n) (at0 + i * gap) n opRead 0x0044 [] 64
  let again := resends r
  m.each ((List.range again.length).zip again) fun m (i, e) =>
    let owner := (r.find? fun x => x.2 == e.2).map (·.1)
    match (owner.bind ids).bind m.nodeImage with
    | some g => m.dataSend (m.mgmtPort e.1) (at0 + (ns.length + i) * gap) e.1 g e.2
    | none => m

/-- The frames of a load of the positions `ns` (R114): the DATA frames `dataGap` apart, then the rounds `gap` apart, then VERIFY
and 50 ms later START. With one position they are addressed to it. -/
def Mach.loadFrames (m : Mach) (at0 dataGap gap : Nat) (ns : List Nat) (ids : List NodeId) (load : LoadResult) : Mach :=
  let dest := match ns with | [n] => n | _ => 0xFF
  let idOf := fun n => ids[n]?
  let imgs := m.imagesFor (ns.filterMap idOf)
  let frames := imgs.flatMap fun g => (List.range (imageBlocks g)).map fun k => (g, k)
  let ports := m.mgmtPorts dest
  let m := m.each ports fun m p =>
    m.each ((List.range frames.length).zip frames) fun m (i, e) => m.dataSend p (at0 + i * dataGap) dest e.1 e.2
  let t := at0 + frames.length * dataGap
  let rounds := loadRounds 3 load.missing
  let m := m.each ((List.range rounds.length).zip rounds) fun m (i, r) =>
    m.loadRound (t + i * (ns.length * gap + 850000)) gap ns idOf r
  let t := t + rounds.length * (ns.length * gap + 850000)
  m.each ports fun m p =>
    (m.each imgs fun m g => m.verifySend p t dest g).each imgs fun m g => m.startSend p (t + 50000000) dest g

/-- The nanoseconds of a load of a number of positions (R114). -/
def Mach.loadNs (m : Mach) (ns : List Nat) (ids : List NodeId) (load : LoadResult) : Nat :=
  let blocks := ((m.imagesFor (ns.filterMap fun n => ids[n]?)).map imageBlocks).sum
  blocks * 4416 + (loadRounds 3 load.missing).length * (ns.length * 20000 + 850000) + 60000000

/-- What a load leaves in a node: its image stored, verified unless it failed, and started. -/
def NodeModel.loaded (x : NodeModel) (blocks : Nat) (ok : Bool) : NodeModel :=
  (((List.range blocks).foldl NodeModel.bootData x).bootVerify blocks ok).bootStart

/-- The nodes of a load. -/
def Mach.nodesLoaded (m : Mach) (ns : List Nat) (ids : List NodeId) (load : LoadResult) : Mach :=
  m.each ns fun m n =>
    match (ids[n]?).bind m.nodeImage with
    | some g => m.modNode n fun x => x.loaded (imageBlocks g) (decide (n ∉ load.failed))
    | none => m

/-- A load of every node can come about: each has an identity and a matching image. -/
def Mach.canLoad' (m : Mach) (ids : List NodeId) : Bool := ids.length == m.nodeCount && ids.all m.hasNodeImage

/-- NODE_REJOIN_RELEASE (R120, R468): reloaded with addressed BOOT frames, one per cycle, timed, configured and released with an
addressed STOP_CLEAR. -/
def Mach.rejoinRelease (m : Mach) (n : Nat) (load : LoadResult) : Mach :=
  let known := ((m.chain.ids[n]?).map m.hasNodeImage).getD false
  if m.runState == .run && m.mayManage && decide (n ∈ m.chain.rejoined) && !m.slotBit n 15 && !m.slotBit n 14
      && !m.stopDemanded && known && decide (n ∉ load.failed) then
    let dA := (m.delayOf .a n).getD 0
    let dB := (m.delayOf .b n).getD 0
    let m := (m.loadFrames m.upNs m.periodNs m.periodNs [n] m.chain.ids load).nodesLoaded [n] m.chain.ids load
    let m := (m.nodeSetup n dA dB (m.port (m.mgmtPort n)).busyNs m.periodNs).mgmtReq n opStopClear 0 []
    { m with chain := { m.chain with rejoined := drop1 m.chain.rejoined n } }
  else m

def execNodeRejoinRelease (pos : Nat) (load : LoadResult) (s : State) : Host.Outcome State Fault Refusal :=
  eff s (s.mach.rejoinRelease pos load)

/-! ## The roving walk (R111, R112) and the admission checks (R133, R134) -/

/-- Delays of one node from this module's port A and from the other end, and its forwarding latency, in 0.25 ns. -/
structure Hop where
  own    : Option Nat
  other  : Option Nat
  lambda : Nat
  deriving DecidableEq, Repr

/-- The delays of every node from its echoes. -/
def Mach.hopDelays (m : Mach) : List NodeId → List Hop × Mach
  | [] => ([], m)
  | n :: rest =>
    let one := fun (m : Mach) (rt : Option Nat) => match rt with
      | none => ((none : Option Nat), m)
      | some t => let r := m.hopDelay t n.tau; (some r.1, r.2)
    let a := one m n.roundA
    let b := one a.2 n.roundB
    let r := b.2.hopDelays rest
    (⟨a.1, b.1, n.lambda⟩ :: r.1, r.2)

/-- The delay from the position-0 end, and from the far end. -/
def Hop.fromZero (h : Hop) (zero : Bool) : Option Nat := if zero then h.own else h.other

def Hop.fromFar (h : Hop) (zero : Bool) : Option Nat := if zero then h.other else h.own

/-- R_L formed from the delays: the largest sum in a closed ring; across a break the two sides and 15 ns. -/
def formedLat (zero broken : Bool) (hs : List Hop) : Nat :=
  if broken then
    let side := fun (h : Hop) (d : Option Nat) => (d.map (· + h.lambda)).getD 0
    let a := (hs.filter fun h => (h.fromZero zero).isSome).getLast?
    let b := (hs.filter fun h => (h.fromFar zero).isSome).head?
    ((a.map fun h => side h (h.fromZero zero)).getD 0) + 60 + ((b.map fun h => side h (h.fromFar zero)).getD 0)
  else hs.foldl (fun r h => max r ((h.fromZero zero).getD 0 + h.lambda + (h.fromFar zero).getD 0)) 0

/-- The delay of a node from the position-0 end, formed where the walk reached it from the far end only. -/
def Hop.zeroDelay (h : Hop) (zero : Bool) (rl : Nat) : Nat :=
  (h.fromZero zero).getD (rl - h.lambda - (h.fromFar zero).getD 0)

def Hop.farDelay (h : Hop) (zero : Bool) (rl : Nat) : Nat :=
  (h.fromFar zero).getD (rl - h.lambda - (h.fromZero zero).getD 0)

/-- The walk's checks before the load (R111, R112). -/
def Mach.walkOk (m : Mach) (w : WalkResult) (hs : List Hop) : Bool :=
  let n := m.nodeCount
  let reached := fun (h : Hop) =>
    if w.turnedA then h.own.isSome || h.other.isSome else h.own.isSome && h.other.isSome
  let fits := fun (h : Hop) =>
    let t := h.own.getD 0 + h.lambda + h.other.getD 0
    m.pairRing || w.turnedA || (decide (t ≤ w.ringLat + 32) && decide (w.ringLat ≤ t + 32))
  w.locked && decide (0 < n) && w.nodes.length == n && hs.all reached && hs.all fits
    && (if w.turnedA then w.countA + w.countB == n else w.countA == n && w.hops == n)
    && w.nodes.all m.hasNodeImage

/-- A figure in 0.25 ns as a field in 10 ns, rounded up (R135). -/
def inTens (q : Nat) : Nat := (q + 39) / 40

/-- A1 and A2 (R133, R134) from R_L and the largest delay from the position-0 end: reported, and whether both hold. -/
def Mach.admission (m : Mach) (rl dmax : Nat) : Mach × Bool :=
  let n := m.nodeCount
  let t := m.get F.FLY_CYCLE_period
  let u := 800 + 32 * (24 + 4 * n) + rl
  let h := 22000 + 32 * (20 + 2 * n) + dmax
  let uOk := decide (u ≤ 2000 * t)
  let hOk := decide (h ≤ 4000 * t - 8000)
  let m := ((m.set F.FLY_TIME_C_uplink (inTens u)).set F.FLY_TIME_B_hold (inTens h)).on F.FLY_TIME_C_measured
  let m := (m.setB F.FLY_TIME_C_uplink_fail (!uOk)).setB F.FLY_TIME_C_hold_fail (!hOk)
  (m.when (!(uOk && hOk)) (·.on F.FLY_IRQ_STAT_timing_fail), uOk && hOk)

/-- Report the stage of a walk or load on the chain's ports: every port of the topology shows it.
DESIGN CHOICE: log entry 68. -/
def Mach.roveStage (m : Mach) (k : Nat) : Mach :=
  m.each m.chainPorts fun m p => m.set (F.CH_LINK_STAT_rove_state (portIx p)) k

/-- Report the end of a walk or load on the chain's ports.
DESIGN CHOICE: log entry 68. -/
def Mach.roveState (m : Mach) (ok : Bool) : Mach :=
  (m.roveStage (if ok then 3 else 4)).each m.chainPorts fun m p =>
    m.on (if ok then F.CH_IRQ_STAT_rove_done (portIx p) else F.CH_IRQ_STAT_rove_fail (portIx p))

/-- This end sends the READ, BOOT, TIMING and WRITE frames of a walk: in a PAIR ring the position-0 end.
DESIGN CHOICE: log entry 69. -/
def Mach.walkManages (m : Mach) : Bool := m.role == .solo || m.posZero

/-- The far end of the chain, where this module has it. -/
def Mach.farPort (m : Mach) : Option Port := if !m.pairRing then some .b else if m.posZero then none else some .a

/-- Steps 2 to 5 of the walk as what leaves one after another, each 20 µs after the one before: CLEAR, ASSIGN, ASSIGN_REV across
a break, 16 echoes from each end to each position, and the identity READs. -/
def Mach.walkItems (m : Mach) (w : WalkResult) : List (Mach → Nat → Mach) :=
  let n := m.nodeCount
  (m.chainPorts.map fun p (m : Mach) (t : Nat) => m.enumSend p t 0 0 0 0)
    ++ (if m.posZero then [fun (m : Mach) (t : Nat) => m.enumSend .a t 1 0 0 0] else [])
    ++ (match m.farPort with | some p => if w.turnedA then [fun (m : Mach) (t : Nat) => m.enumSend p t 2 0 (n - 1) 0] else [] | none => [])
    ++ (m.chainPorts.flatMap fun p => (List.range n).flatMap fun k => List.replicate 16 fun (m : Mach) (t : Nat) => m.echoSend p t k)
    ++ (if m.walkManages then (List.range n).map fun k (m : Mach) (t : Nat) => m.mgmtSend (m.mgmtPort k) t k opRead 0 [] 64 else [])

/-- The walk begins (R111): lock within 0.2 ms, then its steps 2 to 5; the nodes forget and take their positions anew. A receiver
without lock ends it. -/
def Mach.walkFrames (m : Mach) (w : WalkResult) : Mach :=
  let m := { m with chain := { m.chain with walkNo := m.chain.walkNo + 1 } }
  let m := m.each m.chainPorts fun m p => (m.setB (F.CH_LINK_STAT_rx_lock (portIx p)) w.locked).set
    (F.CH_LINK_STAT_nodes_found (portIx p)) (if p = .a then w.countA else w.countB)
  if w.locked then
    let items := m.walkItems w
    let t := m.upNs + 200000
    let m := m.each ((List.range items.length).zip items) fun m (i, f) => f m (t + 20000 * i)
    let m := m.overNodes .a fun _ x => x.forget
    m.overNodes .a fun n x => if n < w.countA ∨ m.nodeCount ≤ n + w.countB then x.assign n else x
  else m

/-- The nanoseconds of steps 1 to 5. -/
def Mach.walkNs (m : Mach) (w : WalkResult) : Nat := 200000 + if w.locked then 20000 * (m.walkItems w).length else 0

/-- Step 7 and the results of the walk: delays stored, nodes timed and configured from `at0` on. -/
def Mach.walkStore (m : Mach) (hs : List Hop) (rl at0 : Nat) : Mach :=
  let zero := m.posZero
  let m := m.each ((List.range hs.length).zip hs) fun m (n, h) =>
    let m := match h.own with | some d => m.setDelay .a n d | none => m.wr (Reg.CH_DELAY 0 n) 0
    let m := m.when (!m.pairRing) fun m =>
      match h.other with | some d => m.setDelay .b n d | none => m.wr (Reg.CH_DELAY 1 n) 0
    m.when m.walkManages (·.nodeSetup n (h.zeroDelay zero rl) (h.farDelay zero rl) (at0 + 60000 * n) 20000)
  m.each [0, 1] fun m x => m.set (F.CH_RING_LAT_ring_lat x) (min 0xFFFF rl)

/-- Step 6: the load begins, after the checks of the steps before. -/
def Mach.walkLoads (m : Mach) (w : WalkResult) (at0 : Nat) : Mach :=
  m.when m.walkManages (·.loadFrames at0 4416 20000 m.positions w.nodes w.load)

/-- The end of a walk whose checks have passed: none, or the error code of a start that fails with it (R134, R467). The walk
fails when a node's load did.
DESIGN CHOICE: log entry 18. -/
def Mach.walkEnd (m : Mach) (w : WalkResult) (hs : List Hop) (at0 : Nat) : Mach × Option (BitVec 16) :=
  let m := m.nodesLoaded m.positions w.nodes w.load
  if w.load.failed.any fun n => decide (n < m.nodeCount) then (m.roveState false, some Err.chain)
  else
    let rl := if m.pairRing || w.turnedA then formedLat m.posZero w.turnedA hs else w.ringLat
    let dmax := hs.foldl (fun d h => max d (h.zeroDelay m.posZero rl)) 0
    let m := (m.walkStore hs rl at0).roveState true
    let ids := w.nodes
    let m := { m with chain := { m.chain with ids, rejoined := [] } }
    let a := m.admission rl dmax
    (a.1, if a.2 then none else some Err.timing)

/-- The walk of a start (R467), which runs to its end in the command that starts the string.
DESIGN CHOICE: log entries 18, 25. -/
def Mach.walk (m : Mach) (w : WalkResult) : Mach × Option (BitVec 16) :=
  let m := { m.walkFrames w with chain := { (m.walkFrames w).chain with found := w, job := none } }
  let r := m.hopDelays w.nodes
  let m := r.2
  if m.walkOk w r.1 then
    let t := m.upNs + m.walkNs w
    let t2 := t + m.loadNs m.positions w.nodes w.load
    (m.walkLoads w t).walkEnd w r.1 t2
  else (m.roveState false, some Err.chain)

/-! ## Walk and load from CHx_CTRL (R111, R114, R121) -/

/-- The nanoseconds of step 7. -/
def Mach.setupNs (m : Mach) : Nat := 60000 * m.nodeCount

/-- The walk that a write of 1 to CHx_CTRL.rove starts: ROVING until its load begins. It meets what the wires show; a port whose
transmitter is off finds no lock. -/
def Mach.roveBegin (m : Mach) : Mach :=
  let lit := m.chainPorts.all fun p => m.portUp p && m.flag (F.CH_LINK_STAT_tx_on (portIx p))
  let w := { m.chain.found with locked := m.chain.found.locked && lit }
  let m := (m.roveStage 1).walkFrames w
  let t := m.upNs + m.walkNs w
  let job : ChainJob := ⟨t, t + m.loadNs m.positions w.nodes w.load + m.setupNs, some w, w.load⟩
  { m with chain := { m.chain with job := some job } }

/-- The firmware load that a write of 1 to CHx_CTRL.boot starts: LOADING to its end. -/
def Mach.bootBegin (m : Mach) : Mach :=
  let l := m.chain.loaded
  let m := (m.roveStage 2).when (m.canLoad' m.chain.ids) (·.loadFrames m.upNs 4416 20000 m.positions m.chain.ids l)
  let job : ChainJob := ⟨m.upNs, m.upNs + m.loadNs m.positions m.chain.ids l, none, l⟩
  { m with chain := { m.chain with job := some job } }

/-- No walk or load is in progress any more. -/
def Mach.jobDrop (m : Mach) : Mach := { m with chain := { m.chain with job := none } }

/-- A walk comes to its load: its checks decide whether it goes on. -/
def Mach.roveLoads (m : Mach) (j : ChainJob) (w : WalkResult) : Mach :=
  let r := m.hopDelays w.nodes
  if r.2.walkOk w r.1 then (r.2.roveStage 2).walkLoads w j.loadNs else r.2.jobDrop.roveState false

/-- A walk or load comes to its end. -/
def Mach.jobEnds (m : Mach) (j : ChainJob) : Mach :=
  let m := m.jobDrop
  match j.walk with
  | some w =>
    let r := m.hopDelays w.nodes
    (r.2.walkEnd w r.1 (j.endNs - m.setupNs)).1
  | none =>
    let ok := m.canLoad' m.chain.ids && !j.load.failed.any fun n => decide (n < m.nodeCount)
    (m.when ok (·.nodesLoaded m.positions m.chain.ids j.load)).roveState ok

/-- What time has brought to a walk or load in progress.
DESIGN CHOICE: log entry 69. -/
def Mach.chainSettle (m : Mach) : Mach :=
  match m.chain.job with
  | none => m
  | some j =>
    let m := match j.walk with
      | some w => m.when (m.get (F.CH_LINK_STAT_rove_state 0) == 1 && decide (j.loadNs ≤ m.upNs)) (·.roveLoads j w)
      | none => m
    m.when (m.chain.job.isSome && decide (j.endNs ≤ m.upNs)) (·.jobEnds j)

/-- ROVE (R121): only in OFF; `w` is what the wires show. -/
def execRove (_master : Nat) (p : Port) (w : WalkResult) (s : State) : Host.Outcome State Fault Refusal :=
  eff s (s.mach.access (Reg.CH_CTRL (portIx p)) fun m =>
    if m.runState = .off then ({ m with chain := { m.chain with found := w } }).roveBegin else m.refuse Err.refusedState)

/-- BOOT (R114, R121): a firmware load of every node, only in OFF; `load` is what the nodes answer. -/
def execBoot (_master : Nat) (p : Port) (load : LoadResult) (s : State) : Host.Outcome State Fault Refusal :=
  eff s (s.mach.access (Reg.CH_CTRL (portIx p)) fun m =>
    if m.runState = .off then ({ m with chain := { m.chain with loaded := load } }).bootBegin else m.refuse Err.refusedState)

end Sys2Proof.Machine
end

