-- ==== Sys2Proof/Machine/Power.lean ====
section
/-!
DEFINITION. Supply states (R470, R471), power domains (R21 to R24), island clocks (R20), rail faults (R463, R472) and
the presence of Distaff (R460).
-/

namespace Sys2Proof.Machine

/-! ## Domains -/

/-- Cycles stop in SAFE_HOLD and FAULT_LATCHED once a domain they need is missing (R508). -/
def Mach.cyclesCheck (m : Mach) : Mach :=
  m.when (m.runState.rest && m.cyclesOn && !m.cycleDomainsOn) (·.cyclesStop)

/-- A domain goes off (`st` 0) or is held off by its rail (`st` 3), with what goes with it: sessions with PD_HOST, the
service session with PD_SVC (R394), the pair with PD_XLINK (R365), the claim with PD_CHAIN or the array (R353), cycles
with the domains they need (R508). -/
def Mach.domainDrop (m : Mach) (d : Domain) (st : Nat) : Mach :=
  let m := match d with
    | .host => m.closeSessions
    | .svc => m.closeSession 13
    | .xlink => (m.releaseClaim .reset).dissolvePair
    | .chain => (m.releaseClaim .chain).when m.cyclesOn (·.cyclesStop)
    | .spin0 => m.releaseClaim .reset
    | .mgmt => (m.when (!m.power.distaffAbsent) (·.mark .distaff)).setAbsent true
    | _ => m
  ((m.domainReset d).set (pdField d) st).cyclesCheck

/-- A write may switch a domain off (R21). -/
def Mach.mayDrop (m : Mach) (master : Nat) : Domain → Bool
  | .mgmt => false
  | .spin0 | .spin1 | .frame => m.runState == .off || m.runState == .faultLatched
  | .chain | .can | .sense => m.runState == .off
  | .host => master == 13
  | .xlink => m.role == .solo
  | .svc => master != 13

/-- The domains whose bit of pd_on a write of `on` clears (R22). A bit that is 0 already is not cleared. -/
def Mach.dropped (m : Mach) (on : BitVec 10) : List Domain :=
  allDomains.filter fun d => !on.getLsbD (domainIx d) && m.bit Reg.PWR_PD_CTRL (domainIx d)

/-- A domain that a write requests off goes off; one that a rail fault holds off stays at FAULT (R37). -/
def Mach.domainRequestOff (m : Mach) (d : Domain) : Mach := if m.domFault d then m else m.domainDrop d 0

/-- A write to PWR_PD_CTRL (R22): refused whole, or taken; domains requested on begin to zeroise (R24). -/
def Mach.pdWrite (m : Mach) (master : Nat) (on : BitVec 10) : Mach :=
  if (m.dropped on).all (m.mayDrop master) then
    let m := (m.set F.PWR_PD_CTRL_pd_on on.toNat).each (m.dropped on) Mach.domainRequestOff
    (m.each (allDomains.filter fun d => on.getLsbD (domainIx d)) Mach.domainStart).storeSettle
  else m.refuse Err.refusedState

/-- PWR_PD_CTRL_WRITE (R22). -/
def execPwrPdCtrlWrite (master : Nat) (on : BitVec 10) (s : State) : Host.Outcome State Fault Refusal :=
  eff s (s.mach.access Reg.PWR_PD_CTRL (·.pdWrite master on))

/-- A domain has zeroised and comes on (R24): Distaff reloads the program into a switched-on array (R23), the address of
PD_HOST takes force (R390), a present safety demand acts on the Flyer. -/
def Mach.zeroiseDone (m : Mach) (d : Domain) : Mach :=
  if m.get (pdField d) = 1 then
    let m := m.set (pdField d) 2
    match d with
    | .spin0 => m.loadBootSlot
    | .host => m.ipInForce
    | .can => (m.canStart 0).canStart 1
    | .chain => m.when (!m.safety.conds.isEmpty) (·.demandStop .safety)
    | _ => m
  else m

/-- DOMAIN_ZEROISE_DONE (R24). -/
def execDomainZeroiseDone (d : Domain) (s : State) : Host.Outcome State Fault Refusal := eff s (s.mach.zeroiseDone d)

/-! ## Start failures (R467) -/

/-- A start ends in OFF with an error code; in a pair it fails in both modules, which the ACTIVE tells by the mirrored
transition. -/
def Mach.startFail (m : Mach) (err : BitVec 16) : Mach :=
  let m := (m.set F.PWR_RUN_STAT_fail err.toNat).on F.PWR_IRQ_STAT_start_fail
  let m := m.when (m.pair.formed && m.role != .active) (·.sendMirror (.runState 0 (BitVec.ofNat 8 Cause.startFail)))
  let m := m.toRun .off Cause.startFail
  { m with power := { m.power with joining := false, startLeft := 0 } }

/-! ## Supply (R470, R471) -/

/-- The thresholds of R43 as the widest that the table permits, in 10 mV: what lies on the wrong side of one has not crossed
it. -/
def warnFallMax : Nat := 1920
def warnRiseMin : Nat := 1930
def resetFallMax : Nat := 1670

/-- Enter a supply state: GLB_STATUS and PWR_SUP_STAT report it; outside NORMAL NOR writes are held, in HOLDUP the
charger stops (R470).
DESIGN CHOICE: log entry 15. -/
def Mach.setSupply (m : Mach) (st : Supply) (auxV : BitVec 16) : Mach :=
  let m := { m.storeSettle with supply := st }
  let m := ((m.set F.PWR_SUP_STAT_supply_state st.code).set F.PWR_SUP_STAT_aux_v auxV.toNat).setB
    F.PWR_SUP_STAT_nor_hold (st != .normal)
  m.chargerSet.mark .supply

/-- SUPPLY_WARNING_FALL (R43, R470): a voltage above the threshold's highest value has not fallen through it. -/
def execSupplyWarningFall (auxV : BitVec 16) (s : State) : Host.Outcome State Fault Refusal :=
  let m := s.mach
  eff s (if m.supply = .normal ∧ auxV.toNat < warnFallMax then (m.setSupply .brownoutWarning auxV).count Reg.PWR_CNT_BROWNOUT else m)

/-- Entry into HOLDUP (R43, R463, R471), with a voltage below the reset threshold: a string that is started or runs goes to STOPPING; PWR_CYCLE_REQ is released (R45). -/
def Mach.enterHoldup (m : Mach) (auxV : BitVec 16) : Mach :=
  if m.supply = .holdup ∨ resetFallMax ≤ auxV.toNat then m
  else
    let m := ((m.setSupply .holdup auxV).count Reg.PWR_CNT_HOLDUP).on F.PWR_IRQ_STAT_holdup
    let m := (m.send (.powerCycle false)).log 0x03 2
    let m := { m with power := { m.power with pwrCycleReq := false, stopNs := none } }
    if m.runState = .stopping then m.recordRun .stopping Cause.holdup
    else m.when m.runState.busy fun m =>
      let m := m.toRun .stopping Cause.holdup
      { m with power := { m.power with stopNs := none, startLeft := 0, joining := false } }

/-- SUPPLY_RESET_FALL (R471). -/
def execSupplyResetFall (auxV : BitVec 16) (s : State) : Host.Outcome State Fault Refusal :=
  eff s (s.mach.enterHoldup auxV)

/-- A domain that HOLDUP switched off comes on again, unless its rail is at fault (R37, R471). -/
def Mach.domainAgainOn (m : Mach) (d : Domain) : Mach := if m.domFault d then m else m.domainStart d

/-- The episode of a brownout that ends: time passes until it has lasted the milliseconds given; its duration saturates, its lowest
voltage is no higher than the one that it began with (R470, R480). -/
def Mach.brownoutEnd (m : Mach) (auxV minV durMs : BitVec 16) : Mach :=
  let t0 := (m.markOf .supply).getD m.upNs
  let low := min minV.toNat (m.get F.PWR_SUP_STAT_aux_v)
  let m := m.await .supply (durMs.toNat * 1000000)
  let dur := min 65535 ((m.upNs - t0) / 1000000)
  let m := (m.setSupply .normal auxV).log 0x03 3 0 (BitVec.ofNat 32 dur) (BitVec.ofNat 32 low)
  ((m.set F.PWR_SUP_BO_bo_min low).set F.PWR_SUP_BO_bo_dur dur).on F.PWR_IRQ_STAT_brownout_end

/-- The supply is NORMAL again (R470, R471): a brownout ends in its event; after HOLDUP the shed domains come on, and the store
has given what it gave. A voltage below the lowest rising threshold (R43) has not risen through it. -/
def Mach.supplyRise (m : Mach) (auxV minV durMs : BitVec 16) : Mach :=
  if auxV.toNat < warnRiseMin then m
  else match m.supply with
  | .normal => m
  | .brownoutWarning => m.brownoutEnd auxV minV durMs
  | .holdup =>
    let m := (m.storeDrain (if m.power.shed = [] then 40 else 100)).setSupply .normal auxV
    let m := m.each m.power.shed Mach.domainAgainOn
    { m with power := { m.power with shed := [] } }

/-- SUPPLY_WARNING_RISE (R470). -/
def execSupplyWarningRise (auxV minV durMs : BitVec 16) (s : State) : Host.Outcome State Fault Refusal :=
  eff s (s.mach.supplyRise auxV minV durMs)

/-- BROWNOUT_TIMEOUT (R463, R470): the warning has lasted 2 s. -/
def Mach.brownoutTimeout (m : Mach) : Mach :=
  if m.supply ≠ .brownoutWarning then m
  else
    let m := m.await .supply 2000000000
    match m.runState with
    | .starting => m.startFail Err.supply
    | .precharge | .run => m.toRun .stopping Cause.brownout
    | _ => m

def execBrownoutTimeout (s : State) : Host.Outcome State Fault Refusal := eff s s.mach.brownoutTimeout

/-- Distaff writes every FLY_BLOCK_k to all ones and makes the open request (R464). -/
def Mach.blockAndOpen (m : Mach) : Mach :=
  let m := (m.setAllBlock 0xFFFFFFFF).openRequest
  { m with power := { m.power with blockHold := true } }

/-- The open request of HOLDUP (R471): SAFE_HOLD at once; FLY_BLOCK_k stays all ones until BRK_AUX reports open. -/
def Mach.holdupOpen (m : Mach) : Mach :=
  let m := m.blockAndOpen.toRun .safeHold Cause.stopped
  { m with power := { m.power with blockHold := true } }

/-- HOLDUP_OPEN_TIMEOUT (R471): 5 ms after entry into HOLDUP. -/
def execHoldupOpenTimeout (s : State) : Host.Outcome State Fault Refusal :=
  let m := s.mach
  eff s (if m.supply = .holdup ∧ m.runState = .stopping ∧ m.power.distaffAbsent = false then
      (m.await .supply 5000000).holdupOpen
    else m)

/-- HOLDUP_SHED (R471): 12 ms after entry into HOLDUP. -/
def execHoldupShed (s : State) : Host.Outcome State Fault Refusal :=
  let m := s.mach
  eff s (if m.supply = .holdup ∧ m.power.shed = [] then
      let m := m.await .supply 12000000
      let ds := [Domain.host, .svc, .xlink].filter fun d => m.domOn d || m.get (pdField d) == 1
      let m := m.each ds fun m d => m.domainDrop d 0
      { m.storeDrain 40 with power := { (m.storeDrain 40).power with shed := ds } }
    else m)

/-- HOLDUP_STORE_EMPTY (R471): AON loses power; the next supply return is a power-up. -/
def execHoldupStoreEmpty (s : State) : Host.Outcome State Fault Refusal :=
  let m := s.mach
  eff s (if m.supply = .holdup then m.aonReset else m)

/-! ## Island clocks (R20) -/

/-- The cycle islands of R20. -/
def cycleIsland : Island → Bool
  | .spin | .frame | .cha | .chb | .sense | .time => true
  | _ => false

/-- A fault on a cycle island, by run state. -/
def Mach.cycleClockFault (m : Mach) (i : Island) : Mach :=
  match m.runState with
  | .precharge | .run | .stopping => (m.safFault F.SAF_FAULT_clock).safetyCause .clock
  | .starting => (m.demandStop .clock).startFail Err.domainOff
  | .safeHold | .faultLatched =>
    m.when m.cyclesOn fun m => ((m.demandStop .clock).cyclesStop).log 0x03 (16 + islandIx i)
  | .off => m

/-- CLOCK_FAULT (R20). -/
def Mach.clockFault (m : Mach) (i : Island) : Mach :=
  let m := (m.setBit Reg.PWR_CI_STAT (islandIx i) false).setBit Reg.PWR_CI_FAULT (islandIx i) true
  match i with
  | .mgmt => { m.distaffDown ResetType.watchdog with power := { (m.distaffDown ResetType.watchdog).power with
      restartWait := true } }
  | .safe => m.linkLoss .b
  | _ => if cycleIsland i then m.cycleClockFault i else m

def execClockFault (i : Island) (s : State) : Host.Outcome State Fault Refusal := eff s (s.mach.clockFault i)

/-- Every cycle island's clock is good. -/
def Mach.cycleClocksOk (m : Mach) : Bool :=
  [Island.spin, .frame, .cha, .chb, .sense, .time].all fun i => m.clkOk i

/-- CLOCK_GOOD_AGAIN (R20, R460): clk_ok returns; src_clock is withdrawn with the last cycle island's fault; for CI_MGMT
the restart of Distaff begins. -/
def Mach.clockGood (m : Mach) (i : Island) : Mach :=
  let m := m.setBit Reg.PWR_CI_STAT (islandIx i) true
  let m := m.when m.cycleClocksOk (·.withdrawStop .clock)
  let m := m.mark (.clock i)
  match i with
  | .mgmt => { m with power := { m.power with restartWait := false } }
  | _ => m

def execClockGoodAgain (i : Island) (s : State) : Host.Outcome State Fault Refusal := eff s (s.mach.clockGood i)

/-! ## Rail faults (R37, R463, R472) -/

/-- RAIL_FAULT: the domain is held off; an energised string is made safe by steps 1 and 2 of the reset guard. -/
def Mach.railFault (m : Mach) (d : Domain) : Mach :=
  let energised := m.energised
  let m := m.domainDrop d 3
  let m := (m.set F.PWR_RESET_CAUSE_type ResetType.domain).log 0x0A ResetType.domain
  let guarded := d == .spin0 || d == .spin1 || d == .frame || d == .chain || d == .sense
  (m.when (energised && guarded) fun m =>
    let m := m.guardSteps Cause.domainFault
    { m with power := { m.power with guard := some .hold } }).cyclesCheck

def execRailFault (d : Domain) (s : State) : Host.Outcome State Fault Refusal := eff s (s.mach.railFault d)

/-! ## Distaff (R460) -/

/-- DISTAFF_WATCHDOG_EXPIRY (R460). -/
def execDistaffWatchdogExpiry (s : State) : Host.Outcome State Fault Refusal :=
  let m := s.mach
  eff s (if m.power.distaffAbsent then m else m.distaffDown ResetType.watchdog)

/-- DISTAFF_RESTART_DONE (R460): after a clock fault only once CI_MGMT is good; PD_MGMT is on. -/
def execDistaffRestartDone (s : State) : Host.Outcome State Fault Refusal :=
  let m := s.mach
  eff s (if m.power.distaffAbsent && !m.power.restartWait && m.domOn .mgmt then m.distaffUp else m)

/-! ## Counters -/

/-- Every PWR_CNT register. -/
def pwrCounters : List Nat :=
  (List.range 9).map Reg.PWR_CNT_REINIT
    ++ [Reg.PWR_CNT_RESET, Reg.PWR_CNT_DISTAFF, Reg.PWR_CNT_BROWNOUT, Reg.PWR_CNT_HOLDUP]

/-- PWR_CLR_CNT (R480). -/
def execPwrClrCnt (_master : Nat) (s : State) : Host.Outcome State Fault Refusal :=
  eff s (s.mach.access Reg.PWR_CTRL (·.clearRegs pwrCounters))

end Sys2Proof.Machine
end

