-- ==== Sys2Proof/Machine/Start.lean ====
section
/-!
DEFINITION. The insulation measurement (R66, R67), precharge and the close pulse (R78, R152, R153), the insulation step
of a start (R467), and BRK_AUX (R332, R464, R465).
-/

namespace Sys2Proof.Machine

/-! ## Start steps (R467) -/

def Step.checks : Nat := 1
def Step.domains : Nat := 2
def Step.param : Nat := 3
def Step.rove : Nat := 4
def Step.cycles : Nat := 5
def Step.settle : Nat := 6
def Step.stopClear : Nat := 7
def Step.insulation : Nat := 8
def Step.precharge : Nat := 9
def Step.join : Nat := 11

/-- The start step in progress. -/
def Mach.startStep (m : Mach) : Nat := m.get F.PWR_RUN_STAT_start_step

/-- The start is at a step. -/
def Mach.inStep (m : Mach) (n : Nat) : Bool := m.runState == .starting && m.startStep == n

/-- Enter a start step. -/
def Mach.setStep (m : Mach) (n : Nat) : Mach := m.set F.PWR_RUN_STAT_start_step n

/-- The cycles that a time takes, rounded up. -/
def Mach.cyclesOf (m : Mach) (ns : Nat) : Nat := (ns + m.periodNs - 1) / m.periodNs

/-! ## Insulation (R66, R67) -/

/-- The module may inject in the present breaker state (R66). -/
def Mach.isoAllowed (m : Mach) : Bool := !m.brkClosed || m.flag F.SNS_CTRL_iso_monitor

/-- A measurement begins, in the present state of the breaker. -/
def Mach.isoBegin (m : Mach) : Mach :=
  { m.on F.SNS_STAT_iso_busy with sense := { m.sense with isoNowBrk := m.brkClosed } }

/-- ISO_START (R66, R195): refused where the module may not inject; one measurement at a time. -/
def Mach.isoAsk (m : Mach) : Mach :=
  if !m.isoAllowed then m.refuse Err.refusedState else if m.flag F.SNS_STAT_iso_busy then m else m.isoBegin

def execIsoStart (_master : Nat) (s : State) : Host.Outcome State Fault Refusal :=
  eff s (s.mach.access Reg.SNS_CTRL Mach.isoAsk)

/-- Seconds since the last result, saturating (R195). -/
def Mach.isoAge (m : Mach) : Nat := min 0x7FFF ((m.upNs - m.sense.isoNs) / 1000000000)

/-- A valid result of at most 600 s, taken with the breaker open, at or above the limit (R467). -/
def Mach.isoFresh (m : Mach) : Bool :=
  m.flag F.SNS_ISO_valid && !m.sense.isoBrk && decide (m.upNs ≤ m.sense.isoNs + 600 * 1000000000)
    && decide (m.get F.SNS_ISO_LIM_warn ≤ m.get F.SNS_ISO_r_iso)

/-! ## Precharge (R152, R153) -/

/-- PRECHARGE begins with RAMP. -/
def Mach.enterPrecharge (m : Mach) : Mach :=
  let m := m.toRun .precharge Cause.hostStart
  let m := (m.set F.FLY_PRE_STAT_pre_state 1).set F.FLY_PRE_STAT_fail_cause 0
  ({ m with fly := { m.fly with pre := .init }
            power := { m.power with startLeft := 0, afterClose := none } }).mark .precharge

/-- The INSULATION step (R467, R477): BRK_TRIP energised; the measurement by the claim holder, or 100 ms of cycles where
a fresh result stands. Where R66 does not let the module inject there is no measurement, and the start fails as with an
abandoned one (R67). -/
def Mach.insulationStep (m : Mach) : Mach :=
  let m := (m.setStep Step.insulation).energiseTrip
  if m.role = .standby then m
  else if m.isoFresh then { m with power := { m.power with startLeft := m.cyclesOf 100000000 } }
  else if m.isoAllowed then m.isoBegin
  else m.startFail Err.protection

/-- A measurement completes (R66, R195, R467): the result is kept with the breaker's state, and decides the step. A result
above 50 MΩ reads 0xFFFF; one below 10 kΩ, the low end of the range, is stored as it was measured.
DESIGN CHOICE: log entry 68. -/
def Mach.isoDone (m : Mach) (kohm : Nat) : Mach :=
  if m.flag F.SNS_STAT_iso_busy then
    let r := if 50000 < kohm then 0xFFFF else kohm
    let m := ((m.off F.SNS_STAT_iso_busy).on F.SNS_ISO_valid).set F.SNS_ISO_r_iso r
    let m := (m.on F.SNS_IRQ_STAT_iso_done).when (decide (r < m.get F.SNS_ISO_LIM_warn)) (·.on F.SNS_IRQ_STAT_iso_low)
    let m := { m with sense := { m.sense with isoNs := m.upNs, isoBrk := m.sense.isoNowBrk } }
    if m.inStep Step.insulation then
      if m.get F.SNS_ISO_LIM_warn ≤ r then m.enterPrecharge else m.startFail Err.protection
    else m
  else m

def execIsoMeasDone (kohm : Nat) (s : State) : Host.Outcome State Fault Refusal := eff s (s.mach.isoDone kohm)

/-- BRK_AUX changes during a measurement (R67): it restarts where the module may still inject, else it is abandoned,
and with it an INSULATION step. -/
def Mach.isoAbandon (m : Mach) : Mach :=
  if m.flag F.SNS_STAT_iso_busy then
    if m.isoAllowed then m.isoBegin
    else (m.off F.SNS_STAT_iso_busy).when (m.inStep Step.insulation) (·.startFail Err.protection)
  else m

/-- Precharge fails (R153, R463): the run state becomes SAFE_HOLD, through STOPPING where BRK_AUX reports closed. -/
def Mach.preFail (m : Mach) (code : Nat) : Mach :=
  let m := m.prechargeFailed code
  if m.runState = .precharge then m.toRun (if m.brkClosed then .stopping else .safeHold) Cause.prechargeFail else m

/-- A close pulse may start (R78, R80, R326, R350). -/
def Mach.closeAllowed (m : Mach) : Bool :=
  let long := fun (t : Option Nat) (ns : Nat) => match t with | none => false | some t => decide (t + ns ≤ m.upNs)
  m.flag F.SAF_STAT_close_permit && m.flag F.SAF_STAT_coil_ok && m.tripOn && long m.safety.tripOnNs 100000000
    && !m.safety.discOn && m.supply == .normal && m.mayManage && (m.safety.closeNs.isNone || long m.safety.closeNs 10000000000)

/-- CLOSING (R152): BRK_CLOSE is energised; a refused request is a failure to close. -/
def Mach.closing (m : Mach) : Mach :=
  let m := (m.on F.FLY_IRQ_STAT_pre_match).set F.FLY_PRE_STAT_pre_state 3
  if m.closeAllowed then { m with safety := { m.safety with closeOn := true, closeNs := some m.upNs } }
  else m.preFail 4

/-- A node's last valid slot. -/
def Mach.lastSlot (m : Mach) (n : Nat) : Option Word := m.chain.lastSlot.toList.getD n none

/-- v_term of a slot, in millivolts (R99). -/
def slotMv (w : Word) : Nat := fieldOf w 16 16

/-- The last valid v_term of a node in millivolts, or 0. -/
def Mach.vTerm (m : Mach) (n : Nat) : Nat := ((m.lastSlot n).map slotMv).getD 0

/-- The allowance for nodes that report BLOCK: v_term plus 1 V each, in millivolts (R152, R522). -/
def Mach.blockAllowance (m : Mach) : Nat :=
  (m.positions.map fun n => match m.lastSlot n with
    | some w => if fieldOf w 10 2 = 2 then slotMv w + 1000 else 0
    | none => 0).sum

/-- 128 times the sum of the inserted stack voltages and the trim share, in millivolts (R152). -/
def Mach.insertedSum (m : Mach) : Nat :=
  (m.positions.map fun n =>
    let c := (m.chain.nodes.toList.getD n .init).applied
    m.vTerm n * (match c.cmd with | .insert => 128 | .trim => c.duty.toNat | _ => 0)).sum

/-- The bus lies above the available stack voltage less two mean node voltages (R153). -/
def Mach.busAbove (m : Mach) (busMv : Int) : Bool :=
  let vs := m.positions.filterMap fun n =>
    if (m.fly.lanes.toList.getD n .init).forced then none else (m.lastSlot n).map slotMv
  let total : Int := (vs.sum : Nat)
  if vs.isEmpty then decide (0 < busMv) else decide (total * vs.length - 2 * total < busMv * vs.length)

/-- The string voltage does not fit the inserted stacks within 1 % + 10 V and the allowance (R152 step 2). -/
def Mach.sumBad (m : Mach) (strMv : Int) : Bool :=
  let e : Int := (m.insertedSum : Nat)
  decide (e + 12800 * (10000 + (m.blockAllowance : Nat)) < 100 * ((128 * strMv - e).natAbs : Nat))

/-- Set the precharge counters. -/
def Mach.setPre (m : Mach) (p : PrechargeState) : Mach := { m with fly := { m.fly with pre := p } }

/-- No node is commanded into the string.
DEDUCED: log entry 29. -/
def Mach.noneInserted (m : Mach) : Bool := m.positions.all fun n => !(m.fly.lanes.toList.getD n .init).last.live

/-- The checks of step 2 while the module waits for the breaker (R152, R153). -/
def Mach.closingCheck (m : Mach) (str bus : Option Int) : Mach :=
  match str with
  | none => m
  | some s =>
    let fails := if m.sumBad s then m.fly.pre.sumFails + 1 else 0
    if bus.any (fun b => m.busAbove b && decide (5000 ≤ b)) then m.preFail 2
    else if 3 ≤ fails then m.preFail 3
    else m.setPre { m.fly.pre with sumFails := fails }

/-- Steps 2 and 3 of a cycle with both means (R152, R153). With the bus below 5 V the match holds once no node is inserted. -/
def Mach.preMatch (m : Mach) (str bus : Int) : Mach :=
  let p := m.fly.pre
  let fails := if m.sumBad str then p.sumFails + 1 else 0
  if m.busAbove bus && decide (5000 ≤ bus) then m.preFail 2
  else if 3 ≤ fails then m.preFail 3
  else if bus < 5000 ∧ m.noneInserted then m.closing
  else
    let agree := decide ((str - bus).natAbs ≤ 1000 * m.get F.FLY_PRECHG_match_tol)
    let run := if agree then p.matchRun + 1 else 0
    let m := (m.setPre { p with sumFails := fails, matchRun := run }).set F.FLY_PRE_STAT_pre_state (if agree then 2 else 1)
    if m.get F.FLY_PRECHG_match_cycles ≤ run then m.closing else m

/-- The voltages of the cycle that ends: string and bus in millivolts, none where missing. -/
def Mach.preMeans (m : Mach) : Option Int × Option Int :=
  match m.sense.data with
  | none => (none, none)
  | some d => (if d.vStrLate then none else some (max 0 (min 180000 d.vStrMean) * 10), if d.vBusLate then none else some (max 0 (min 180000 d.vBusMean) * 10))

/-- FLY_PRE_STAT.diff in 0.1 V; its rounding is open. -/
def Mach.preDiff (m : Mach) (str bus : Int) : Mach :=
  let r := m.openDiv (str - bus) 100
  r.2.set F.FLY_PRE_STAT_diff (BitVec.ofInt 16 (max (-32768) (min 32767 r.1))).toNat

/-- The check of a precharge cycle (R152): residual, sum, match; in CLOSING the checks of step 2. The STANDBY computes in shadow and decides nothing. -/
def Mach.prechargeCheck (m : Mach) : Mach :=
  let v := m.preMeans
  let m := match v.1, v.2 with | some s, some b => m.preDiff s b | _, _ => m
  let st := m.get F.FLY_PRE_STAT_pre_state
  if m.runState = .precharge ∧ st = 3 ∧ m.role ≠ .standby then m.closingCheck v.1 v.2
  else if m.runState ≠ .precharge ∨ (st ≠ 1 ∧ st ≠ 2) then m
  else
    let p := m.fly.pre
    let low := match v.1 with | some s => decide (s < 5000 + (m.blockAllowance : Nat)) | none => false
    let ok := p.residualOk || low
    let p := if p.residualOk then p else { p with rampCycles := p.rampCycles + 1, residualOk := low }
    let m := m.setPre p
    if m.role = .standby then m
    else if !ok then if 10 ≤ p.rampCycles then m.preFail 6 else m
    else match v.1, v.2 with
      | some s, some b => m.preMatch s b
      | some s, none =>
        let fails := if m.sumBad s then p.sumFails + 1 else 0
        if 3 ≤ fails then m.preFail 3
        else (m.setPre { p with sumFails := fails, matchRun := 0 }).set F.FLY_PRE_STAT_pre_state 1
      | none, _ => (m.setPre { p with matchRun := 0 }).set F.FLY_PRE_STAT_pre_state 1

/-- PRECHARGE_TIMEOUT (R153): no match yet. -/
def execPrechargeTimeout (s : State) : Host.Outcome State Fault Refusal :=
  let m := s.mach
  let st := m.get F.FLY_PRE_STAT_pre_state
  eff s (if m.runState = .precharge ∧ (st = 1 ∨ st = 2) then
    (m.await .precharge (m.get F.FLY_PRECHG_timeout * 10000000)).preFail 1 else m)

/-- A close pulse ends. -/
def Mach.closeEnd (m : Mach) : Mach := { m with safety := { m.safety with closeOn := false } }

/-- The RUN_STOP that waited for the close pulse is made (R463): through STOPPING where the breaker reports closed. -/
def Mach.stopAfterClose (m : Mach) (c : Nat) : Mach :=
  let m := { m with power := { m.power with afterClose := none } }
  m.toRun (if m.brkClosed then .stopping else .safeHold) c

/-- CLOSE_PULSE_TIMEOUT (R78, R153, R463): 100 ms are over; a RUN_STOP that waited for the pulse is made now. -/
def Mach.closeTimeout (m : Mach) : Mach :=
  if m.safety.closeOn then
    let m := (m.passUntil (m.safety.closeNs.getD m.upNs) 100000000).closeEnd
    match m.power.afterClose with
    | some c => m.stopAfterClose c
    | none => m.when (!m.brkClosed) (·.preFail 4)
  else m

def execClosePulseTimeout (s : State) : Host.Outcome State Fault Refusal := eff s s.mach.closeTimeout

/-! ## BRK_AUX (R332) -/

/-- The breaker reports closed: the pulse ends (R78), and precharge is done (R152) unless a stop waits for the pulse; in
a rest state BLOCK is forced on every node (R465). -/
def Mach.brkNowClosed (m : Mach) : Mach :=
  let m := (m.count Reg.MGT_PCNT_CLOSE).closeEnd
  if m.runState = .precharge then
    match m.power.afterClose with
    | some c => m.stopAfterClose c
    | none =>
      if m.get F.FLY_PRE_STAT_pre_state = 3 then
        (m.set F.FLY_PRE_STAT_pre_state 4).toRun .run Cause.prechargeDone
      else m
  else if m.runState.rest && !m.power.distaffAbsent then
    { (m.setAllBlock 0xFFFFFFFF).log 0x03 1 with power := { m.power with blockHold := true } }
  else m

/-- The breaker reports open: STOPPING is complete (R464); what was forced while it was closed is cleared by Distaff (R465, R471);
the open request has been met. -/
def Mach.brkNowOpen (m : Mach) : Mach :=
  let m := { m with power := { m.power with openReq := false } }
  let done := m.runState == .stopping
  let forced := done || m.power.blockHold
  let m := m.when (forced && !m.power.distaffAbsent) (·.setAllBlock 0)
  let m := { m with power := { m.power with blockHold := forced && m.power.distaffAbsent } }
  m.when done (·.toRun .safeHold Cause.stopped)

/-- BRK_AUX_CHANGE: the channels' readings; the breaker is closed when both read on. -/
def Mach.brkAux (m : Mach) (a b : Bool) : Mach :=
  let was := m.brkClosed
  let m := (m.setB F.SAF_INPUT_brk_aux_a a).setB F.SAF_INPUT_brk_aux_b b
  let now := m.brkClosed
  let open2 := !a && !b
  let m := m.when (a != b) (·.mark (.differ .brkAux))
  let m := (m.setB F.SAF_STAT_brk_closed now).when (now != was) fun m => (m.captureSource 6).isoAbandon
  let m := m.when (now && !was) (·.brkNowClosed)
  m.when open2 (·.brkNowOpen)

def execBrkAuxChange (a b : Bool) (s : State) : Host.Outcome State Fault Refusal := eff s (s.mach.brkAux a b)

/-- BRK_AUX_DISCREPANCY (R332): the channels have differed for 50 ms; the fault loop is not opened. -/
def execBrkAuxDiscrepancy (s : State) : Host.Outcome State Fault Refusal :=
  let m := s.mach
  eff s (if m.flag F.SAF_INPUT_brk_aux_a = m.flag F.SAF_INPUT_brk_aux_b then m
    else (((m.await (.differ .brkAux) 50000000).safFault F.SAF_FAULT_disc_brk_aux).recordCause .discrepancy false).causeRun .discrepancy)

end Sys2Proof.Machine
end

