-- ==== Sys2Proof/Machine/Frame.lean ====
section
/-!
DEFINITION. The frame buffer (R205, R206): the slot of the present cycle, its sense part and node part, the digest area
(R224, R225), and the freeze of the node part (R108, R136).
-/

namespace Sys2Proof.Machine

/-- Write words into the frame of the present cycle. -/
def Mach.putFrame (m : Mach) (o : Nat) (ws : List Word) : Mach := m.storeWhole (frameAddr m.cycle + o) ws

/-- A range of memory is zero from now on, and none of its words is poisoned.
DEDUCED: log entry 11. -/
def Mach.clearMem (m : Mach) (a n : Nat) : Mach :=
  { m with mem := keepBelow m.mem a ++ dropBelow m.mem (a + n)
           memi := { m.memi with poison := m.memi.poison.filter fun p => p < a || a + n ≤ p
                                 upsets := m.memi.upsets.filter fun u => u.addr < a || a + n ≤ u.addr } }

/-- The four words of a 16-byte mask: position 127 in bit 7 of the first byte (R205). -/
def maskWords (f : Nat → Bool) : List Word :=
  [3, 2, 1, 0].map fun k => BitVec.ofNat 32 (((List.range 32).map fun j => (f (32 * k + j)).toNat * 2 ^ j).sum)

/-! ## The sense part -/

/-- The missing pattern of a current or voltage (R206). -/
def missingWord : Word := 0x00000080

/-- The requests word at the sample instant (R205, R462). -/
def Mach.requestWord (m : Mach) : Word :=
  BitVec.ofNat 32 (m.supply.code * 2 ^ 27 + m.runState.code * 2 ^ 24 + m.get F.SNS_MODE_ref_req * 8
    + m.get F.SNS_MODE_law_req)

/-- Microseconds since the set-point in force took effect (R166); in a pair, the cycles since, times T (R359). -/
def Mach.setpointAge (m : Mach) : Nat :=
  if m.role = .solo then (m.nowNs - m.sense.forceNs) / 1000
  else (m.cycle - m.rd Reg.SNS_SP_CYC).toNat * m.get F.FLY_CYCLE_period

/-- The set-point's age exceeds its timeout (R166). -/
def Mach.setpointOld (m : Mach) : Bool :=
  let t := m.get F.SNS_SP_CTRL_timeout
  t != 0 && decide (t * 1000 < m.setpointAge)

/-- The frame marks the set-point expired: the age that it carries exceeds the timeout (R166). -/
def Mach.frameOld (m : Mach) : Bool :=
  let t := m.get F.SNS_SP_CTRL_timeout
  t != 0 && decide (t * 1000 < (readMemWord m.mem (frameAddr m.cycle + 0x5C)).toNat)

/-- The bank in force and the cycle of the last swap (R205). -/
def Mach.bankRecord (m : Mach) : Word :=
  BitVec.ofNat 32 (m.get F.SPN_BANK_STAT_in_force * 2 ^ 31 + (m.rd Reg.SPN_BANK_CYC).toNat % 2 ^ 31)

/-- CRC-32C of a parameter bank as the engine reads it (R205, R227, R448). -/
def Mach.bankCrc (m : Mach) (base : Nat) : Word := crcWords (m.digestWords base 16384)

/-- Bank CRC and bank record in the frame; SPN_BANK_CRC_F takes the CRC (R227). -/
def Mach.frameBank (m : Mach) : Mach :=
  let c := m.bankCrc m.bankBase
  (m.putFrame 0x18 [c, m.bankRecord]).wr Reg.SPN_BANK_CRC_F c

/-- SPN_BANK_CRC_F as it reads: a bank with any contents is computed now; an empty one leaves the reset value until a frame
carries its CRC.
DEDUCED: log entry 33. -/
def Mach.bankCrcRead (m : Mach) : Word :=
  if m.mem.any fun e => decide (m.bankBase ≤ e.1 ∧ e.1 < m.bankBase + 0x10000) then m.bankCrc m.bankBase
  else m.rd Reg.SPN_BANK_CRC_F

/-- Set-point, limits and age in the frame (R205). -/
def Mach.frameSetpoint (m : Mach) : Mach :=
  m.putFrame 0x54 [m.rd Reg.SNS_SP_STAT, m.sense.limits, BitVec.ofNat 32 (min 0xFFFFFFFF m.setpointAge)]

/-- The partner's CYCLE frame of this cycle, in time (R206). -/
def Mach.partnerData (m : Mach) : Option XlCycle :=
  match m.pair.cycleRx with
  | some f => if f.cycle = m.cycle ∧ m.pair.cycleLate = false then some f else none
  | none => none

/-- A conversion's code, within the range of `bits` bits (R69). -/
def convCode (bits : Nat) (c : Int) : Int := max (-(2 ^ (bits - 1))) (min (2 ^ (bits - 1) - 1) c)

/-- The shunt input lies beyond ±62.0 mV: its step is 7.45 nV (R69, R179). -/
def shSat (d : SenseData) : Bool := decide (6200000000 < (convCode 24 d.shunt).natAbs * 745)

/-- The fluxgate signal lies beyond ±9.9 V: its step is 20 V / 2^18 (R179, R521). -/
def fgClip (d : SenseData) : Bool := decide (99 * 2 ^ 18 < (convCode 18 d.fluxgate).natAbs * 200)

/-- The shunt current in A: the conversion without its offset, times its step and the scaling at the shunt temperature (R69). -/
def Mach.shAmps (m : Mach) (d : SenseData) : Rat :=
  let code := convCode 24 d.shunt - Config.shuntOffset m.sense.shRecord
  mkRat (code * 745) 100000000000 * ratOf (Config.shuntScale m.sense.shRecord (BitVec.ofNat 16 (m.get F.SNS_SH_TEMP_t)).toInt)

/-- The fluxgate current in A (R521): 20 V / 2^18 × k_fg for each step; 0 without a scaling. -/
def Mach.fgAmps (m : Mach) (d : SenseData) : Rat :=
  match m.sense.fgScaling with
  | none => 0
  | some k => mkRat (convCode 18 d.fluxgate * 20) (2 ^ 18) * ratOf k

/-- A string or bus voltage in microvolts within the range 0 to 1800 V (R64). -/
def inRange (v : Int) : Int := max 0 (min 1800000000 v)

/-- The shunt's conversion is valid and its input in range (R179). -/
def shLive (d : SenseData) : Bool := d.shValid && !shSat d

/-- The shunt is hardware-healthy (R179). -/
def shOk (d : SenseData) : Bool := shLive d && !d.shuntLate

/-- The fluxgate supply has been in current limit for more than 10 ms (R70). -/
def Mach.fgLimited (m : Mach) : Bool := m.sense.fgLimNs.any fun t => decide (t + 10000000 < m.upNs)

/-- The fluxgate's supply and range conditions hold, and it has a scaling (R179, R521). -/
def Mach.fgLive (m : Mach) (d : SenseData) : Bool :=
  m.flag F.SNS_CTRL_fg_en && !m.fgLimited && !fgClip d && m.sense.fgScaling.isSome

/-- The fluxgate is hardware-healthy (R179, R521). -/
def Mach.fgOk (m : Mach) (d : SenseData) : Bool := m.fgLive d && !d.fgLate

/-- The partner's current is hardware-healthy (R179). -/
def Mach.partnerOk (m : Mach) : Bool :=
  m.flag F.SNS_CTRL_partner_en && m.role != .solo && ((m.partnerData.map (·.ownOk)).getD false)

/-- A word of sense data, or the missing pattern. -/
def orMissing (late : Bool) (w : Word) : Word := if late then missingWord else w

/-- The fluxgate's current is missing: late, or without a scaling (R206, R521). -/
def Mach.fgMissing (m : Mach) (d : SenseData) : Bool := d.fgLate || m.sense.fgScaling.isNone

/-- This module's own sense words and flags [9:3] and [1:0] of R205. -/
def Mach.ownSense (m : Mach) : List Word × Nat :=
  match m.sense.data with
  | none => ([missingWord, missingWord, missingWord, missingWord], 0x1B)
  | some d =>
    let sh := shOk d
    let fg := m.fgOk d
    ([orMissing d.shuntLate (ratBfp (m.shAmps d)), orMissing (m.fgMissing d) (ratBfp (m.fgAmps d)),
      orMissing d.vStrLate (ratBfp (mkRat (inRange d.vStr) 1000000)),
      orMissing d.vBusLate (ratBfp (mkRat (inRange d.vBus) 1000000))],
     (fg && !sh).toNat * 0x200 + sh.toNat * 0x100 + fg.toNat * 0x40 + sh.toNat * 0x20 + d.vBusLate.toNat * 0x10
       + d.vStrLate.toNat * 8 + (m.fgMissing d).toNat * 2 + d.shuntLate.toNat)

/-- The current of the module's own selected source (R354), the source of the last status word, and whether it is missing. -/
def Mach.selectedWord (m : Mach) : Word × Bool :=
  let own := m.ownSense
  if m.get F.SNS_STAT_fb_src = 1 then (own.1.getD 1 missingWord, own.2.testBit 1)
  else (own.1.getD 0 missingWord, own.2.testBit 0)

/-- The five words at 0x0040 and the flags of the sense part, from the claim holder's point of view (R205, R359). -/
def Mach.senseWords (m : Mach) : List Word × Nat :=
  let old := m.frameOld.toNat * 0x800
  let p := m.partnerData
  if m.role = .standby then
    match p with
    | none => ([missingWord, missingWord, m.selectedWord.1, missingWord, missingWord], old + 0x1B + m.selectedWord.2.toNat * 4)
    | some f => ([f.shunt, f.fluxgate, m.selectedWord.1, f.vStr, f.vBus], old + f.flags.toNat % 0x800)
  else
    let own := m.ownSense
    let own4 := fun i => own.1.getD i missingWord
    let partner := match p with
      | some f => (f.selected, m.partnerOk.toNat * 0x80 + f.ownOk.toNat * 0x400)
      | none => (missingWord, 4)
    ([own4 0, own4 1, partner.1, own4 2, own4 3], old + own.2 + partner.2)

/-- The sense data in the frame, while its sense part is not frozen. -/
def Mach.frameSense (m : Mach) : Mach :=
  if m.sense.frozen then m
  else
    let w := m.senseWords
    (m.putFrame 0x40 w.1).putFrame 0x60 [BitVec.ofNat 32 w.2]

/-- The frame of a new cycle: its header, and the missing patterns everywhere else until data arrive (R205, R206). -/
def Mach.frameOpen (m : Mach) : Mach :=
  let m := m.clearMem (frameAddr m.cycle) 0x2000
  let m := m.putFrame 0 [m.cycle, BitVec.ofNat 32 (min 255 m.spin.estGap), BitVec.ofNat 32 (m.time.sec / 2 ^ 32),
    BitVec.ofNat 32 m.time.sec, BitVec.ofNat 32 m.time.ns, m.rd Reg.SPN_PROG_ID]
  let m := (m.frameBank.frameSetpoint).frameSense
  let m := m.putFrame 0x64 [m.requestWord]
  let m := m.putFrame 0x80 (List.replicate 128 0xFFFFFFFF)
  m.putFrame 0x600 (List.replicate 768 0xFFFFFFFF)

/-! ## The node part -/

/-- trim_count of R145.
DEDUCED: log entry 29. -/
def FlyerLane.trimCount (l : FlyerLane) : Nat := if l.last.cmd = .trim then l.trimRun else l.restLeft

/-- A Flyer record (R145). A trim_count beyond its 8 bits is open: `free`. -/
def FlyerLane.record (l : FlyerLane) (free : Nat) : Word :=
  BitVec.ofNat 32 (l.dwellLeft % 256 * 2 ^ 24 + l.credit % 256 * 2 ^ 16
    + (if l.trimCount < 256 then l.trimCount else free % 256) * 2 ^ 8 + l.forced.toNat * 8 + l.vetoed.toNat * 4
    + l.last.cmd.code)

/-- The Flyer records in the frame. -/
def Mach.frameRecords (m : Mach) : Mach :=
  let open' := m.fly.lanes.toList.any fun l => 256 ≤ l.trimCount
  let m := m.putFrame 0x280 (((List.range 128).zip m.fly.lanes.toList).map fun (n, l) =>
    l.record (Config.freeValue (m.freeTick + n)).toNat)
  { m with freeTick := if open' then m.freeTick + 128 else m.freeTick }

/-- The primary and the secondary copy of a slot (R108). -/
def Mach.slotCopies (m : Mach) (n : Nat) : Option Word × Option Word :=
  let get := fun (l : List (Nat × Word)) => (l.find? (·.1 == n)).map (·.2)
  (get m.chain.portA.slots, get (if m.pairRing then m.pair.slotxSlots else m.chain.portB.slots))

/-- The primary and the secondary copy of a record for this cycle's frame. -/
def Mach.recordCopies (m : Mach) (n : Nat) : Option (List Word) × Option (List Word) :=
  let c := m.cycle
  let get := fun (l : List (Word × Nat × List Word)) => (l.find? fun r => r.1 == c && r.2.1 == n).map (·.2.2)
  (get m.chain.portA.records,
   get (if m.pairRing then m.pair.slotxRecs else m.chain.portB.records))

/-- The copy taken, and whether two valid copies differ (R108). -/
def takeCopy {α : Type} [DecidableEq α] (c : Option α × Option α) : Option α × Bool :=
  match c.1, c.2 with
  | some a, some b => (some a, decide (a ≠ b))
  | some a, none => (some a, false)
  | none, b => (b, false)

/-- The body of this module's CYCLE frame (R354). -/
def Mach.cycleFrame (m : Mach) : XlCycle :=
  let own := m.ownSense
  let word := fun i => own.1.getD i missingWord
  let ok := if m.get F.SNS_STAT_fb_src = 1 then m.flag F.SNS_STAT_fg_ok else m.flag F.SNS_STAT_sh_ok
  ⟨m.cycle, word 0, word 1, m.selectedWord.1, word 2, word 3, BitVec.ofNat 32 own.2, ok⟩

/-- The toggle record of the cycle before, as bytes: three counts and the last symbol (R145, R205). On a STANDBY it is
the active's from CMDX, or 8 bytes of 0xFF (R359). -/
def Mach.toggleBytes (m : Mach) : List Byte :=
  if m.role = .standby then
    match m.pair.cmdxRx with
    | some f => if f.cycle = m.cycle ∧ m.pair.cmdxTime ∧ f.toggle.length = 8 then f.toggle else List.replicate 8 0xFF
    | none => List.replicate 8 0xFF
  else if m.fly.hyst.prev.length = 8 then m.fly.hyst.prev else List.replicate 8 0

/-- One position at the freeze: its slot and record, with the ages that R148 uses and the run of R519. -/
def ChainState.freezePos (ch : ChainState) (n : Nat) (slot : Option Word) (rec : Option (List Word)) (broken : Bool) :
    ChainState :=
  if h : n < 128 then
    { ch with lastSlot := if slot.isSome then ch.lastSlot.set n slot else ch.lastSlot
              slotAge := ch.slotAge.set n (if slot.isSome then 0 else ch.slotAge[n] + 1)
              bothEnds := ch.bothEnds.set n (if slot.isNone && broken then ch.bothEnds[n] + 1 else 0)
              lastRec := if rec.isSome then ch.lastRec.set n rec else ch.lastRec
              recAge := ch.recAge.set n (if rec.isSome then 0 else ch.recAge[n] + 1) }
  else ch

/-- The freeze of the node part at Z (R108, R136, R206, R221): the copies taken, what is missing marked, the entries
counted; during the stop broadcast every entry is missing (R155). A position whose slot copies and record copies both differ
counts once in CHA_CNT_MISM. The ov_uv bit shows the node's comparators.
DESIGN CHOICE: log entry 68. -/
def Mach.freezeFrame (m : Mach) : Mach :=
  let c := m.cycle
  let dead := m.flag F.FLY_STOP_active
  let inN := fun n => decide (n < m.nodeCount)
  let slots : Vector (Option Word × Bool) 128 := Vector.ofFn fun n =>
    if dead || !inN n then (none, false) else takeCopy (m.slotCopies n)
  let recs : Vector (Option (List Word) × Bool) 128 := Vector.ofFn fun n =>
    if dead || !m.recordDue n c then (none, false) else takeCopy (m.recordCopies n)
  let slot := fun n => (slots.toList.getD n (none, false)).1
  let rec' := fun n => (recs.toList.getD n (none, false)).1
  let missing := fun n => inN n && (slot n).isNone
  let lanes := List.range 128
  let inval := m.memi.inval
  let m := m.each (lanes.filter fun n => (slots.toList.getD n (none, false)).2 || (recs.toList.getD n (none, false)).2)
    fun m _ => m.count (Reg.CH_CNT_MISM 0)
  let m := (m.putFrame 0x80 (lanes.map fun n => (slot n).getD 0xFFFFFFFF)).frameRecords
  let m := m.putFrame 0x480 (bytesWords m.toggleBytes)
  let m := m.putFrame 0x500 (maskWords missing ++ maskWords (fun n => (rec' n).isSome)
    ++ maskWords (fun n => m.recordDue n c && (rec' n).isNone) ++ maskWords (fun n => decide (n ∈ inval)))
  let m := m.putFrame 0x600 (lanes.flatMap fun n => (rec' n).getD (List.replicate 6 0xFFFFFFFF))
  let m := m.each [0, 1, 2, 3] fun m k => m.wr (Reg.CH_MISS 0 k) ((maskWords missing).getD (3 - k) 0)
  let broken := m.ringBroken
  let ch := (lanes.filter inN).foldl (fun ch n => ch.freezePos n (slot n) (rec' n) broken) m.chain
  let nodes := Vector.ofFn fun n =>
    match (slots[n]).1 with | some w => { ch.nodes[n] with tripped := w.getLsbD 15 } | none => ch.nodes[n]
  { m with chain := { ch with frozen := true, nodes := nodes }, memi := { m.memi with inval := [] } }

/-! ## Digests (R224, R225) -/

/-- Write a digest and its flag into the digest area. -/
def Mach.putDigest (m : Mach) (base : Nat) (k : Nat) (v : Word) : Mach :=
  let m := m.storeWhole (base + 0x1200 + 4 * k) [v]
  m.storeWhole (base + 0x120C) [readMemWord m.mem (base + 0x120C) ||| BitVec.ofNat 32 (2 ^ k)]

/-- The bytes of EMIT in the output digest; 263 bytes of 0xFF when the cycle has none (R224). -/
def emitBytes : Option EmitVec → List Byte
  | none => List.replicate 263 0xFF
  | some e =>
    e.entries.toList.flatMap (fun w => halfBytes (w &&& 0xFFC0))
      ++ [BitVec.ofNat 8 (e.bandValid.toNat + 2 * e.bandLsb.toNat)] ++ halfBytes e.iLo ++ halfBytes e.iMid
      ++ halfBytes e.iHi

/-- The output digest of the present cycle. -/
def Mach.outputDigest (m : Mach) : Word :=
  crc32c (wordBytes m.cycle ++ emitBytes m.fly.emit ++ wordsBytes (m.spin.ctlRec.toList.map (·.getD 0)))

end Sys2Proof.Machine
end

