-- ==== Sys2Proof/Machine/Sense.lean ====
section
/-!
DEFINITION. The sense interface (ch. 05): sense data and their freeze (R179, R196, R206), the set-point in force (R165,
R166) and the capture unit (R191 to R193).
-/

namespace Sys2Proof.Machine

/-! ## Sense data -/

/-- atanh of `z` / 2^96 times 2^96, from its series: the term `t` of the odd order `n`, and `fuel` more. -/
def atanhLoop (zz : Nat) : Nat → Nat → Nat → Nat
  | 0, n, t => t / n
  | fuel + 1, n, t => t / n + atanhLoop zz fuel (n + 2) (t * zz / 2 ^ 192)

/-- ln (n / d) times 2^96, for positive numbers: a power of 2 and the rest below 2, by 2 atanh ((x − 1) / (x + 1)). -/
def lnScaled (n d : Nat) : Int :=
  let e : Int := (n.log2 : Int) - d.log2 - (if n * 2 ^ d.log2 < d * 2 ^ n.log2 then 1 else 0)
  let p := if e < 0 then n * 2 ^ (-e).toNat else n
  let q := if e < 0 then d else d * 2 ^ e.toNat
  let z := (p - q) * 2 ^ 96 / (p + q)
  e * 54916777467707473351141471128 + 2 * (atanhLoop (z * z) 32 1 z : Int)

/-- The temperature in 0.01 °C of an NTC of 10 kΩ at 25 °C and B 3435 K, within −40 °C to +150 °C (R69); the rounding is the
model's.
DEDUCED: log entry 34. -/
def ntcCenti (ohm : Nat) : Int :=
  let r := mkRat 20 5963 + mkRat (lnScaled ohm 10000) (2 ^ 96 * 3435)
  let t := 100 / r - 27315
  max (-4000) (min 15000 (roundHalfEven t.num t.den))

/-- The shunt thermistor reads open (above 500 kΩ) or short (below 50 Ω, R69). -/
def shTherm (d : SenseData) : Bool := decide (500000 < d.thermOhm ∨ d.thermOhm < 50)

/-- The shunt temperature in use in 0.01 °C (R70): with a thermistor fault the last valid one for 60 s, then the
baseplate temperature plus 10 K. -/
def Mach.shuntTemp (m : Mach) (d : SenseData) : Mach :=
  if shTherm d then
    let since := m.sense.shBadNs.getD m.upNs
    let base : Int := (BitVec.ofNat 16 (m.get F.SNS_MOD_TEMP_baseplate)).toInt * 10
    let t : Int := if since + 60 * 1000000000 < m.upNs then base + 1000 else m.sense.shTemp
    { m.set F.SNS_SH_TEMP_t (BitVec.ofInt 16 t).toNat with sense := { m.sense with shBadNs := some since } }
  else
    let t := ntcCenti d.thermOhm
    { m.set F.SNS_SH_TEMP_t (BitVec.ofInt 16 t).toNat with sense := { m.sense with shBadNs := none, shTemp := t } }

/-- A current in a register of 1 mA; its rounding is open.
DESIGN CHOICE: log entry 41. -/
def Mach.putMilli (m : Mach) (a : Nat) (x : Rat) : Mach :=
  let r := m.openDiv (x * 1000).num (x * 1000).den
  r.2.wr a (satWord r.1)

/-- A voltage of microvolts in a register of 10 mV; its rounding is open.
DESIGN CHOICE: log entry 41. -/
def Mach.putCenti (m : Mach) (a : Nat) (v : Int) : Mach :=
  let r := m.openDiv v 10000
  r.2.wr a (satWord r.1)

/-- SNS_I: the current of the source that SNS_STAT.fb_src names (R195); one that did not arrive, or none, leaves it. The
partner's comes with its CYCLE frame.
DEDUCED: log entry 34. -/
def Mach.selectedValue (m : Mach) (d : SenseData) : Mach :=
  match m.get F.SNS_STAT_fb_src with
  | 0 => m.when (!d.shuntLate) (·.putMilli Reg.SNS_I (m.shAmps d))
  | 1 => m.when (!m.fgMissing d) (·.putMilli Reg.SNS_I (m.fgAmps d))
  | 2 => match m.partnerData with | some f => m.putMilli Reg.SNS_I (ratOf f.selected) | none => m
  | _ => m

/-- A terminal against PE in 10 mV, within ±1800 V (R64). -/
def peRange (v : Int) : Int := max (-180000) (min 180000 v)

/-- The measured values of the last sample instant (R195, R196), within the ranges of R64. A value that did not arrive leaves
its register. The terminals are measured against PE with the insulation (R65). -/
def Mach.senseValues (m : Mach) (d : SenseData) : Mach :=
  let m := m.when (!d.shuntLate) (·.putMilli Reg.SNS_I_SH (m.shAmps d))
  let m := m.when (!d.fgLate) (·.putMilli Reg.SNS_I_FG (m.fgAmps d))
  let m := m.when (!d.vStrLate) (·.putCenti Reg.SNS_VSTR (inRange d.vStr))
  let m := (m.when (!d.vBusLate) (·.putCenti Reg.SNS_VBUS (inRange d.vBus))).selectedValue d
  if m.flag F.SNS_STAT_iso_busy then
    (m.wr Reg.SNS_VPOS_PE (satWord (peRange d.vPosPe))).wr Reg.SNS_VNEG_PE (satWord (peRange d.vNegPe))
  else (m.wr Reg.SNS_VPOS_PE 0).wr Reg.SNS_VNEG_PE 0

/-- The current of the comparator stream stays within ±trip_i or not, for the trip rule (R334); without a stream it does not
count. -/
def Mach.streamCurrent (m : Mach) (d : SenseData) : Mach :=
  let i := if m.flag F.SNS_STAT_cmp_sh then some (m.shAmps d) else if m.flag F.SNS_STAT_cmp_fg then some (m.fgAmps d) else none
  let top : Rat := (m.param 4 % 65536 : Nat)
  let small := i.any fun x => decide (x * 10 ≤ top ∧ -top ≤ x * 10)
  { m with safety := { m.safety with quietNs := if small then some (m.safety.quietNs.getD m.upNs) else none } }

/-- SNS_STAT's health bits and the comparator stream (R179, R185). While cycles do not run the deadlines do not apply: the
conversion, range and supply conditions alone choose the stream. -/
def Mach.senseStat (m : Mach) : Mach :=
  match m.sense.data with
  | none =>
    let m := ((m.off F.SNS_STAT_sh_ok).on F.SNS_STAT_sh_missing).off F.SNS_STAT_fg_ok
    let m := (m.off F.SNS_STAT_cmp_sh).off F.SNS_STAT_cmp_fg
    { m with safety := { m.safety with quietNs := none } }
  | some d =>
    let sh := if m.cyclesOn then shOk d else shLive d
    let fg := if m.cyclesOn then m.fgOk d else m.fgLive d
    let m := (m.setB F.SNS_STAT_sh_ok sh).setB F.SNS_STAT_sh_missing (m.cyclesOn && d.shuntLate)
    let m := (m.setB F.SNS_STAT_sh_sat (shSat d)).setB F.SNS_STAT_sh_therm (shTherm d)
    let m := ((m.setB F.SNS_STAT_fg_ok fg).setB F.SNS_STAT_fg_ilim d.fgIlim).setB F.SNS_STAT_fg_clip (fgClip d)
    ((m.setB F.SNS_STAT_cmp_sh sh).setB F.SNS_STAT_cmp_fg (!sh && fg)).streamCurrent d

/-- The conversions of an instant: the fluxgate supply's limit is timed (R70). -/
def Mach.senseTake (m : Mach) (d : SenseData) : Mach :=
  { m with sense := { m.sense with data := some d
                                   fgLimNs := if d.fgIlim then some (m.sense.fgLimNs.getD m.upNs) else none } }

/-- SENSE_DATA_WRITE (R206): data that come after the sense freeze are missing. A pair's CYCLE frame leaves (R354). While
cycles do not run there is no frame; the conversions choose the comparator stream (R185).
DEDUCED: log entry 34. -/
def Mach.senseWrite (m : Mach) (d : SenseData) : Mach :=
  if m.sense.frozen || !m.domOn .sense || !m.clkOk .sense then m
  else
    let m := m.senseTake d
    ((((m.shuntTemp d).senseValues d).senseStat).frameSense).when m.pair.formed fun m => m.sendXl (.cycle m.cycleFrame)

/-- The conversions while cycles do not run. -/
def Mach.senseStream (m : Mach) (d : SenseData) : Mach :=
  if !m.domOn .sense || !m.clkOk .sense then m else (m.senseTake d).senseStat

def execSenseDataWrite (d : SenseData) (s : State) : Host.Outcome State Fault Refusal :=
  let m := s.mach
  eff s (if m.cyclesOn then m.inCycle 1000 fun m => m.senseWrite d else m.senseStream d)

/-- Some sense data that the module takes part in are missing in this cycle (R179). -/
def Mach.senseMissing (m : Mach) : Bool :=
  let partner := m.flag F.SNS_CTRL_partner_en && m.role != .solo && m.partnerData.isNone
  match m.sense.data with
  | none => true
  | some d =>
    d.shuntLate || d.vStrLate || d.vBusLate || partner
      || (m.flag F.SNS_CTRL_fg_en && m.sense.fgScaling.isSome && d.fgLate)

/-- SENSE_FREEZE (R206): nothing in the sense part changes from here; missing data are counted once. The partner's current may
have come since the data of this module. -/
def Mach.senseFreeze (m : Mach) : Mach :=
  if m.sense.frozen then m
  else
    let m := (m.senseStat.setB F.SNS_STAT_partner_ok m.partnerOk).frameSense
    let m := match m.partnerData with
      | some f => m.when (m.get F.SNS_STAT_fb_src == 2) (·.putMilli Reg.SNS_I (ratOf f.selected))
      | none => m
    let m := m.when m.senseMissing (·.count Reg.SNS_CNT_MISS)
    { m with sense := { m.sense with frozen := true } }

/-! ## The set-point in force (R165, R166) -/

/-- The pending set-point has reached its cycle.
DEDUCED: log entry 30. -/
def Mach.setpointDue (m : Mach) (p : SetPoint) : Bool :=
  decide ((BitVec.ofNat 32 (m.indexAt m.nowNs) - p.cycle).toNat < 2 ^ 31)

/-- SETPOINT_APPLY (R165): the pending set-point takes effect at its cycle, in the frame and in SNS_SP_STAT. -/
def Mach.setpointApply (m : Mach) : Mach :=
  match m.sense.pending with
  | none => m
  | some p =>
    if m.setpointDue p then
      let m := ((m.wr Reg.SNS_SP_STAT p.target).wr Reg.SNS_SP_CYC p.cycle).off F.SNS_SP_CTRL_pending
      let at' := m.instantOf (m.indexAt m.nowNs - (BitVec.ofNat 32 (m.indexAt m.nowNs) - p.cycle).toNat)
      let m := { m with sense := { m.sense with pending := none, limits := p.limits, forceNs := at', expired := false } }
      m.when (m.cyclesOn && !m.sense.frozen) fun m => m.frameSetpoint.frameSense
    else m

def execSetpointApply (s : State) : Host.Outcome State Fault Refusal := eff s s.mach.setpointApply

/-- SETPOINT_EXPIRY (R166): reported once; the frame marks it. -/
def execSetpointExpiry (s : State) : Host.Outcome State Fault Refusal :=
  let m := s.mach
  eff s (if (if m.cyclesOn then m.frameOld else m.setpointOld) && !m.sense.expired then
    let m := { m.on F.SNS_IRQ_STAT_sp_timeout with sense := { m.sense with expired := true } }
    m.when (m.cyclesOn && !m.sense.frozen) (·.frameSense)
  else m)

/-- The counters of R195 and R296. -/
def snsCounters : List Nat :=
  [Reg.SNS_CNT_MISS, Reg.SNS_CNT_SWITCH, Reg.SNS_CNT_SAT, Reg.SNS_CNT_OW, Reg.SNS_CNT_NODE_REF]

/-- SNS_CLR_CNT (R195, R196). -/
def execSnsClrCnt (_master : Nat) (s : State) : Host.Outcome State Fault Refusal :=
  eff s (s.mach.access Reg.SNS_CTRL (·.clearRegs snsCounters))

/-! ## Capture (R191, R192) -/

/-- The capture state. -/
def Mach.capState (m : Mach) : Nat := m.get F.SNS_CAP_STAT_state

/-- The selected channels, ascending. -/
def Mach.capChannels (m : Mach) : List Nat := (List.range 16).filter fun c => (m.get F.SNS_CAP_CTRL_chan_mask).testBit c

/-- The bytes of a record, and the records that the area holds (R191). -/
def Mach.capSize (m : Mach) : Nat := 4 + 4 * m.capChannels.length

def Mach.capRoom (m : Mach) : Nat := 524224 / m.capSize

/-- ARM (R192): a ring from its start; refused without channels and while a capture is armed or triggered (R195, R196). The
view's blocks start at 0; a gap since its last record stays noted (R193). -/
def Mach.capArm (m : Mach) : Mach :=
  if m.capState = 1 ∨ m.capState = 2 then m.refuse Err.refusedState
  else if m.get F.SNS_CAP_CTRL_chan_mask = 0 then m.refuse Err.refusedValue
  else
    { (m.set F.SNS_CAP_STAT_state 1).set F.SNS_CAP_STAT_records 0 with
      sense := { m.sense with capHead := 0, capTotal := 0, capTrig := none, capTrigAt := [], capPrev := [], sc900 := 0 } }

def execArm (_master : Nat) (s : State) : Host.Outcome State Fault Refusal :=
  eff s (s.mach.access Reg.SNS_CAP_CTRL Mach.capArm)

/-- The records kept: up to the capacity, and from the trigger on with at most SNS_CAP_PRE before it (R192). -/
def Mach.capKept (m : Mach) : Nat :=
  match m.sense.capTrig with
  | none => min m.sense.capTotal m.capRoom
  | some t => min (m.sense.capTotal - t + min t (m.get F.SNS_CAP_PRE_pre)) m.capRoom

/-- The address of a place of the ring. -/
def Mach.capAddr (m : Mach) (i : Nat) : Nat := skeinBase + 0x40 + i % m.capRoom * m.capSize

/-- The header and SNS_CAP_STAT (R191). -/
def Mach.capHeader (m : Mach) : Mach :=
  let kept := m.capKept
  let first := readMemWord m.mem (m.capAddr (m.sense.capHead + m.capRoom - kept))
  let trig := fun i => m.sense.capTrigAt.getD i 0
  let w3 := BitVec.ofNat 32 (m.get F.SNS_CAP_CTRL_chan_mask * 2 ^ 16 + m.get F.SNS_CAP_CTRL_decim * 2 ^ 8
    + m.get F.SNS_CAP_TRIG_src)
  let ws := [trig 0, if kept = 0 then 0 else first, BitVec.ofNat 32 kept, w3, trig 1, trig 2, trig 3]
  (m.storeWords skeinBase (ws ++ List.replicate 9 0)).set F.SNS_CAP_STAT_records kept

/-- ABORT (R192): in any state. -/
def Mach.capAbort (m : Mach) : Mach :=
  { m.capHeader.set F.SNS_CAP_STAT_state 4 with sense := { m.sense with scGap := true } }

def execAbort (_master : Nat) (s : State) : Host.Outcome State Fault Refusal :=
  eff s (s.mach.access Reg.SNS_CAP_CTRL Mach.capAbort)

/-- The control record's channels of this cycle; a channel that was not written is 0.
DEDUCED: log entry 35. -/
def Mach.controlWords (m : Mach) : List Word := m.spin.ctlRec.toList.map (·.getD 0)

/-- The trigger condition on the record being stored (R192). -/
def Mach.capFires (m : Mach) : Bool :=
  let now := m.controlWords
  let ch := m.get F.SNS_CAP_TRIG_chan
  let lvl := bfpVal (m.rd Reg.SNS_CAP_LEVEL)
  let cur := bfpVal (now.getD ch 0)
  let old := bfpVal (m.sense.capPrev.getD ch 0)
  let had := !m.sense.capPrev.isEmpty
  let st := now.getD 15 0
  match m.get F.SNS_CAP_TRIG_src with
  | 0 => true
  | 1 => m.cycle == m.rd Reg.SNS_CAP_TCYC
  | 2 => had && old.lt lvl && lvl.le cur
  | 3 => had && lvl.lt old && cur.le lvl
  | 4 => st.getLsbD 15 && !m.sense.capStat.getLsbD 15
  | 5 => fieldOf st 16 8 != 0
  | _ => m.flag F.FLY_STOP_active

/-! ## The compatibility view (R193) -/

/-- An IEEE 754 single of an exact value, rounded half to even.
DEDUCED: log entry 34. -/
def single (x : Dy) : Word :=
  if x.n = 0 then 0
  else
    let s := if x.n < 0 then 2 ^ 31 else 0
    let a := x.abs
    let e0 := a.lead
    let e := if a.roundAt (e0 - 23) = 2 ^ 24 then e0 + 1 else e0
    if 127 < e then BitVec.ofNat 32 (s + 0x7F800000)
    else if e < -126 then BitVec.ofNat 32 (s + (a.roundAt (-149)).toNat)
    else BitVec.ofNat 32 (s + (e + 127).toNat * 2 ^ 23 + ((a.roundAt (e - 23)).toNat - 2 ^ 23))

/-- Bytes in little-endian order. -/
def littleWord (w : Word) : List Byte := (wordBytes w).reverse

def littleHalf (h : BitVec 16) : List Byte := (halfBytes h).reverse

/-- A sample of the view: value × 32 767 / full scale, and whether it saturated. A full scale of 0 leaves it open. -/
def Mach.viewSample (m : Mach) (k : Nat) (v : Dy) : BitVec 16 × Bool × Mach :=
  let fs := bfpVal (m.rd (Reg.SNS_CAP_SCALE k))
  if fs.n = 0 then (m.freeNow.setWidth 16, false, m.freeTicked)
  else
    let r := ((v.mul (Dy.ofInt 32767)).div fs).roundAt 0
    (BitVec.ofInt 16 (clampInt 32767 r), decide (32767 < r.natAbs), m)

/-- The samples of the first four selected channels.
DEDUCED: log entry 34. -/
def Mach.viewSamples (m : Mach) : List (BitVec 16 × Bool) × Mach :=
  let chans := m.capChannels.take 4
  (List.range 4).foldl (fun (l, m) k =>
    match chans[k]? with
    | none => (l ++ [(0, false)], m)
    | some c =>
      let w := m.controlWords.getD c 0
      let v := if c = 15 then Dy.ofInt w.toInt else bfpVal w
      let r := m.viewSample k v
      (l ++ [(r.1, r.2.1)], r.2.2)) ([], m)

/-- The header of a block at its first sample. -/
def Mach.viewHeader (m : Mach) (n base : Nat) (flags : Nat) : Mach :=
  let us := m.instantOf (m.indexAt m.nowNs) / 1000
  let per := m.get F.FLY_CYCLE_period * m.get F.SNS_CAP_CTRL_decim
  let scale := fun k =>
    if k < m.capChannels.length then single ((bfpVal (m.rd (Reg.SNS_CAP_SCALE k))).div (Dy.ofInt 32767)) else 0
  let bs := littleWord (BitVec.ofNat 32 n) ++ littleWord (BitVec.ofNat 32 us) ++ littleHalf (BitVec.ofNat 16 per)
    ++ [4, BitVec.ofNat 8 flags, 0, 0, 0, 0] ++ (List.range 4).flatMap fun k => littleWord (scale k)
  m.storeWords base (bytesWords bs)

/-- A second copy of a stored record into the view. After a gap a new block begins. -/
def Mach.viewStore (m : Mach) : Mach :=
  let gap := m.sense.scGap
  let k := if gap then (m.sense.sc900 + 59) / 60 * 60 else m.sense.sc900
  let base := 0x22C0000 + k / 60 % 512 * 512
  let r := m.viewSamples
  let m := r.2
  let sat := r.1.any (·.2)
  let m := m.when (k % 60 == 0) fun m => m.viewHeader (k / 60) base (if gap then 2 else 0)
  let m := m.when sat fun m => m.storeWords (base + 8) [readMemWord m.mem (base + 8) ||| 1]
  let m := m.storeWords (base + 32 + 8 * (k % 60)) (bytesWords (r.1.flatMap fun x => littleHalf x.1))
  { m with sense := { m.sense with sc900 := k + 1, scGap := false } }

/-! ## A record (R191, R192) -/

/-- The trigger: TRIGGERED, with its cycle and sample instant. -/
def Mach.capTrigger (m : Mach) : Mach :=
  let t := m.instantOf (m.indexAt m.nowNs)
  let m := (m.set F.SNS_CAP_STAT_state 2).on F.SNS_IRQ_STAT_cap_trig
  { m with sense := { m.sense with
      capTrig := some m.sense.capTotal
      capTrigAt := [m.cycle, BitVec.ofNat 32 (t / 1000000000 / 2 ^ 32), BitVec.ofNat 32 (t / 1000000000),
        BitVec.ofNat 32 (t % 1000000000)] } }

/-- Single mode ends when the area is full. -/
def Mach.capFull (m : Mach) : Mach :=
  if m.capState = 2 ∧ m.flag F.SNS_CAP_CTRL_mode = false ∧ m.capKept = m.capRoom then
    (m.capHeader.set F.SNS_CAP_STAT_state 3).on F.SNS_IRQ_STAT_cap_done
  else m.set F.SNS_CAP_STAT_records (min 0xFFFFFF m.capKept)

/-- Store a record. -/
def Mach.capStore (m : Mach) : Mach :=
  let ws := m.controlWords
  let m := m.when (m.capState == 1 && m.capFires) (·.capTrigger)
  let m := m.storeWords (m.capAddr m.sense.capHead) (m.cycle :: m.capChannels.map fun c => ws.getD c 0)
  let m := { m with sense := { m.sense with capHead := (m.sense.capHead + 1) % m.capRoom
                                            capTotal := m.sense.capTotal + 1, capPrev := ws } }
  let m := if m.flag F.SNS_CAP_CTRL_sc900 then m.viewStore else { m with sense := { m.sense with scGap := true } }
  m.capFull

/-- A new law acts alone (R178): the blend has ended, or there was none. -/
def lawAlone (old new : Word) : Bool :=
  fieldOf new 8 5 == 0 && (fieldOf old 8 5 != 0 || old.getLsbD 5 != new.getLsbD 5)

/-- The status word of the fast section is the last one: law and source are reported (R163), the program events kept
(R195), a source change, a lost feedback, a clamp and an ended hand-over noticed (R175, R178, R183); Distaff passes
ev_fb_trip to the safety island (R183).
DEDUCED: log entry 35. -/
def Mach.statusTake (m : Mach) : Mach :=
  let w := m.controlWords.getD 15 0
  let old := m.sense.capStat
  let m := (m.set F.SNS_STAT_ladder (fieldOf w 0 3)).set F.SNS_STAT_fb_src (fieldOf w 3 2)
  let m := m.wr Reg.SNS_PROG_EVT (m.rd Reg.SNS_PROG_EVT ||| BitVec.ofNat 32 (fieldOf w 16 8))
  let m := m.when (w.getLsbD 23) (·.count Reg.SNS_CNT_SAT)
  let m := m.when (w.getLsbD 20) fun m => (m.count Reg.SNS_CNT_SWITCH).on F.SNS_IRQ_STAT_fb_switch
  let m := m.when (fieldOf w 0 3 == 2 && fieldOf old 0 3 != 2) (·.on F.SNS_IRQ_STAT_fb_lost)
  let m := m.when (lawAlone old w) (·.on F.SNS_IRQ_STAT_handover_done)
  let m := m.when (w.getLsbD 21 && !m.power.distaffAbsent && !decide (.protReq ∈ m.safety.latched)) (·.safetyCause .protReq)
  { m with law := w.getLsbD 5, refSrc := RefSource.ofCode (fieldOf w 6 2), sense := { m.sense with capStat := w } }

/-- CAPTURE_RECORD: at the end of the fast section, in a cycle that decim selects.
DEDUCED: log entry 35. -/
def Mach.capRecord (m : Mach) : Mach :=
  if !m.spin.fastRan then m
  else
    let sel := m.cycle.toNat % max 1 (m.get F.SNS_CAP_CTRL_decim) == 0
    (m.when ((m.capState == 1 || m.capState == 2) && sel && m.domOn .frame) (·.capStore)).statusTake

def execCaptureRecord (s : State) : Host.Outcome State Fault Refusal := eff s (s.mach.inCycle 5000 Mach.capRecord)

end Sys2Proof.Machine
end

