-- ==== Sys2Proof/Machine/Flags.lean ====
section
/-!
DEFINITION. The lane flags (R216) and the forms in which a lane is written: an arithmetic result under a mask (R212 to
R214), an integer-form result (R215), and a move (R236).
-/

namespace Sys2Proof.Machine

/-- Both flag sets. -/
def LaneFlags.or (a b : LaneFlags) : LaneFlags :=
  ⟨a.ovf || b.ovf, a.unf || b.unf, a.dz || b.dz, a.inv || b.inv⟩

/-- The four-bit value {ovf, unf, dz, inv} of SPN_AFLAG and MFLG. -/
def LaneFlags.bits (f : LaneFlags) : Nat := 8 * f.ovf.toNat + 4 * f.unf.toNat + 2 * f.dz.toNat + f.inv.toNat

def LaneFlags.ovfOnly : LaneFlags := ⟨true, false, false, false⟩
def LaneFlags.dzOnly : LaneFlags := ⟨false, false, true, false⟩
def LaneFlags.invOnly : LaneFlags := ⟨false, false, false, true⟩

/-- A ply's exact result with the flags it sets. -/
abbrev PlyRes := Dy × LaneFlags

/-- A lane written by an arithmetic instruction: masked-off ply keep their values and are rounded with the others; a
lane whose mask bits are all 0 stays as it is (R214). -/
def writeArith (mask : BitVec 8) (old : Lane) (res : Nat → PlyRes) : Lane × LaneFlags :=
  if mask = 0 then (old, LaneFlags.none)
  else
    let rs := (List.range 8).map fun j => if mask.getLsbD j then res j else (old.val j, LaneFlags.none)
    let r := normalise (rs.map (·.1))
    (r.1, rs.foldl (fun f x => f.or x.2) r.2)

/-- The same for an instruction whose table gives it no flags. -/
def writeQuiet (mask : BitVec 8) (old : Lane) (res : Nat → Dy) : Lane × LaneFlags :=
  ((writeArith mask old fun j => (res j, LaneFlags.none)).1, LaneFlags.none)

/-- A kept ply of a lane that is written in integer form: its value at exponent 0 (R214, R215). -/
def keptInt (old : Lane) (j : Nat) : Mant :=
  let v := (old.val j).roundAt 0
  if -(2 ^ 23) ≤ v ∧ v < 2 ^ 23 then BitVec.ofInt 24 v else Config.keptPly (old.m[j]?.getD 0) old.e

/-- A lane written in integer form: mantissas, exponent 0 (R215). -/
def writeInt (mask : BitVec 8) (old : Lane) (res : Nat → Mant) : Lane :=
  if mask = 0 then old
  else ⟨Vector.ofFn fun j => if mask.getLsbD j then res j else keptInt old j, 0⟩

/-- A move that takes the ply of `a` where `mask` is 1 and those of `b` elsewhere: equal exponents are kept, others
normalise the result (R236). -/
def combine (mask : BitVec 8) (a b : Lane) : Lane × LaneFlags :=
  if a.e = b.e then
    (⟨Vector.ofFn fun j => if mask.getLsbD j then a.m[j] else b.m[j], a.e⟩, LaneFlags.none)
  else normalise ((List.range 8).map fun j => if mask.getLsbD j then a.val j else b.val j)

/-- A whole lane moved under a mask: all bits copy it, none leave the old one, else as `combine`. -/
def moveLane (mask : BitVec 8) (new old : Lane) : Lane :=
  if mask = 0xFF then new else if mask = 0 then old else (combine mask new old).1

/-- Eight BFP words loaded into a lane under a mask: equal exponents are kept, others normalise (R208). -/
def loadLane (mask : BitVec 8) (ws : List Word) (old : Lane) : Lane :=
  if mask = 0 then old
  else
    let p := (List.range 8).map fun j =>
      if mask.getLsbD j then ((ws.getD j 0).extractLsb' 8 24, (ws.getD j 0).extractLsb' 0 8)
      else (old.m[j]?.getD 0, old.e)
    let e := (p.getD 0 (0, 0)).2
    if p.all (·.2 = e) then ⟨Vector.ofFn fun j => (p.getD j (0, 0)).1, e⟩
    else (normalise (p.map fun x => ⟨x.1.toInt, x.2.toInt⟩)).1

/-- The words of a lane as stored: each ply's mantissa with the lane's exponent (R208, R243). -/
def Lane.words (l : Lane) : List Word := l.m.toList.map fun x => bfpOf x l.e

end Sys2Proof.Machine
end

