-- ==== Sys2Proof/Machine/Operands.lean ====
section
/-!
DEFINITION. The operands of Relud instructions: scalar, vector, mask and matrix registers with the hard-wired S0 and M0
(R197) and the lanes of PD_SPIN1 (R199), immediates (R231, R239), and the lane flags of the array (R216).
-/

namespace Sys2Proof.Machine

/-- Lane `n` exists: lanes 64 to 127 only while PD_SPIN1 is on (R199). -/
def Mach.laneOn (m : Mach) (n : Nat) : Bool := decide (n < 64) || m.domOn .spin1

/-- A scalar register; S0 reads as 0 (R197). -/
def Mach.sreg (m : Mach) (r : SReg) : Word := if r = 0 then 0 else m.spin.s[r.toNat]

/-- Write a scalar register; a write to S0 is discarded. -/
def Mach.setS (m : Mach) (r : SReg) (w : Word) : Mach :=
  if r = 0 then m else { m with spin := { m.spin with s := m.spin.s.set r.toNat w } }

/-- A lane of a vector register. -/
def Mach.vreg (m : Mach) (r : VReg) (n : Nat) : Lane :=
  if m.laneOn n then (m.spin.v[r.toNat])[n]?.getD Lane.zero else Lane.zero

/-- Write a vector register; writes to lanes that do not exist are discarded. -/
def Mach.setV (m : Mach) (r : VReg) (f : Nat → Lane) : Mach :=
  let old := m.spin.v[r.toNat]
  { m with spin := { m.spin with v := m.spin.v.set r.toNat (Vector.ofFn fun n => if m.laneOn n then f n else old[n]) } }

/-- A lane of a mask register; M0 reads as all ones (R197). -/
def Mach.mreg (m : Mach) (r : MReg) (n : Nat) : BitVec 8 :=
  if r = 0 then 0xFF else if m.laneOn n then (m.spin.msk[r.toNat])[n]?.getD 0 else 0

/-- Write a mask register; a write to M0 is discarded. -/
def Mach.setM (m : Mach) (r : MReg) (f : Nat → BitVec 8) : Mach :=
  if r = 0 then m
  else
    let old := m.spin.msk[r.toNat]
    { m with spin := { m.spin with
        msk := m.spin.msk.set r.toNat (Vector.ofFn fun n => if m.laneOn n then f n else old[n]) } }

/-- A lane of a matrix buffer: 8 rows. -/
def Mach.mxreg (m : Mach) (x : XReg) (n : Nat) : Vector Lane 8 :=
  if m.laneOn n then (m.spin.mx[x.toNat])[n]?.getD (Vector.replicate 8 Lane.zero) else Vector.replicate 8 Lane.zero

/-- Write a matrix buffer. -/
def Mach.setMx (m : Mach) (x : XReg) (f : Nat → Vector Lane 8) : Mach :=
  let old := m.spin.mx[x.toNat]
  { m with spin := { m.spin with mx := m.spin.mx.set x.toNat (Vector.ofFn fun n => if m.laneOn n then f n else old[n]) } }

/-- The immediate sign-extended (R239); the long form as it is (R231). -/
def immSigned : Imm → Word
  | .short v => v.signExtend 32
  | .long v => v

/-- The immediate zero-extended, for ANDI, ORI and XORI. -/
def immUnsigned : Imm → Word
  | .short v => v.setWidth 32
  | .long v => v

/-- The long form. -/
def immLong : Imm → Bool
  | .short _ => false
  | .long _ => true

/-- The instruction words that an instruction with this immediate takes. -/
def immSize (i : Imm) : Nat := if immLong i then 2 else 1

/-- The flags that an instruction sets, by lane: none in lanes that do not exist. -/
def Mach.flagSets (m : Mach) (f : Nat → LaneFlags) : Vector LaneFlags 128 :=
  Vector.ofFn fun n => if m.laneOn n then f n else LaneFlags.none

/-- All flags of a vector together, as SPN_AFLAG reports them. -/
def flagsSeen (fs : Vector LaneFlags 128) : Nat := (fs.toList.foldl LaneFlags.or LaneFlags.none).bits

/-- The lane flags alone are set. -/
def Mach.stickFlags (m : Mach) (f : Nat → LaneFlags) : Mach :=
  { m with spin := { m.spin with flags := Vector.ofFn fun n => m.spin.flags[n].or (m.flagSets f)[n] } }

/-- Set lane flags, and with them SPN_AFLAG (R216). -/
def Mach.addFlags (m : Mach) (f : Nat → LaneFlags) : Mach :=
  let all := flagsSeen (m.flagSets f)
  if all = 0 then m.stickFlags f
  else ((m.stickFlags f).set F.SPN_AFLAG_flag (m.get F.SPN_AFLAG_flag ||| all)).on F.SPN_IRQ_STAT_aflag

end Sys2Proof.Machine
end

