-- ==== Sys2Proof/Machine/Sequencer.lean ====
section
/-!
DEFINITION. The scalar sequencer (R197 to R204, R217, R218, R233, R234, R241): sections, issue and stalls, the loop
stack, traps and overruns, and what one instruction does around its own effect.
-/

namespace Sys2Proof.Machine

/-! ## Resources that instructions wait for (R233) -/

def resS (r : SReg) : Nat := r.toNat
def resV (r : VReg) : Nat := 32 + r.toNat
def resM (r : MReg) : Nat := 64 + r.toNat
def resX (r : XReg) : Nat := 72 + r.toNat

/-- What an instruction's body does: it completes, or traps with a cause and a lane (R217). -/
inductive Issued where
  | done (m : Mach)
  | trapped (m : Mach) (cause lane : Nat)
  deriving DecidableEq, Repr

/-- Trap causes (R217). -/
def TrapCode.illegal : Nat := 1
def TrapCode.nondet : Nat := 2
def TrapCode.fetchPoison : Nat := 3
def TrapCode.bankPoison : Nat := 4
def TrapCode.laneAddr : Nat := 5
def TrapCode.bankAddr : Nat := 6
def TrapCode.frameEarly : Nat := 7
def TrapCode.arith : Nat := 8
def TrapCode.loopDepth : Nat := 9
def TrapCode.progEnd : Nat := 10

/-- The lane of a scalar cause (R218). -/
def noLane : Nat := 0xFF

/-! ## Sections (R201, R202) -/

/-- The fast section is in progress. -/
def Mach.inFast (m : Mach) : Bool := m.get F.SPN_STAT_section == 1

/-- The program's estimation section is in progress; in SELFTEST the lane self-test runs in its place (R226). -/
def Mach.inEst (m : Mach) : Bool := m.get F.SPN_STAT_section == 3 && m.get F.SPN_STAT_state != 4

/-- A section's program is in progress: the array runs it.
DESIGN CHOICE: log entry 3. -/
def Mach.inSection (m : Mach) : Bool := m.arrayRuns && (m.inFast || m.inEst)

/-- The section's budget in sequencer cycles (R201): 1600, or (T/2 − 0.5 µs) × 400 MHz. -/
def Mach.budget (m : Mach) : Nat := if m.inFast then 1600 else m.get F.FLY_CYCLE_period * 200 - 200

/-- The registers, masks, matrix buffers, flags and loop levels at the start of a section (R198). -/
def SpinState.cleared (sp : SpinState) (pc : Nat) : SpinState :=
  { sp with s := SpinState.init.s, v := SpinState.init.v, msk := SpinState.init.msk, mx := SpinState.init.mx
            flags := SpinState.init.flags, loops := [], pc := pc, use := 0, ready := [], trim := none
            emitted := false }

/-- Record the cycles a section used. -/
def Mach.recordUse (m : Mach) (fast : Bool) (used : Nat) : Mach :=
  let u := min used 0xFFFF
  if fast then (m.set F.SPN_USE_fast_used u).set F.SPN_USE_MAX_fast_max (max u (m.get F.SPN_USE_MAX_fast_max))
  else (m.set F.SPN_USE_est_used u).set F.SPN_USE_MAX_est_max (max u (m.get F.SPN_USE_MAX_est_max))

/-- A word of lane memory as the state digest reads it: lanes of a PD_SPIN1 that is off read as canonical zero (R199). -/
def Mach.laneDigestWord (m : Mach) (i : Nat) : Word := if m.laneOn (i / 2048) then m.digestWord (laneMemBase + 4 * i) else bfpZero

/-- The state digest of a cycle whose number is a multiple of 1000 covers lane memory as it stands now (R225).
DEDUCED: log entry 33. -/
def Mach.stateDigestTake (m : Mach) (c : Word) : Mach :=
  if c.toNat % 1000 = 0 ∧ m.domOn .spin0 ∧ m.spin.stateDig.map (·.1) ≠ some c then
    let m := m.meet laneMemBase 0x100000 Agent.digest
    { m with spin := { m.spin with stateDig := some (c, crcWords ((List.range 262144).map m.laneDigestWord)) } }
  else m

/-- The estimation section is over: a stop that waits for it leaves the array LOADED (R204). -/
def Mach.estOver (m : Mach) : Mach :=
  if m.spin.stopPend then
    let m := m.when (m.get F.SPN_ST_STAT_result == 1) (·.set F.SPN_ST_STAT_result 0)
    { (m.set F.SPN_STAT_state 1).set F.SPN_STAT_section 0 with
      spin := { m.spin with stopPend := false, stPend := false, stLeft := 0 } }
  else m

/-- The section in progress ends after `used` cycles. -/
def Mach.endSection (m : Mach) (used : Nat) : Mach :=
  let fast := m.inFast
  let m := (m.recordUse fast used).set F.SPN_STAT_section 2
  if fast then m else (m.stateDigestTake m.cycle).estOver

/-- The budget runs out (R202): the overrun is counted, and the section used the whole budget. -/
def Mach.overrun (m : Mach) : Mach :=
  let b := m.budget
  let m := if m.inFast then (m.count Reg.SPN_CNT_OVR_FAST).on F.SPN_IRQ_STAT_ovr_fast
    else (m.count Reg.SPN_CNT_OVR_EST).on F.SPN_IRQ_STAT_ovr_est
  m.endSection b

/-! ## Traps (R218) -/

/-- The array traps at its present instruction: TRAPPED, the first trap recorded, the claim released (R353). -/
def Mach.trap (m : Mach) (cause lane : Nat) : Mach :=
  let m := m.when m.inEst (·.stateDigestTake m.cycle)
  let m := ((m.set F.SPN_STAT_state 3).set F.SPN_STAT_section 0).on F.SPN_IRQ_STAT_trap
  let m := if m.get F.SPN_TRAP_cause = 0 then
      (((m.set F.SPN_TRAP_cause cause).set F.SPN_TRAP_lane lane).set F.SPN_TRAP_pc m.spin.pc).wr Reg.SPN_TRAP_CYC m.cycle
    else m
  let m := m.when (m.get F.SPN_ST_STAT_result == 1) (·.set F.SPN_ST_STAT_result 0)
  let m := { m with spin := { m.spin with stopPend := false, stPend := false, stLeft := 0 } }
  m.releaseClaim .trap

/-! ## The loop stack (R241) -/

/-- After the word at index `done`: return to the start of the innermost loops that end there. -/
def loopNext : List LoopLevel → Nat → Nat → List LoopLevel × Nat
  | [], _, next => ([], next)
  | top :: rest, done, next =>
    if top.stop = done then
      if 1 < top.left then ({ top with left := top.left - 1 } :: rest, top.start) else loopNext rest done next
    else (top :: rest, next)

/-- A taken branch out of the innermost body pops every level whose body does not hold its target. -/
def loopBranch (l : List LoopLevel) (target : Nat) : List LoopLevel :=
  let holds := fun x : LoopLevel => decide (x.start ≤ target) && decide (target ≤ x.stop)
  match l with
  | [] => []
  | top :: _ => if holds top then l else l.filter holds

/-! ## Issue (R233, R234) -/

/-- What the sequencer knows of an instruction: what it reads and writes, the latency of its result, its size in
words, the section cycle before which it does not issue, and the words after it that it skips. -/
structure OpInfo where
  reads  : List Nat
  writes : List Nat
  lat    : Nat
  size   : Nat
  stall  : Nat
  skip   : Nat
  deriving DecidableEq, Repr

/-- A one-word instruction without a stall. -/
def OpInfo.mk1 (reads writes : List Nat) (lat : Nat) : OpInfo := ⟨reads, writes, lat, 1, 0, 0⟩

/-- The section cycle in which the instruction issues.
DEDUCED: log entry 37. -/
def SpinState.issueAt (sp : SpinState) (o : OpInfo) : Nat :=
  (sp.ready.filter fun r => r.1 ∈ o.reads ++ o.writes).foldl (fun t r => max t r.2) (max sp.use o.stall)

/-- What stands in `ready` for a result that no register, mask or matrix buffer takes: SECEND alone awaits it (R242). -/
def resOther : Nat := 76

/-- Results outstanding after the instruction issued at `t`; S0 and M0 are never awaited.
DEDUCED: log entry 37. -/
def SpinState.await (sp : SpinState) (o : OpInfo) (t : Nat) : SpinState :=
  let ws := if o.writes.isEmpty then [resOther] else o.writes.filter fun w => w ≠ 0 ∧ w ≠ 64
  { sp with ready := sp.ready.filter (fun r => r.1 ∉ ws) ++ ws.map fun w => (w, t + (o.size - 1) + o.lat) }

/-- One of the instruction's words is poisoned in program memory (R448). -/
def Mach.fetchPoison (m : Mach) (size : Nat) : Option Nat :=
  if m.poisoned (progMemBase + 4 * m.spin.pc) then some (progMemBase + 4 * m.spin.pc)
  else if size = 2 ∧ m.poisoned (progMemBase + 4 * m.spin.pc + 4) then some (progMemBase + 4 * m.spin.pc + 4)
  else none

/-- The program counter after an instruction at `t` that did not end the section: the next word or the loop's start,
or the target of a taken branch, which takes two cycles (R234). -/
def SpinState.advance (sp : SpinState) (o : OpInfo) (t : Nat) : Option Nat → SpinState
  | none =>
    let r := loopNext sp.loops (sp.pc + o.size - 1) (sp.pc + o.size + o.skip)
    { sp with loops := r.1, pc := r.2, use := t + o.size }
  | some target => { sp with loops := loopBranch sp.loops target, pc := target, use := t + o.size + 1 }

/-- One instruction: nothing outside a section; an overrun when it cannot issue within the budget; a trap at fetch; else
its body, and then the sequencer moves on. The target of a taken branch is read before the body writes.
DESIGN CHOICE: log entry 3. -/
def Mach.relud (m : Mach) (o : OpInfo) (body : Mach → Nat → Issued) (target : Mach → Option Nat := fun _ => none) :
    Mach :=
  if m.inSection then
    if m.budget ≤ m.spin.use then m.overrun
    else if m.get F.SPN_PROG_LEN_len ≤ m.spin.pc then m.trap TrapCode.progEnd noLane
    else
      let m := m.meet (progMemBase + 4 * m.spin.pc) (4 * o.size) Agent.fetch
      match m.fetchPoison o.size with
      | some a => (m.poisonHit a Agent.fetch).trap TrapCode.fetchPoison noLane
      | none =>
        if m.get F.SPN_PROG_LEN_len < m.spin.pc + o.size then m.trap TrapCode.illegal noLane
        else
          let t := m.spin.issueAt o
          if m.budget < t + o.size then m.overrun
          else match body m t with
            | .trapped m' c l => m'.trap c l
            | .done m' => { m' with spin := (m'.spin.await o t).advance o t (target m) }
  else m

/-- An instruction that always completes. -/
def Mach.run (m : Mach) (o : OpInfo) (f : Mach → Mach) : Mach := m.relud o fun m _ => .done (f m)

/-- Write a vector register with lane results; the flags are set, and an ovf with ovf_trap traps (R213). -/
def Mach.vwrite (m : Mach) (d : VReg) (res : Nat → Lane × LaneFlags) : Issued :=
  let rs : Vector (Lane × LaneFlags) 128 := Vector.ofFn fun n => res n
  let fl := fun n => (rs[n]?.getD (Lane.zero, LaneFlags.none)).2
  let m := m.addFlags fl
  match (List.range 128).find? fun n => m.laneOn n && (fl n).ovf && m.flag F.SPN_CTRL_ovf_trap with
  | some n => .trapped m TrapCode.arith n
  | none => .done (m.setV d fun n => (rs[n]?.getD (Lane.zero, LaneFlags.none)).1)

end Sys2Proof.Machine
end

