-- ==== Sys2Proof/Machine/Flyer.lean ====
section
/-!
DEFINITION. The Flyer (ch. 04): the hard rules R142 to R145, the launch of command trains (R118, R147), the hysteretic
path (R149, R150) and the stop broadcast (R154 to R157).
-/

namespace Sys2Proof.Machine

/-! ## Command slots (R100, R141) -/

/-- The slot of a command at a position, for the cycle `seq` in which it applies; duty is 0 outside TRIM. -/
def Command.slot (c : Command) (pos : Nat) (seq : Word) : BitVec 16 :=
  let d := if c.cmd = .trim then c.duty.toNat else 0
  let w := BitVec.ofNat 16 (c.cmd.code * 2 ^ 14 + d * 2 ^ 7 + c.arm.toNat * 2 ^ 6)
  w ||| (cmdCrc w pos seq).setWidth 16

/-- TRIM as INSERT for a duty of 64 or more, as BYPASS below (R142, R144 step 3). -/
def Command.untrim (c : Command) : Command :=
  if c.cmd = .trim then ⟨if 64 ≤ c.duty.toNat then .insert else .bypass, 0, c.arm⟩ else c

/-! ## The launched commands (R144) -/

/-- A command being formed: the node's Flyer state, the command so far, whether step 1 applied, whether it ignores
dwell_left and credit, whether it costs no credit, and whether step 4 applied. -/
structure Draft where
  lane   : FlyerLane
  cmd    : Command
  forced : Bool
  exempt : Bool
  gratis : Bool
  vetoed : Bool
  deriving DecidableEq, Repr

/-- Step 1: BLOCK is forced on a node: FLY_BLOCK, auto_block or stop_latched in its last valid slot, FLY_STOP.latched. -/
def Mach.forcedNode (m : Mach) (n : Nat) : Bool :=
  m.flag F.FLY_STOP_latched || (m.fly.blockNow.toList.getD (n / 32) 0).getLsbD (n % 32) || m.slotBit n 13 || m.slotBit n 12

/-- Every node is commanded BYPASS (R152 step 1, R153): until the residual check has passed, and after a failure until the next
start. -/
def Mach.allBypass (m : Mach) : Bool :=
  m.get F.FLY_PRE_STAT_pre_state == 5 || (m.runState == .precharge && !m.fly.pre.residualOk)

/-- Steps 1 and 2: forced BLOCK, else the EMIT entry, or the previous command without TRIM when EMIT is missing (R142);
a TRIM of duty 0 becomes the previous command. -/
def Mach.draft (m : Mach) (n : Nat) : Draft :=
  let l := m.fly.lanes.toList.getD n .init
  if m.forcedNode n then ⟨l, .block, true, false, false, false⟩
  else if m.allBypass then ⟨l, .bypass, false, false, false, false⟩
  else match m.fly.emit with
    | none => ⟨l, { l.last.untrim with arm := false }, false, l.last.cmd == .trim, true, false⟩
    | some e =>
      let c := Command.ofSlot (e.entries.toList.getD n 0)
      ⟨l, if c.cmd = .trim ∧ c.duty = 0 then l.last else c, false, false, false, false⟩

/-- Step 3: TRIM entries replaced; `kept` counts those that stay. An entry already replaced for trim_run or rest_left does not count
toward max_trim.
DESIGN CHOICE: log entry 68. -/
def trimStep (trimRun maxTrim : Nat) : Nat → List Draft → List Draft
  | _, [] => []
  | kept, d :: rest =>
    if d.cmd.cmd = .trim then
      if trimRun ≤ d.lane.trimRun then { d with cmd := d.cmd.untrim, exempt := true } :: trimStep trimRun maxTrim kept rest
      else if 0 < d.lane.restLeft ∨ maxTrim ≤ kept then { d with cmd := d.cmd.untrim } :: trimStep trimRun maxTrim kept rest
      else d :: trimStep trimRun maxTrim (kept + 1) rest
    else d :: trimStep trimRun maxTrim kept rest

/-- Step 4: a change is vetoed by dwell_left or credit, and in precharge beyond `limit` nodes that leave BYPASS
(R152), where the nodes with the lowest lanes leave; `left` counts those that have left.
DEDUCED: log entry 29. DESIGN CHOICE: log entry 68. -/
def vetoStep (limit : Option Nat) : Nat → List Draft → List Draft
  | _, [] => []
  | left, d :: rest =>
    let change := d.cmd.cmd ≠ d.lane.last.cmd ∧ d.cmd.cmd ≠ .block
    let leaves := limit.isSome ∧ d.lane.last.cmd = .bypass
    if change ∧ d.exempt = false then
      if 0 < d.lane.dwellLeft ∨ d.lane.credit = 0 ∨ (leaves ∧ limit.getD 0 ≤ left) then
        { d with cmd := d.lane.last, vetoed := true } :: vetoStep limit left rest
      else d :: vetoStep limit (if leaves then left + 1 else left) rest
    else d :: vetoStep limit left rest

/-- Step 5: arm bits cleared on BLOCK, on the far side of a break, and beyond max_armed; `n` is the lane. -/
def armStep (far : Nat → Bool) (maxArmed : Nat) : Nat → Nat → List Draft → List Draft
  | _, _, [] => []
  | n, armed, d :: rest =>
    if d.cmd.arm then
      if d.cmd.cmd = .block ∨ far n ∨ maxArmed ≤ armed then
        { d with cmd := { d.cmd with arm := false } } :: armStep far maxArmed (n + 1) armed rest
      else d :: armStep far maxArmed (n + 1) (armed + 1) rest
    else d :: armStep far maxArmed (n + 1) armed rest

/-- A node's Flyer state after the launch (R143). -/
def FlyerLane.after (d : Draft) (minDwell trimRest : Nat) : FlyerLane :=
  let l := d.lane
  let changed := d.cmd.cmd ≠ l.last.cmd
  { dwellLeft := if changed then minDwell else l.dwellLeft - 1
    credit := if changed ∧ d.cmd.cmd ≠ .block ∧ d.gratis = false then l.credit - 1 else l.credit
    trimRun := if d.cmd.cmd = .trim then l.trimRun + 1 else 0
    restLeft := if l.last.cmd = .trim ∧ d.cmd.cmd ≠ .trim then trimRest else l.restLeft - 1
    last := d.cmd
    lastDuty := if d.cmd.cmd = .trim then d.cmd.duty else l.lastDuty
    forced := d.forced
    vetoed := d.vetoed }

/-- A node lies on the far side of a break from the port that sends this module's TRIM symbols (R144 step 5): only in a
PAIR ring, beyond the position of the last TURN notice. -/
def Mach.farSide (m : Mach) (n : Nat) : Bool :=
  let t := m.get (F.CH_LINK_STAT_turn_pos 0)
  m.pairRing && m.ringBroken && decide (t < 128) && (if m.posZero then decide (t < n) else decide (n < t))

/-- The commands of this launch. -/
def Mach.drafts (m : Mach) : List Draft :=
  let limit := if m.runState = .precharge then some (m.get F.FLY_PRECHG_step_nodes) else none
  let ds := trimStep (m.get F.FLY_TRIM_trim_run) (m.get F.FLY_TRIM_max_trim) 0 (m.positions.map m.draft)
  armStep m.farSide (m.get F.FLY_TRIM_max_armed) 0 0 (vetoStep limit 0 ds)

/-- The launches between two credits: max(1, round(1 / (chg_rate × T))) (R143). A tie leaves the rounding open.
DEDUCED: log entry 29. -/
def Mach.creditEvery (m : Mach) : Nat × Mach :=
  let b := m.get F.FLY_LIMITS_chg_rate * m.get F.FLY_CYCLE_period
  let q := (2000000 + b) / (2 * b)
  if 0 < b ∧ (2000000 + b) % (2 * b) = 0 then (max 1 (q - m.freeNow.toNat % 2), m.freeTicked) else (max 1 q, m)

/-- CREDIT_REFILL (R143): every q cycles each credit rises by 1 up to burst. -/
def Mach.creditRefill (m : Mach) : Mach :=
  let q := m.creditEvery
  let m := q.2
  let burst := m.get F.FLY_LIMITS_burst
  if q.1 ≤ m.fly.creditPhase + 1 then
    { m with fly := { m.fly with creditPhase := 0
                                 lanes := m.fly.lanes.map fun l => { l with credit := min burst (l.credit + 1) } } }
  else { m with fly := { m.fly with creditPhase := m.fly.creditPhase + 1 } }

/-- The command train is formed: Flyer state, FLY_FORCED, vetoes, records in the frame (R144, R145). At T = 10 µs the freeze instant
comes before the launch; the records enter the frame all the same.
DESIGN CHOICE: log entry 68. -/
def Mach.formTrain (m : Mach) : Mach :=
  let ds := m.drafts
  let dwell := m.get F.FLY_LIMITS_min_dwell
  let rest := m.get F.FLY_TRIM_trim_rest
  let lanes := Vector.ofFn fun (n : Fin 128) =>
    match ds[n.val]? with
    | some d => FlyerLane.after d dwell rest
    | none => FlyerLane.init
  let slots := ((List.range ds.length).zip ds).map fun (n, d) => d.cmd.slot n (m.cycle + 1)
  let m := { m with fly := { m.fly with lanes := lanes, launched := slots, launchedAt := some m.cycle } }
  let m := m.each (ds.filter (·.vetoed)) fun m _ => (m.count Reg.FLY_CNT_VETO).on F.FLY_IRQ_STAT_veto
  let words := maskWords fun n => ((ds[n]?).map (·.forced)).getD false
  let m := m.each [0, 1, 2, 3] fun m k => m.wr (Reg.FLY_FORCED k) (words.getD (3 - k) 0)
  m.frameRecords

/-- Across a break of a PAIR ring the partner relays the train to the nodes of its side (R118).
DEDUCED: log entry 28. -/
def Mach.farTake (m : Mach) (f : ChainFrame) : Mach :=
  if m.pairRing && m.pair.formed && !m.pair.partnerLost then
    let at' : Int := 4 * ((m.upNs : Int) - (m.nowNs - m.instantOf (m.indexAt m.nowNs)) + m.periodNs)
    let nodes := Vector.ofFn fun (n : Fin 128) =>
      let x := m.chain.nodes[n]
      if m.reaches .a n.val then x
      else x.passed (m.atZero .a) f (m.fly.launched.getD ((x.pos.map (·.toNat)).getD 255) 0xFFFF) m.cycle at' 0
    { m with chain := { m.chain with nodes := nodes } }
  else m

/-- The first claimed launch after the claim was taken: XL_SWITCH.gap and XL_SWITCH_CYC (R364). -/
def Mach.firstClaimed (m : Mach) : Mach :=
  if m.pair.settled then
    let gap := (m.upNs - m.pair.releasedNs.getD m.upNs) / 1000
    let m := (m.set F.XL_SWITCH_gap (min 0xFFFF gap)).wr Reg.XL_SWITCH_CYC m.cycle
    { m with pair := { m.pair with settled := false } }
  else m

/-- The train leaves (R118, R147): a claimed CMD train, which the partner also hears of in CMDX, or a carrier train; a
STANDBY in relay launches nothing now. The last claimed train before a hand-over releases the claim (R356). -/
def Mach.sendTrain (m : Mach) : Mach :=
  let c := m.cycle + 1
  if m.claimBit then
    let f := cmdFrame m.launcher c m.nodeCount m.cellDiv m.fly.launched
    let m := (m.launchAll fun m p => m.trainLaunch p f m.fly.launched).farTake f
    let m := m.when m.pair.formed fun m => (m.sendXl (.cmdx ⟨m.cycle, m.fly.launched, m.toggleBytes⟩)).firstClaimed
    m.when (m.pair.handoverAt == some c) (·.releaseClaim .handover)
  else if m.relaying then m
  else m.launchAll fun m p => m.launchFixed p (carrierFrame m.launcher c m.nodeCount m.cellDiv)

/-- COMMAND_LAUNCH (R144 to R147): credits rise in every cycle; during the stop broadcast, and while no port launches,
no train is formed (R155). -/
def Mach.commandLaunch (m : Mach) : Mach :=
  let m := m.creditRefill
  if m.launchPorts.isEmpty then m else m.formTrain.sendTrain

def execCommandLaunch (s : State) : Host.Outcome State Fault Refusal := eff s (s.mach.inCycle 5500 Mach.commandLaunch)

/-- The relayed train (R118, R363): the active's slots from its CMDX frame of this cycle, none when it is late. -/
def Mach.relayed (m : Mach) : Option (List (BitVec 16)) :=
  match m.pair.cmdxRx with
  | some f => if f.cycle = m.cycle ∧ m.pair.cmdxTime then some f.slots else none
  | none => none

/-- RELAYED_CMD_LAUNCH: the relayed train, or a carrier train in its place. -/
def Mach.relayLaunch (m : Mach) : Mach :=
  let c := m.cycle + 1
  if m.relaying then
    match m.relayed with
    | some slots => m.launchAll fun m p => m.trainLaunch p (cmdFrame m.relayer c m.nodeCount m.cellDiv slots) slots
    | none =>
      (m.launchAll fun m p => m.launchFixed p (carrierFrame m.launcher c m.nodeCount m.cellDiv)).count Reg.XL_CNT_RELAY_LATE
  else m

def execRelayedCmdLaunch (s : State) : Host.Outcome State Fault Refusal := eff s (s.mach.inCycle 7000 Mach.relayLaunch)

/-! ## The end of the fast section (R142) -/

/-- The module launches trains of its own: only then a missing EMIT leads to anything (R353). -/
def Mach.acting (m : Mach) : Bool := m.claimBit && !m.launchPorts.isEmpty

/-- A missing EMIT: the second releases the claim (R353), the fifth demands the stop broadcast. -/
def Mach.emitMissing (m : Mach) : Mach :=
  let m := (m.count Reg.FLY_CNT_NOEMIT).on F.FLY_IRQ_STAT_emit_missing
  if m.acting then
    let k := m.fly.missing + 1
    let m := { m with fly := { m.fly with missing := k } }
    let m := m.when (k == 2 && m.pair.formed) (·.releaseClaim .noEmit)
    m.when (5 ≤ k) (·.stopWith .emit)
  else m

/-- EMIT_DEADLINE: the fast section's budget is over; a complete EMIT withdraws src_emit. -/
def Mach.emitDeadline (m : Mach) : Mach :=
  let m := m.when (m.inSection && m.inFast) (·.overrun)
  if m.fly.emit.isSome then { m.withdrawStop .emit with fly := { m.fly with missing := 0 } } else m.emitMissing

def execEmitDeadline (s : State) : Host.Outcome State Fault Refusal := eff s (s.mach.inCycle 5000 Mach.emitDeadline)

/-! ## The hysteretic path (R149, R150) -/

/-- The band of an EMIT, in milliamperes, if its header is valid (R141). -/
def EmitVec.band (e : EmitVec) : Option (Int × Int × Int) :=
  let u : Int := if e.bandLsb then 80 else 20
  let lo := e.iLo.toInt
  let mid := e.iMid.toInt
  let hi := e.iHi.toInt
  if e.bandValid && decide (lo < mid) && decide (mid < hi) then some (u * lo, u * mid, u * hi) else none

/-- A symbol leaves every port that sends the module's commands, and passes their nodes (R150); the toggle record counts it
(R145). -/
def Mach.sendTrim (m : Mach) (s : TrimSym) : Mach :=
  let h := m.fly.hyst
  let h := match s with
    | .ins => { h with cntIns := h.cntIns + 1, toggles := h.toggles + 1, inForce := true }
    | .byp => { h with cntByp := h.cntByp + 1, toggles := h.toggles + 1, inForce := true }
    | .rel => { h with cntRel := h.cntRel + 1, inForce := false }
  let m := (m.each m.launchPorts fun m p => m.sendSymbols p [.ctl s.code]).when (s != .rel) (·.count Reg.FLY_CNT_TOGGLE)
  { m with fly := { m.fly with hyst := { h with lastSym := some s, lastSent := some s, since := 0 } } }

/-- The path acts (R149): enabled, in RUN, as SOLO or ACTIVE, with a healthy source, no stop broadcast and a launching port. -/
def Mach.hystActs (m : Mach) : Bool :=
  m.flag F.FLY_CTRL_hyst_en && m.runState == .run && m.role != .standby && !m.launchPorts.isEmpty
    && (m.flag F.SNS_STAT_cmp_sh || m.flag F.SNS_STAT_cmp_fg)

/-- No TRIM_INS or TRIM_BYP from 0.2 µs before to 0.3 µs after a sample instant (R150). -/
def Mach.hystQuiet (m : Mach) : Bool :=
  let t := m.nowNs - m.instantOf (m.indexAt m.nowNs)
  decide (t ≤ 300) || decide (m.periodNs ≤ t + 200)

/-- The symbol that the table of R149 asks for. Where two of its rows apply, a toggle and TRIM_REL, the toggle is sent.
DESIGN CHOICE: log entry 68. -/
def hystWants (last : Option TrimSym) (lo mid hi i : Int) : Option TrimSym :=
  if hi < i ∧ last ≠ some .byp then some .byp
  else if i < lo ∧ last ≠ some .ins then some .ins
  else if (last = some .byp ∧ i ≤ mid) ∨ (last = some .ins ∧ mid ≤ i) then some .rel
  else none

/-- HYST_SAMPLE: one sample of the comparator stream, in milliamperes.
DEDUCED: log entry 29. -/
def Mach.hystSample (m : Mach) (i : Int) : Mach :=
  let m := { m with fly := { m.fly with hyst := { m.fly.hyst with since := min 255 (m.fly.hyst.since + 1) } } }
  let h := m.fly.hyst
  match h.band with
  | none => m
  | some (lo, mid, hi) =>
    if !m.hystActs || h.limited || h.since < m.get F.FLY_HYST_spacing then m
    else if m.get F.FLY_HYST_max_toggles ≤ h.toggles then
      let m := (m.when h.inForce (·.sendTrim .rel)).on F.FLY_IRQ_STAT_hyst_limit
      { m with fly := { m.fly with hyst := { m.fly.hyst with limited := true } } }
    else match hystWants h.lastSym lo mid hi i with
      | some .rel => m.sendTrim .rel
      | some s => if m.hystQuiet then m else m.sendTrim s
      | none => m

def execHystSample (i : Int) (s : State) : Host.Outcome State Fault Refusal := eff s (s.mach.hystSample i)

/-- The code of a symbol in the toggle record (R91, R205); 0 before any was sent. -/
def symByte : Option TrimSym → Byte
  | none => 0 | some s => s.code

/-- The toggle record of the cycle that ends.
DEDUCED: log entry 29. -/
def HystState.record (h : HystState) : List Byte :=
  halfBytes (BitVec.ofNat 16 h.cntIns) ++ halfBytes (BitVec.ofNat 16 h.cntByp) ++ halfBytes (BitVec.ofNat 16 h.cntRel)
    ++ [symByte h.lastSent, 0]

/-- The sample instant on the hysteretic path: the record of the old cycle is kept, a toggle in force is released, and
the band of the old cycle's EMIT comes into force; a missing EMIT makes it invalid (R142). -/
def Mach.hystCycle (m : Mach) : Mach :=
  let h := m.fly.hyst
  let next : HystState := { h with prev := h.record, cntIns := 0, cntByp := 0, cntRel := 0, toggles := 0, lastSym := none
                                   limited := false, band := m.fly.emit.bind EmitVec.band }
  let m := { m with fly := { m.fly with hyst := next } }
  m.when (h.inForce && m.role != .standby && !m.launchPorts.isEmpty) (·.sendTrim .rel)

/-! ## The stop broadcast (R154 to R157) -/

/-- The demand that starts a broadcast is there: the sources that the module forms itself are looked up.
DEDUCED: log entry 29. -/
def Mach.demandThere (m : Mach) : StopSrc → Bool
  | .safety => !m.safety.conds.isEmpty
  | .clock => !m.cycleClocksOk
  | .sw => true
  | .partner => m.pair.formed
  | .emit => decide (5 ≤ m.fly.missing)

/-- STOP_BROADCAST_START. -/
def execStopBroadcastStart (src : StopSrc) (s : State) : Host.Outcome State Fault Refusal :=
  eff s (s.mach.when (s.mach.demandThere src) (·.stopWith src))

/-- STOP_BROADCAST_END (R157): no demand is left and 100 µs have passed since the start. A stop notice of the partner is
a demand until then.
DEDUCED: log entry 29. -/
def Mach.stopEnd (m : Mach) : Mach :=
  let was := m
  let m := m.withdrawStop .partner
  if m.flag F.FLY_STOP_active && !m.stopDemanded then
    let m := ((m.passUntil m.fly.stopSinceNs 100000).off F.FLY_STOP_active).on F.FLY_IRQ_STAT_stop_off
    m.each m.stopPorts fun m p => m.send (.stopGroups p false)
  else was

def execStopBroadcastEnd (s : State) : Host.Outcome State Fault Refusal := eff s s.mach.stopEnd

/-- SW_STOP (R154, R158). -/
def execSwStop (_master : Nat) (s : State) : Host.Outcome State Fault Refusal :=
  eff s (s.mach.access Reg.FLY_CTRL (·.stopWith .sw))

/-- SW_RELEASE (R157): withdraws only src_sw. -/
def execSwRelease (_master : Nat) (s : State) : Host.Outcome State Fault Refusal :=
  eff s (s.mach.access Reg.FLY_CTRL (·.withdrawStop .sw))

/-- The FLY_CNT registers (R159). -/
def flyCounters : List Nat := [Reg.FLY_CNT_VETO, Reg.FLY_CNT_TOGGLE, Reg.FLY_CNT_NOEMIT, Reg.FLY_CNT_STOP]

/-- FLY_CLR_CNT. -/
def execFlyClrCnt (_master : Nat) (s : State) : Host.Outcome State Fault Refusal :=
  eff s (s.mach.access Reg.FLY_CTRL (·.clearRegs flyCounters))

end Sys2Proof.Machine
end

