-- ==== Sys2Proof/Machine/Items.lean ====
section
/-!
DEFINITION. The items that an ACTIVE module mirrors (R358) with what they do, the set-point commit (R165), the parameter
banks (R211) and the controls of the array (R204, R226, R228).
-/

namespace Sys2Proof.Machine

/-! ## Mirrored items (R358) -/

/-- A set-point becomes pending for cycle `c` (R165); it replaces an earlier one. -/
def Mach.setpointTake (m : Mach) (i lim c : Word) : Mach :=
  { m.on F.SNS_SP_CTRL_pending with sense := { m.sense with pending := some ⟨i, lim, c⟩ } }

/-- A swap request is taken for cycle `c`: the shadow bank is locked, its CRC is being computed (R211).
DEDUCED: log entry 30. -/
def Mach.swapTake (m : Mach) (c : Word) : Mach :=
  { (m.on F.SPN_BANK_STAT_pending).on F.SPN_BANK_STAT_crc_busy with spin := { m.spin with swapAt := some c } }

/-- A swap request is withdrawn. -/
def Mach.swapDrop (m : Mach) : Mach :=
  { m.off F.SPN_BANK_STAT_pending with spin := { m.spin with swapAt := none } }

/-- An item is taken. Run-state transitions are taken where they are made; FLY_BLOCK has four registers.
DEDUCED: log entry 32. -/
def Mach.applyItem (m : Mach) : MirrorItem → Mach
  | .commit i lim c => m.setpointTake i lim c
  | .mode r l => (m.set F.SNS_MODE_ref_req r.toNat).setB F.SNS_MODE_law_req l
  | .flyBlock k w c => m.blockTake k w c
  | .bankWrite o w => m.storeWord (m.shadowBase + o) w
  | .swapReq c _ => m.swapTake c
  | .swapCancel => m.swapDrop
  | .runState _ _ => m

/-- The active takes the item only when the standby acknowledges it. -/
def itemWaits : MirrorItem → Bool
  | .bankWrite _ _ => false | .runState _ _ => false | _ => true

/-- An accepted request for an item: mirrored and taken as R358 says. -/
def Mach.item (m : Mach) (i : MirrorItem) : Mach :=
  if m.mirrors then
    if itemWaits i then
      let w : MirrorWait := ⟨m.pair.mirrorSeq, i, m.upNs⟩
      let m := m.sendMirror i
      { m with pair := { m.pair with mirror := m.pair.mirror ++ [w] } }
    else (m.sendMirror i).applyItem i
  else m.applyItem i

/-! ## Set-point commit (R164, R165) -/

/-- The cycle that a commit names. -/
def Mach.commitCycle (m : Mach) : Word :=
  if m.flag F.SNS_SP_CTRL_at_cycle ∨ m.rd Reg.SNS_SP_APPLY ≠ 0 then m.rd Reg.SNS_SP_APPLY else m.firstCycleAhead 2000

/-- A write of 1 to SNS_SP_CTRL.commit by the owner. -/
def Mach.commit (m : Mach) : Mach :=
  let named := m.flag F.SNS_SP_CTRL_at_cycle || m.rd Reg.SNS_SP_APPLY != 0
  let c := m.commitCycle
  if m.role = .standby then m.refuse Err.role
  else if named && !m.cycleNameOk c 2000 then m.refuse Err.refusedValue
  else m.item (.commit (m.rd Reg.SNS_SP_I) (m.rd Reg.SNS_SP_LIM) c)

/-- COMMIT (R164, R165). -/
def execCommit (master : Nat) (s : State) : Host.Outcome State Fault Refusal :=
  eff s (s.mach.access Reg.SNS_SP_CTRL fun m =>
    let o := m.get F.SNS_SP_OWNER_owner
    if o ≠ master then m.refuse Err.notOwner (BitVec.ofNat 32 o) else m.commit)

/-! ## Parameter banks (R211) -/

/-- The shadow bank is locked: a swap is pending or a copy runs. -/
def Mach.shadowLocked (m : Mach) : Bool := m.flag F.SPN_BANK_STAT_pending || m.flag F.SPN_BANK_STAT_copy_busy

/-- A swap request; refused with POISON while the shadow bank holds a poisoned word (R451). -/
def Mach.swap (m : Mach) : Mach :=
  let named := m.flag F.SPN_BANK_CTRL_at_cycle || m.rd Reg.SPN_BANK_APPLY != 0
  let c := if named then m.rd Reg.SPN_BANK_APPLY else m.firstCycleAhead 100000
  if m.role = .standby then m.refuse Err.role
  else if m.shadowLocked then m.refuse Err.locked
  else if m.anyPoison m.shadowBase 0x10000 then m.refuse Err.poison
  else if named && !m.cycleNameOk c 100000 then m.refuse Err.refusedValue
  else m.item (.swapReq c (if m.mirrors then m.bankCrc m.shadowBase else 0))

def execSwap (_master : Nat) (s : State) : Host.Outcome State Fault Refusal :=
  eff s (s.mach.access Reg.SPN_BANK_CTRL Mach.swap)

/-- A cancel is accepted while the swap's sample instant is at least 2 µs away. -/
def Mach.cancel (m : Mach) : Mach :=
  match m.spin.swapAt with
  | none => m.refuse Err.refusedState
  | some c =>
    if m.role = .standby then m.refuse Err.role
    else if m.cyclesAhead c < 2 ^ 31 ∧ m.nowNs + 2000 ≤ m.instantAhead c then m.item .swapCancel
    else m.refuse Err.refusedState

def execCancel (_master : Nat) (s : State) : Host.Outcome State Fault Refusal :=
  eff s (s.mach.access Reg.SPN_BANK_CTRL Mach.cancel)

/-- A copy of the bank in force into the shadow bank begins. -/
def Mach.bankCopy (m : Mach) : Mach := if m.shadowLocked then m.refuse Err.locked else m.on F.SPN_BANK_STAT_copy_busy

def execCopy (_master : Nat) (s : State) : Host.Outcome State Fault Refusal :=
  eff s (s.mach.access Reg.SPN_BANK_CTRL Mach.bankCopy)

/-- A poisoned word of the source is poison in the copy too. -/
def Mach.copyPoison (m : Mach) (src dst n : Nat) : Mach :=
  let ps := (m.memi.poison.filter fun p => decide (src ≤ p) && decide (p < src + n)).map fun p => p - src + dst
  m.each ps Mach.poisonWord

/-- BANK_COPY_DONE: the copy completes and the shadow bank unlocks. -/
def Mach.bankCopied (m : Mach) : Mach :=
  if m.flag F.SPN_BANK_STAT_copy_busy then
    let m := m.meet m.bankBase 0x10000 Agent.digest
    let m := m.storeFull m.shadowBase (readMemWords m.mem m.bankBase 16384)
    (m.copyPoison m.bankBase m.shadowBase 0x10000).off F.SPN_BANK_STAT_copy_busy
  else m

def execBankCopyDone (s : State) : Host.Outcome State Fault Refusal := eff s s.mach.bankCopied

/-- BANK_CRC_DONE: the CRC-32C of the shadow bank of the last request. -/
def execBankCrcDone (s : State) : Host.Outcome State Fault Refusal :=
  let m := s.mach
  eff s (if m.flag F.SPN_BANK_STAT_crc_busy then
    let m := m.meet m.shadowBase 0x10000 Agent.digest
    (m.wr Reg.SPN_BANK_CRC_S (m.bankCrc m.shadowBase)).off F.SPN_BANK_STAT_crc_busy
  else m)

/-- A cycle has begun.
DEDUCED: log entry 30. -/
def Mach.reached (m : Mach) (c : Word) : Bool := decide ((BitVec.ofNat 32 (m.indexAt m.nowNs) - c).toNat < 2 ^ 31)

/-- BANK_SWAP: at the sample instant of its cycle the shadow bank becomes the bank in force, and the frame records it.
DEDUCED: log entry 30. -/
def Mach.bankSwap (m : Mach) : Mach :=
  match m.spin.swapAt with
  | none => m
  | some c =>
    if m.reached c then
      let m := (m.swapDrop.setB F.SPN_BANK_STAT_in_force (!m.flag F.SPN_BANK_STAT_in_force)).on F.SPN_IRQ_STAT_swap_done
      let m := m.wr Reg.SPN_BANK_CYC c
      m.when (m.cyclesOn && !m.sense.frozen) (·.frameBank)
    else m

def execBankSwap (s : State) : Host.Outcome State Fault Refusal := eff s s.mach.bankSwap

/-! ## Controls of the array (R204, R226, R228) -/

/-- A write of 1 to SPN_CTRL.run: in LOADED while cycles run; with PD_SPIN1 off it needs at most 64 nodes (R199). -/
def Mach.spnRun (m : Mach) : Mach :=
  if m.get F.SPN_STAT_state ≠ 1 ∨ m.cyclesOn = false then m.refuse Err.refusedState
  else if m.domOn .spin1 = false ∧ 64 < m.get (F.CH_CFG_nodes 0) then m.refuse Err.config
  else if m.spin.stopAt = some m.cycle then m
  else { m with spin := { m.spin with runPend := true } }

def execSpnRun (_master : Nat) (s : State) : Host.Outcome State Fault Refusal :=
  eff s (s.mach.access Reg.SPN_CTRL Mach.spnRun)

/-- A write of 1 to SPN_CTRL.stop: it cancels a run that waits, or ends the run with an estimation section. -/
def Mach.spnStop (m : Mach) : Mach :=
  if m.arrayRuns then { m with spin := { m.spin with stopPend := true, stopAt := some m.cycle } }
  else if m.get F.SPN_STAT_state = 1 ∧ m.spin.runPend then
    { m with spin := { m.spin with runPend := false, stopAt := some m.cycle } }
  else m.refuse Err.refusedState

def execSpnStop (_master : Nat) (s : State) : Host.Outcome State Fault Refusal :=
  eff s (s.mach.access Reg.SPN_CTRL Mach.spnStop)

/-- A write of 1 to SPN_CTRL.selftest (R226). -/
def Mach.spnSelftest (m : Mach) : Mach :=
  let c := m.rd Reg.SPN_ST_CYC
  if m.get F.SPN_STAT_state ≠ 2 then m.refuse Err.refusedState
  else if m.cyclesAhead c < 2 ^ 31 ∧ m.nowNs + 100000 ≤ m.instantAhead c then
    { m with spin := { m.spin with stPend := true } }
  else m.refuse Err.refusedValue

def execSpnSelftest (_master : Nat) (s : State) : Host.Outcome State Fault Refusal :=
  eff s (s.mach.access Reg.SPN_CTRL Mach.spnSelftest)

/-- CLR_TRAP (R218): refused in TRAPPED. -/
def Mach.trapClear (m : Mach) : Mach :=
  if m.get F.SPN_STAT_state = 3 then m.refuse Err.refusedState else m.clearRegs [Reg.SPN_TRAP, Reg.SPN_TRAP_CYC]

def execClrTrap (_master : Nat) (s : State) : Host.Outcome State Fault Refusal :=
  eff s (s.mach.access Reg.SPN_CTRL Mach.trapClear)

/-- What SPN_CTRL.clr_cnt clears (R228). -/
def spnCounters : List Nat :=
  [Reg.SPN_CNT_OVR_FAST, Reg.SPN_CNT_OVR_EST, Reg.SPN_CNT_POISON, Reg.SPN_CNT_NOEST, Reg.SPN_USE_MAX]

/-- SPN_CLR_CNT. -/
def execSpnClrCnt (_master : Nat) (s : State) : Host.Outcome State Fault Refusal :=
  eff s (s.mach.access Reg.SPN_CTRL (·.clearRegs spnCounters))

end Sys2Proof.Machine
end

