-- ==== Sys2Proof/Machine/Pair.lean ====
section
/-!
DEFINITION. The pair (ch. 11): the claim and its take-over (R350 to R357), the cross-link frames (R354, R355, R359),
divergence and the lane self-test (R226, R360), resynchronisation (R361) and readiness (R362).
-/

namespace Sys2Proof.Machine

/-- A cross-link frame arrives: PD_XLINK on, its clock good. The receiver is not dead. A frame whose hcrc or bcrc fails, or that
holds a code violation, is counted and has no other effect (R354, R364).
DEDUCED: log entry 64. -/
def Mach.xlRx (m : Mach) (bad : Bool) (f : Mach → Mach) : Mach :=
  if !m.xlUp then m else if bad then m.count Reg.XL_CNT_LINK_ERR else f (m.on F.XL_STAT_link_ok)

/-! ## The lease that this module sends (R354, R355) -/

/-- The body of this module's LEASE frame. -/
def Mach.leaseBody (m : Mach) : XlLease :=
  ⟨BitVec.ofNat 6 (m.get F.GLB_SLOT_slot), m.holdsClaim, BitVec.ofNat 2 m.role.code, m.flag F.XL_STAT_ready,
    BitVec.ofNat 3 m.runState.code, m.rd Reg.SPN_PROG_ID, m.bankCrcRead, BitVec.ofNat 2 (m.get F.SPN_ST_STAT_result)⟩

/-- A member of a pair sends LEASE every 500 µs and when its contents have changed.
DEDUCED: log entry 31. -/
def Mach.leaseForm (m : Mach) : Mach :=
  if m.flag F.XL_CFG_pair_en && m.xlUp then
    let b := m.leaseBody
    if m.pair.leaseSent = some b ∧ m.upNs < m.pair.leaseNs + 500000 then m
    else
      let m := m.sendXl (.lease b)
      { m with pair := { m.pair with leaseSent := some b, leaseNs := m.upNs } }
  else m

/-! ## Readiness (R362) -/

/-- What R362 asks for apart from the partner's presence. -/
def Mach.readyCore (m : Mach) : Bool :=
  m.pair.formed && m.get F.SPN_STAT_state == 2 && !m.flag F.XL_STAT_resync_busy && !m.flag F.XL_STAT_selftest_busy
    && !m.pair.notReady && m.pair.readyWait == 0 && !m.pair.divNotReady && m.pair.stateOk && m.pair.partnerProg == m.rd Reg.SPN_PROG_ID
    && m.pair.partnerBank == m.bankCrc m.bankBase

/-- Form XL_STAT.ready anew. -/
def Mach.readyForm (m : Mach) : Mach :=
  let r := !m.pair.partnerLost && m.readyCore
  if m.flag F.XL_STAT_ready = r then m else (m.setB F.XL_STAT_ready r).on F.XL_IRQ_STAT_ready_change

/-! ## The partner (R355) -/

/-- Items that wait are taken by the active alone (R358). -/
def Mach.takeWaiting (m : Mach) : Mach :=
  let ws := m.pair.mirror
  { m with pair := { m.pair with mirror := [] } }.each ws fun m w => m.applyItem w.item

/-- The partner becomes lost or comes back. A lost partner frees the locks of master 14 (R403), ends a resync (R361) and
every wait for an acknowledgement; in SAFE_HOLD and FAULT_LATCHED the claim holder's pair ends (R509).
DEDUCED: log entry 31. -/
def Mach.lostForm (m : Mach) : Mach :=
  let lost := !m.flag F.XL_STAT_lease_ok || !m.flag F.XL_STAT_link_ok || decide (2 ≤ m.pair.cycleGap)
  if lost && !m.pair.partnerLost then
    let m := { m with pair := { m.pair with partnerLost := true } }.on F.XL_IRQ_STAT_partner_lost
    let m := ((m.releaseLocks 14).resyncAbort).takeWaiting
    let m := if m.runState.rest && m.pair.formed && m.holdsClaim then
        { m with role := .solo, pair := { m.pair with formed := false } }.canPair
      else m
    m.readyForm
  else if !lost && m.pair.partnerLost then { m with pair := { m.pair with partnerLost := false } }.readyForm
  else m

/-- A STANDBY that kept BRK_TRIP through a module reset releases it after 10 s under the trip rule, unless the partner's LEASE
frames show PRECHARGE, RUN or STOPPING (R477). -/
def Mach.heldCheck (m : Mach) : Mach :=
  match m.power.heldStandby with
  | none => m
  | some t =>
    let runs := m.flag F.XL_STAT_lease_ok && decide (2 ≤ m.get F.XL_STAT_partner_run)
      && decide (m.get F.XL_STAT_partner_run ≤ 4)
    if m.upNs ≤ t + 10 * 1000000000 || runs then m
    else { m with power := { m.power with heldStandby := none } }.startTripRule

/-- LEASE_EXPIRY. -/
def execLeaseExpiry (s : State) : Host.Outcome State Fault Refusal :=
  eff s ((((s.mach.await .lease 2000000).off F.XL_STAT_lease_ok).lostForm).heldCheck).timeStat

/-- XLINK_DEAD. -/
def execXlinkDead (s : State) : Host.Outcome State Fault Refusal := eff s (((s.mach.when (s.mach.flag F.XL_STAT_link_ok) (·.mark .xlink)).off F.XL_STAT_link_ok).lostForm)

/-! ## Resynchronisation (R361) -/

/-- A resync is named for cycle `c`. -/
def Mach.resyncAt (m : Mach) (c : Word) : Mach :=
  let m := m.on F.XL_STAT_resync_busy
  { m with pair := { m.pair with resync := some c, resyncEnd := none, storeQueue := [], snapAt := 0, resyncRetry := false
                                 stateOk := false } }.mark .resync |>.readyForm

/-- The active starts a resync. -/
def Mach.resyncStart (m : Mach) : Mach :=
  let c := m.firstCycleAhead 100000
  (m.sendXl (.notice (.resyncStart c))).resyncAt c

/-- A resync may start: the pair is formed, its partner there, none runs. -/
def Mach.resyncCan (m : Mach) : Bool :=
  m.role == .active && m.pair.formed && !m.pair.partnerLost && !m.flag F.XL_STAT_resync_busy

/-- RESYNC: accepted on the ACTIVE module in RUN (R364). -/
def Mach.resyncAsk (m : Mach) : Mach :=
  if m.role ≠ .active then m.refuse Err.role
  else if m.runState ≠ .run then m.refuse Err.refusedState
  else if m.resyncCan then { m with pair := { m.pair with resyncFails := 0 } }.resyncStart else m.refuse Err.refusedState

def execResync (_master : Nat) (s : State) : Host.Outcome State Fault Refusal :=
  eff s (s.mach.access Reg.XL_CTRL Mach.resyncAsk)

/-- RESYNC_TIMEOUT. -/
def execResyncTimeout (s : State) : Host.Outcome State Fault Refusal :=
  eff s (((s.mach.when (s.mach.flag F.XL_STAT_resync_busy) (·.await .resync 10000000)).resyncAbort).readyForm)

/-- RESYNC_RETRY: 1000 cycles after an aborted attempt. -/
def execResyncRetry (s : State) : Host.Outcome State Fault Refusal :=
  eff s (if s.mach.pair.resyncRetry && s.mach.resyncCan then s.mach.resyncStart else s.mach)

/-- The active forms up to `k` SNAP frames, in ascending order, each word read as its frame is formed; after the last one it names
the end cycle, the one after the cycle in progress. -/
def Mach.snapSend (m : Mach) (k : Nat) : Mach :=
  if m.role = .active ∧ m.pair.resyncEnd = none ∧ m.pair.snapAt < 1024 then
    let from' := m.pair.snapAt
    let n := min k (1024 - from')
    let m := m.meet (laneMemBase + 1024 * from') (1024 * n) Agent.xlink
    let m := m.each (List.range n) fun m i =>
      let a := laneMemBase + 1024 * (from' + i)
      m.sendXl (.snap (1024 * (from' + i)) (readMemWords m.mem a 256)
        ((List.range 128).filter fun k => m.poisoned (a + 8 * k)))
    let m := { m with pair := { m.pair with snapAt := from' + n } }
    if from' + n = 1024 then
      let e := m.cycle + 1
      let m := m.sendXl (.notice (.resyncEnd e))
      { m with pair := { m.pair with resyncEnd := some e } }
    else m
  else m

/-- The SNAP frames that a cycle has room for: 1048 bytes each at 2.5 Gbit/s.
DEDUCED: log entry 31. -/
def Mach.snapRoom (m : Mach) : Nat := max 1 (m.periodNs * 25 / 83840)

/-- The end cycle has passed: the standby's array is RUNNING again, and estimation sections run. -/
def Mach.resyncOver (m : Mach) : Mach :=
  let m := ((m.off F.XL_STAT_resync_busy).on F.XL_IRQ_STAT_resync_done).count Reg.XL_CNT_RESYNC
  let m := m.set F.XL_STAT_div 0
  let m := { m with pair := { m.pair with resync := none, resyncEnd := none, storeQueue := [], resyncFails := 0
                                          resyncRetry := false, notReady := false, divNotReady := false
                                          stateOk := false, runIn := 0, runOut := 0, runCmd := 0 } }
  let run := m.role == .standby && m.get F.SPN_STAT_state == 1 && m.cyclesOn
  (m.when run fun m => (m.set F.SPN_STAT_state 2).on F.SPN_IRQ_STAT_running).readyForm

/-- RESYNC_END_CYCLE: on the active the SNAP frames that are left leave, and the end cycle e is named; once e has passed, in
both modules the resync ends.
DEDUCED: log entry 31. -/
def Mach.resyncEnds (m : Mach) : Mach :=
  if m.flag F.XL_STAT_resync_busy then
    match m.pair.resyncEnd with
    | none => m.snapSend 1024
    | some e => if cycleAfter m.cycle e then m.resyncOver else m
  else m

def execResyncEndCycle (s : State) : Host.Outcome State Fault Refusal := eff s s.mach.resyncEnds

/-- A standby takes lane-memory words. A lane of a domain that is off discards them (R199). -/
def Mach.laneIn (m : Mach) (o : Nat) (ws : List Word) : Mach :=
  if m.role == .standby && m.flag F.XL_STAT_resync_busy && decide (o + 4 * ws.length ≤ 0x100000)
      && (decide (o + 4 * ws.length ≤ 0x80000) || m.domOn .spin1) then
    m.storeWords (laneMemBase + o) ws
  else m

/-- The code words that a SNAP frame sends as poison, by their places in it, are poisoned in the standby's lane memory too
(R448). -/
def Mach.snapIn (m : Mach) (o : Nat) (ws : List Word) (poison : List Nat) : Mach :=
  let there := m.role == .standby && m.flag F.XL_STAT_resync_busy
  let ps := (poison.map fun k => o + 8 * k).filter fun o => decide (o < 0x80000 ∨ o < 0x100000 ∧ m.domOn .spin1)
  ((m.laneIn o ws).when there) fun m => m.each ps fun m o => m.poisonWord (laneMemBase + o)

/-- SNAP: 1024 bytes. -/
def execSnap (offset : Nat) (data : List Word) (poison : List Nat) (bad : Bool) (s : State) :
    Host.Outcome State Fault Refusal := eff s (s.mach.xlRx bad fun m => m.snapIn offset data poison)

/-- STORE: the stores of one fast section, in program order. -/
def execStore (stores : List (BitVec 20 × Word)) (bad : Bool) (s : State) : Host.Outcome State Fault Refusal :=
  eff s (s.mach.xlRx bad fun m => m.each stores fun m x => m.laneIn x.1.toNat [x.2])

/-! ## The lane self-test (R226, R360) -/

/-- The self-test of a compute divergence from cycle `c`. -/
def Mach.testFrom (m : Mach) (c : Word) : Mach :=
  let m := (m.on F.XL_STAT_selftest_busy).wr Reg.SPN_ST_CYC c
  { m.set F.SPN_ST_STAT_result 0 with
    pair := { m.pair with partnerSt := 0, runOut := 0 }
    spin := { m.spin with stPend := m.spin.stPend || m.get F.SPN_STAT_state == 2 } }.readyForm

/-- Both results are known: the table of R360. -/
def Mach.testResolve (m : Mach) : Mach :=
  let own := m.get F.SPN_ST_STAT_result
  let other := m.pair.partnerSt.toNat
  if m.flag F.XL_STAT_selftest_busy && decide (2 ≤ own) && decide (2 ≤ other) then
    let m := m.off F.XL_STAT_selftest_busy
    let act := m.role == .active
    let alarm := fun (m : Mach) => m.on F.XL_IRQ_STAT_alarm
    let drop := fun (m : Mach) => { m with pair := { m.pair with divNotReady := true } }
    let m := match own == 2, other == 2 with
      | true, true => (alarm m).when (act && m.resyncCan) (·.resyncStart)
      | true, false => if act then alarm m else m
      | false, true => if act then drop (m.releaseClaim .selftest) else drop (alarm m)
      | false, false => if act then alarm m else drop (alarm m)
    m.readyForm
  else m

/-- LANE_SELFTEST_END (R226): once its estimation sections have run; the array is RUNNING again. -/
def Mach.selftestEnd (m : Mach) (failed : BitVec 128) : Mach :=
  if m.get F.SPN_STAT_state = 4 ∧ m.spin.stLeft = 0 ∧ m.spin.stopPend then m.estOver
  else if m.get F.SPN_STAT_state = 4 ∧ m.spin.stLeft = 0 then
    let m := m.each [0, 1, 2, 3] fun m k => m.wr (Reg.SPN_ST_FAIL k) (failed.extractLsb' (32 * k) 32)
    let m := (m.set F.SPN_ST_STAT_result (if failed = 0 then 2 else 3)).on F.SPN_IRQ_STAT_st_done
    ((m.set F.SPN_STAT_state 2).set F.SPN_STAT_section 2).testResolve
  else m

def execLaneSelftestEnd (failed : BitVec 128) (s : State) : Host.Outcome State Fault Refusal :=
  eff s (s.mach.selftestEnd failed)

/-! ## Received frames (R354, R359) -/

/-- CYCLE: the partner's sense values; a frame that comes in time enters this cycle's frame (R206, R359). -/
def Mach.xlCycleRx (m : Mach) (f : XlCycle) (late : Bool) (arrival : Int) : Mach :=
  let m := { m with pair := { m.pair with cycleRx := some f, cycleLate := late, cycleGap := 0 } }.lostForm
  (m.when (m.cyclesOn && !m.sense.frozen && m.pair.formed) (·.frameSense)).pairOffset arrival

def execCycle (f : XlCycle) (late : Bool) (arrival : Int) (bad : Bool) (s : State) : Host.Outcome State Fault Refusal :=
  eff s (s.mach.xlRx bad (·.xlCycleRx f late arrival))

/-- CMDX: the active's command slots and its toggle record. -/
def execCmdx (f : XlCmdx) (onTime bad : Bool) (s : State) : Host.Outcome State Fault Refusal :=
  eff s (s.mach.xlRx bad fun m =>
    m.when m.pair.formed fun m => { m with pair := { m.pair with cmdxRx := some f, cmdxTime := onTime } })

/-- State digests are compared as they arrive (R360, R362). -/
def Mach.stateCompare (m : Mach) (cycle value : Word) : Mach :=
  if m.rd Reg.SPN_DIG_STATE_CYC = cycle then
    if m.rd Reg.SPN_DIG_STATE = value then { m with pair := { m.pair with stateOk := true } }.readyForm
    else
      let m := ((m.count Reg.XL_CNT_DIV_STATE).on F.XL_IRQ_STAT_divergence).set F.XL_STAT_div 3
      let m := { m.wr Reg.XL_DIV_CYC cycle with pair := { m.pair with stateOk := false } }.readyForm
      m.when (m.flag F.XL_CFG_resync_auto && m.resyncCan) (·.resyncStart)
  else m

/-- DIGEST: kept for the comparison of its cycle. -/
def Mach.digestRx (m : Mach) (cycle : Word) (kind : DigestKind) (value : Word) : Mach :=
  if m.pair.formed then
    match kind with
    | .input => { m with pair := { m.pair with digIn := some (cycle, value) } }
    | .output => { m with pair := { m.pair with digOut := some (cycle, value) } }
    | .state => { m with pair := { m.pair with digState := some (cycle, value) } }.stateCompare cycle value
  else m

def execDigest (cycle : Word) (kind : DigestKind) (value : Word) (bad : Bool) (s : State) :
    Host.Outcome State Fault Refusal := eff s (s.mach.xlRx bad (·.digestRx cycle kind value))

/-- SLOTX of a train with sequence `seq`: valid slots of this cycle, and valid records of this cycle's frame and the next one's,
become secondary copies when they come before their freeze instant (R108, R363). -/
def Mach.slotxRx (m : Mach) (seq : Word) (slots : List SlotRx) (recs : List RecordRx) (onTime : Bool) : Mach :=
  let now := seq == m.cycle && !m.chain.frozen
  if m.pair.formed && onTime && (now || seq == m.cycle + 1) then
    let ok := (slots.filter fun s => now && decide (s.pos < m.nodeCount) && slotValid s seq).map fun s => (s.pos, s.word)
    let rok := (recs.filter fun r => m.recordValid r seq).map fun r => (seq, r.pos, r.words)
    { m with pair := { m.pair with slotxSlots := m.pair.slotxSlots ++ ok, slotxRecs := m.pair.slotxRecs ++ rok } }
  else m

def execSlotx (cycle : Word) (slots : List SlotRx) (recs : List RecordRx) (onTime bad : Bool) (s : State) :
    Host.Outcome State Fault Refusal := eff s (s.mach.xlRx bad (·.slotxRx cycle slots recs onTime))

/-- LEASE (R355): the partner's lease is renewed and its state learned. A STANDBY that joins a running ACTIVE module is
resynchronised (R361). That the partner's settings are this module's (R348) comes with its lease.
DEDUCED: log entry 31. -/
def Mach.leaseRx (m : Mach) (f : XlLease) (alike : Bool) : Mach :=
  let joins := f.role == 2 && (m.get F.XL_STAT_partner_role != 2 || m.pair.partnerLost)
    && (m.runState == .precharge || m.runState == .run || m.runState == .stopping)
  let m := (m.set F.XL_STAT_partner_slot f.slot.toNat).set F.XL_STAT_partner_run f.runState.toNat
  let m := (m.set F.XL_STAT_partner_role f.role.toNat).setB F.XL_STAT_partner_ready f.ready
  let m := { (m.mark .lease).on F.XL_STAT_lease_ok with
    pair := { m.pair with partnerClaim := f.claim, partnerProg := f.progId, partnerBank := f.bankCrc
                          partnerSt := f.stResult, alike := alike } }
  let m := m.lostForm.testResolve
  let m := m.when (joins && m.resyncCan) fun m => { m with pair := { m.pair with resyncFails := 0 } }.resyncStart
  (m.readyForm.heldCheck).timeStat

def execLease (f : XlLease) (alike bad : Bool) (s : State) : Host.Outcome State Fault Refusal :=
  eff s (s.mach.xlRx bad (·.leaseRx f alike))

/-- NOTICE: a release with its cause, a stop notice, a self-test request, the start or end of a resync. -/
def Mach.noticeRx (m : Mach) : NoticeKind → Mach
  | .release c =>
    { m with pair := { m.pair with noticeNs := some m.upNs, noticeCause := some c, partnerClaim := false } }
  | .stop => m.when m.pair.formed (·.stopWith .partner)
  | .selftest c => m.when m.pair.formed (·.testFrom c)
  | .resyncStart c => m.when (m.role == .standby) (·.resyncAt c)
  | .resyncEnd e => m.when (m.flag F.XL_STAT_resync_busy) fun m => { m with pair := { m.pair with resyncEnd := some e } }

def execNotice (n : NoticeKind) (bad : Bool) (s : State) : Host.Outcome State Fault Refusal :=
  eff s (s.mach.xlRx bad (·.noticeRx n))

/-- ACK: the active takes the item that the sequence names.
DEDUCED: log entry 31. -/
def Mach.ackRx (m : Mach) (seq : Word) : Mach :=
  match m.pair.mirror.find? (·.seq == seq) with
  | none => m
  | some w => { m with pair := { m.pair with mirror := m.pair.mirror.filter (·.seq != seq) } }.applyItem w.item

def execAck (seq : Word) (_ok bad : Bool) (s : State) : Host.Outcome State Fault Refusal :=
  eff s (s.mach.xlRx bad (·.ackRx seq))

/-- MIRROR_ACK_TIMEOUT: the active takes the oldest item alone; a standby counts it and is not ready. -/
def Mach.mirrorTimeout (m : Mach) : Mach :=
  if m.role = .standby then
    { m.count Reg.XL_CNT_MIRROR_NACK with pair := { m.pair with notReady := true } }.readyForm
  else match m.pair.mirror with
    | [] => m
    | w :: rest =>
      let m := m.passUntil w.ns 10000
      { m with pair := { m.pair with mirror := rest } }.applyItem w.item

def execMirrorAckTimeout (s : State) : Host.Outcome State Fault Refusal := eff s s.mach.mirrorTimeout

/-! ## The claim (R350 to R353, R356, R509) -/

/-- CLAIM_OUT is asserted: with a settle, or at once after a hand-over (R351). -/
def Mach.takeClaim (m : Mach) (trigger : Nat) (settle : Bool) : Mach :=
  let m := ((m.on F.XL_STAT_claim_out).set F.XL_SWITCH_trigger trigger).on F.XL_IRQ_STAT_switchover
  let m := (m.count Reg.XL_CNT_SWITCH).captureSource 9
  let m := m.ownSetpoint.wr Reg.TB_PAIR_OFS 0
  { m with role := .active, pair := { m.pair with settle := settle, settled := !settle, settleNs := m.upNs, noticeNs := none } }

/-- The trigger of R356 that holds, by its code. A standby is asked for readiness apart from the partner's loss, which
LINK_DEAD and LEASE presuppose.
DEDUCED: log entry 31. -/
def Mach.takeTrigger (m : Mach) : Option Nat :=
  let notice : Bool := match m.pair.noticeNs with
    | some t => decide (m.upNs ≤ t + 100000) && m.pair.noticeCause != some .runState
    | none => false
  let quiet : Bool := match m.pair.claimSeen with
    | some c => decide (2 ≤ (m.cycle - c).toNat)
    | none => true
  if notice then some 0 else if !m.flag F.XL_STAT_link_ok then some 1
  else if !m.flag F.XL_STAT_lease_ok && quiet then some 2 else none

/-- The lower-slot module takes the claim without a trigger: at a start, and after a release with cause RUN_STATE
(R350, R509).
DEDUCED: log entry 31. -/
def Mach.lowerTakes (m : Mach) : Bool :=
  m.posZero && (m.runState == .starting || (m.runState.rest && m.cyclesOn))

/-- CLAIM_TAKE: CLAIM_IN has read released for 10 µs. A partner whose LEASE still shows the claim means a faulty line. -/
def Mach.claimTake (m : Mach) : Mach :=
  match m.pair.formed && m.role == .standby && !m.flag F.XL_STAT_claim_in, m.pair.releasedNs with
  | true, some t =>
    let m := m.passUntil t 10000
    if m.pair.partnerClaim && m.flag F.XL_STAT_lease_ok then m.on F.XL_IRQ_STAT_claim_fault
    else if m.lowerTakes then m.takeClaim 0 true
    else match m.takeTrigger with
      | some k => if m.readyCore || m.runState.rest then
          m.takeClaim k (!(k == 0 && m.pair.noticeCause == some .handover)) else m
      | none => m
  | _, _ => m

def execClaimTake (s : State) : Host.Outcome State Fault Refusal := eff s s.mach.claimTake

/-- CLAIM_SETTLE_END: XL_CFG.settle microseconds after CLAIM_OUT was asserted; from the next command launch instant the frames
carry the claim (R351). -/
def execClaimSettleEnd (s : State) : Host.Outcome State Fault Refusal :=
  let m := s.mach
  eff s (if m.pair.settle then
    let m := m.passUntil m.pair.settleNs (m.get F.XL_CFG_settle * 1000)
    { m with pair := { m.pair with settle := false, settled := true } }
  else m)

/-- The settle is aborted: CLAIM_IN reads asserted (R351). -/
def Mach.settleAbort (m : Mach) : Mach :=
  let m := (((m.off F.XL_STAT_claim_out).on F.XL_IRQ_STAT_switchover).captureSource 9)
  { m.when m.pair.formed Mach.standBy with pair := { m.pair with settle := false, settled := false } }

/-- CLAIM_IN_CHANGE (R351, R352, R380): read after its 10 µs filter.
DEDUCED: log entry 31. -/
def Mach.claimIn (m : Mach) (asserted : Bool) : Mach :=
  if m.flag F.XL_STAT_claim_in = asserted then m
  else
    let m := (m.setB F.XL_STAT_claim_in asserted).captureSource 9
    let m := { m with pair := { m.pair with releasedNs := if asserted then none else some m.upNs } }
    if asserted then if m.pair.settle then m.settleAbort else m.dualClaim else m

def execClaimInChange (asserted : Bool) (s : State) : Host.Outcome State Fault Refusal := eff s (s.mach.claimIn asserted)

/-- CLAIM_RELEASE (R353). -/
def execClaimRelease (cause : ClaimCause) (s : State) : Host.Outcome State Fault Refusal :=
  eff s (s.mach.releaseClaim cause).readyForm

/-- CLAIM_LAPSE_TRIP (R356): a standby that is not ready sees the claim lapse and trips. -/
def Mach.claimLapse (m : Mach) : Mach :=
  if m.pair.formed && m.role == .standby && !m.flag F.XL_STAT_claim_in && m.runState.busy && !m.readyCore then
    m.safetyCause .protReq
  else m

def execClaimLapseTrip (s : State) : Host.Outcome State Fault Refusal := eff s s.mach.claimLapse

/-- The hand-over is planned (R356). -/
def Mach.handoverPlan (m : Mach) : Mach :=
  { m with pair := { m.pair with handoverAt := some (m.firstCycleAhead 100000) } }

/-- HANDOVER: on the ACTIVE module in RUN with a ready partner. -/
def Mach.handoverAsk (m : Mach) : Mach :=
  if m.role ≠ .active then m.refuse Err.role
  else if m.runState = .run ∧ m.flag F.XL_STAT_partner_ready then m.handoverPlan else m.refuse Err.refusedState

def execHandover (_master : Nat) (s : State) : Host.Outcome State Fault Refusal :=
  eff s (s.mach.access Reg.XL_CTRL Mach.handoverAsk)

/-- The XL counters (R365). -/
def Mach.xlClear (m : Mach) : Mach :=
  m.clearRegs [Reg.XL_CNT_DIV_IN, Reg.XL_CNT_DIV_OUT, Reg.XL_CNT_DIV_STATE, Reg.XL_CNT_CMD_MISM,
    Reg.XL_CNT_MIRROR_NACK, Reg.XL_CNT_RELAY_LATE, Reg.XL_CNT_SWITCH, Reg.XL_CNT_RESYNC, Reg.XL_CNT_LINK_ERR]

def execXlClrCnt (_master : Nat) (s : State) : Host.Outcome State Fault Refusal :=
  eff s (s.mach.access Reg.XL_CTRL Mach.xlClear)

/-! ## Divergence (R360) -/

/-- A class of divergence is found. -/
def Mach.diverged (m : Mach) (cycle : Word) (code : Nat) : Mach :=
  let m := (m.on F.XL_IRQ_STAT_divergence).wr Reg.XL_DIV_CYC cycle
  m.when (code != 0) (·.set F.XL_STAT_div code)

/-- The active's command slots of cycle `c`: its train at port A in RING_CLOSED, its CMDX frame in RING_BROKEN (R360). -/
def Mach.activeSlots (m : Mach) (c : Word) : Option (List (BitVec 16)) :=
  if m.ringBroken then (m.pair.cmdxRx.filter fun f => f.cycle == c).map (·.slots)
  else (m.pair.trainSeen.filter fun t => t.1 == c + 1).map (·.2)

/-- Whether a command slot that the standby would have launched in cycle `c` differs from the active's; none where one of the two
trains is not at hand. -/
def Mach.slotsDiffer (m : Mach) (c : Word) : Option Bool :=
  if m.role = .standby ∧ m.fly.launchedAt = some c then (m.activeSlots c).map (· != m.fly.launched) else none

/-- The module compares the digests of the last complete pair; the standby also its command slots with the active's. A comparison
that cannot be made leaves its run as it is.
DEDUCED: log entry 31. -/
def Mach.divergence (m : Mach) : Mach :=
  let c := m.rd Reg.SPN_DIG_CYC
  match m.pair.digIn, m.pair.digOut with
  | some (ci, vi), some (co, vo) =>
    if ci = c ∧ co = c ∧ m.pair.formed then
      let sameIn := vi == m.rd Reg.SPN_DIG_IN
      let sameOut := vo == m.rd Reg.SPN_DIG_OUT
      let cmp := if sameIn && sameOut then m.slotsDiffer c else some false
      let slots := cmp == some true
      let p := m.pair
      let m := { m with pair := { p with runIn := if sameIn then 0 else min 1000 (p.runIn + 1)
                                         runOut := if sameIn && !sameOut then min 3 (p.runOut + 1) else 0
                                         runCmd := match cmp with
                                           | none => p.runCmd
                                           | some d => if d then min 3 (p.runCmd + 1) else 0 } }
      let m := m.when (!sameIn) fun m => (m.count Reg.XL_CNT_DIV_IN).diverged c 1
      let m := m.when (m.role == .standby && m.pair.runIn == 1000) fun m =>
        { m with pair := { m.pair with divNotReady := true } }
      let m := m.when (sameIn && !sameOut) fun m => (m.count Reg.XL_CNT_DIV_OUT).when (m.pair.runOut == 3) (·.diverged c 2)
      let m := m.when (m.pair.runOut == 3 && m.role == .active && !m.flag F.XL_STAT_selftest_busy) fun m =>
        let s := m.firstCycleAhead 100000
        (m.sendXl (.notice (.selftest s))).testFrom s
      let m := m.when slots fun m => (m.count Reg.XL_CNT_CMD_MISM).when (m.pair.runCmd == 3) fun m =>
        (m.diverged c 0).on F.XL_IRQ_STAT_alarm
      let m := m.when (sameIn && sameOut && m.get F.XL_STAT_div == 1) (·.set F.XL_STAT_div 0)
      m.readyForm
    else m
  | _, _ => m

def execDivergenceCheck (s : State) : Host.Outcome State Fault Refusal := eff s s.mach.divergence

/-! ## The sample instant in a pair -/

/-- Relay starts at the first boundary after a break with the standby ready, and stops when the ring closes or CLAIM_IN
reads released (R363); frames of SLOTX show the partner's break. -/
def Mach.relayForm (m : Mach) : Mach :=
  let broken := m.ringBroken || !m.pair.slotxSlots.isEmpty || !m.pair.slotxRecs.isEmpty
  let on := m.role == .standby && m.flag F.XL_STAT_claim_in && broken && (m.flag F.XL_STAT_relay || m.flag F.XL_STAT_ready)
  m.setB F.XL_STAT_relay on

/-- One of the cycles has passed in which a standby whose sense interface began anew is not ready (R474).
DEDUCED: log entry 27. -/
def Mach.readyTick (m : Mach) : Mach :=
  if m.pair.readyWait = 0 then m
  else { m with pair := { m.pair with readyWait := m.pair.readyWait - 1 } }.readyForm

/-- The cycle boundary in a formed pair: CYCLE frames missed, relay, slots of the old cycle dropped, the lease. -/
def Mach.pairInstant (m : Mach) (old : Word) : Mach :=
  if m.pair.formed then
    let seen : Bool := match m.pair.cycleRx with | some f => f.cycle == old | none => false
    let gap := if seen then 0 else min 2 (m.pair.cycleGap + 1)
    let m := { m with pair := { m.pair with cycleGap := gap } }.lostForm
    let m := m.readyTick.relayForm
    { m with pair := { m.pair with slotxSlots := [], slotxRecs := m.pair.slotxRecs.filter fun r => r.1 == m.cycle } }.markSend.leaseForm
  else m.leaseForm

end Sys2Proof.Machine
end

