-- ==== Sys2Proof/Machine/Cycle.lean ====
section
/-!
DEFINITION. The cycle (R131, R132): the sample instant with all that comes about at it, the freeze instant, section
overruns and the digests (R224, R225).
-/

namespace Sys2Proof.Machine

/-! ## The sample instant (R131) -/

/-- Time comes to the next sample instant: comparator 0 fires (R379), and the cycle has its number (R130).
DESIGN CHOICE: log entry 12. -/
def Mach.toInstant (m : Mach) : Mach :=
  let m := if m.cmpOn 0 then (m.passTo (m.dueNs 0).toNat).cmpFire 0
    else m.passTo (m.instantOf (m.firstIndexFrom (m.nowNs + 1)))
  m.wr Reg.FLY_CYC_NUM (BitVec.ofNat 32 (m.indexAt m.nowNs))

/-- The old cycle's estimation section did or did not run (R205, R227). -/
def Mach.estCount (m : Mach) : Mach :=
  let ran := m.spin.estRan
  let m := m.when (!ran && m.arrayRuns) (·.count Reg.SPN_CNT_NOEST)
  { m with spin := { m.spin with estGap := if ran then 0 else min 255 (m.spin.estGap + 1), estRan := false
                                 fastRan := false } }

/-- A join ends with its first cycle (R469): the run state is the partner's, the resync of R361 follows. -/
def Mach.joinEnd (m : Mach) : Mach :=
  let st := m.get F.XL_STAT_partner_run
  if st = 2 ∨ st = 3 ∨ st = 4 then
    let m := m.recordRun (RunState.ofCode st) Cause.hostStart
    let m := m.when (st == 2) fun m =>
      { m.set F.FLY_PRE_STAT_pre_state 1 with fly := { m.fly with pre := { PrechargeState.init with residualOk := true } } }
    { m.setStep 0 with power := { m.power with joining := false } }
  else m.startFail Err.pair

/-- An accepted run begins (R204, R210); in a start the SETTLE step begins (R467). -/
def Mach.arrayBegins (m : Mach) : Mach :=
  let id := crcWords (readMemWords m.mem progMemBase (m.get F.SPN_PROG_LEN_len))
  let m := ((m.set F.SPN_STAT_state 2).wr Reg.SPN_PROG_ID id).wr Reg.SPN_START_CYC m.cycle
  let m := { m.on F.SPN_IRQ_STAT_running with spin := { m.spin with runPend := false } }
  let m := m.when (m.inStep Step.cycles) fun m =>
    { m.setStep Step.settle with power := { m.power with settleBad := false, startLeft := 1000 } }
  m.when m.power.joining (·.joinEnd)

/-- The array at the sample instant: a run that waits, a stop of a self-test, the start of a self-test (R204, R226). -/
def Mach.arrayInstant (m : Mach) : Mach :=
  let m := { m with spin := { m.spin with stopAt := none } }
  let m := m.when (m.spin.runPend && m.get F.SPN_STAT_state == 1) (·.arrayBegins)
  let m := m.when (m.get F.SPN_STAT_state == 4) (·.set F.SPN_STAT_section 2)
  let m := m.when (m.get F.SPN_STAT_state == 4 && m.spin.stopPend) (·.estOver)
  if m.spin.stPend && m.get F.SPN_STAT_state == 2 && m.cycle == m.rd Reg.SPN_ST_CYC then
    let k := m.cyclesOf 200000
    { (m.set F.SPN_STAT_state 4).set F.SPN_ST_STAT_result 1 with spin := { m.spin with stPend := false, stLeft := k } }
  else m

/-- The cycles of the SETTLE step are counted; where the INSULATION step waits 100 ms, its cycles count down to PRECHARGE (R467). -/
def Mach.startCount (m : Mach) : Mach :=
  if m.inStep Step.insulation && decide (0 < m.power.startLeft) then
    let m := { m with power := { m.power with startLeft := m.power.startLeft - 1 } }
    m.when (m.power.startLeft == 0) (·.enterPrecharge)
  else if m.inStep Step.settle then
    { m with power := { m.power with startLeft := m.power.startLeft - 1 } }
  else m

/-- FLY_BLOCK_k as it applies in the present cycle (R146): unchanged while its last write waits for a later cycle. -/
def Mach.blockAt (m : Mach) (k : Fin 4) : Word :=
  let mine := m.fly.blockPend.filter fun e => e.2.1 == k.val
  match mine.getLast? with
  | none => m.rd (Reg.FLY_BLOCK k)
  | some e =>
    if cycleAfter e.1 m.cycle then
      ((mine.filter fun e => !cycleAfter e.1 m.cycle).getLast?.map (·.2.2)).getD m.fly.blockNow[k]
    else e.2.2

/-- What begins anew with the cycle: no EMIT and no control record yet (R224), FLY_BLOCK as it applies (R146), the frame open, no
sense data. -/
def Mach.cycleOpens (m : Mach) : Mach :=
  let block := Vector.ofFn m.blockAt
  let pend := m.fly.blockPend.filter fun e => cycleAfter e.1 m.cycle
  { m with fly := { m.fly with emit := none, blockNow := block, blockPend := pend }
           chain := { m.chain with frozen := false }
           sense := { m.sense with frozen := false, data := none }
           spin := { m.spin with ctlRec := SpinState.init.ctlRec } }

/-- SAMPLE_INSTANT. A section still in progress has overrun its budget. -/
def Mach.sampleInstant (m : Mach) : Mach :=
  if m.cyclesOn then
    let m := m.when m.inSection (·.overrun)
    let old := m.cycle
    let m := (m.toInstant.stateDigestTake old).prechargeCheck.estCount
    let m := (m.pairInstant old).cycleBoundary m.cycle
    let cell := m.cycle.toNat % m.cellDiv == 0
    let m := { m with chain := { m.chain with nodes := m.chain.nodes.map fun (n : NodeModel) => n.instant m.cycle cell } }
    m.hystCycle.arrayInstant.startCount.cycleOpens.frameOpen
  else m

def execSampleInstant (s : State) : Host.Outcome State Fault Refusal := eff s s.mach.sampleInstant

/-- COMPARATOR_FIRE (R379): comparator 0 gives the sample instants. -/
def execComparatorFire (c : BitVec 4) (s : State) : Host.Outcome State Fault Refusal :=
  eff s (if c = 0 then s.mach.sampleInstant else s.mach.comparator c.toNat)

/-! ## The freeze instant (R108, R136) -/

/-- The STOP_CLEAR step (R467): every slot shows its latches clear within 10 cycles. -/
def Mach.stopClearCheck (m : Mach) : Mach :=
  if m.inStep Step.stopClear then
    let clear := m.positions.all fun n => (m.lastSlot n).isSome && m.chain.slotAge.toList.getD n 0 == 0
      && !m.slotBit n 12 && !m.slotBit n 13
    let m := { m with power := { m.power with startLeft := m.power.startLeft - 1 } }
    if clear then m.insulationStep else m.when (m.power.startLeft == 0) (·.startFail Err.nodeNack)
  else m

/-- stop_cause. -/
def Mach.stopCause (m : Mach) : Nat := m.get F.SNS_PROT_STAT_stop_cause

/-- A protection stop starts (R312): the first cause is kept, an immediate one replaces an orderly one. -/
def Mach.protStop (m : Mach) (cause : Nat) : Mach :=
  let cur := m.stopCause
  if cause ≠ 0 ∧ (cur = 0 ∨ (cur < 0x10 ∧ 0x10 ≤ cause)) then
    ((m.set F.SNS_PROT_STAT_stop_cause cause).on F.SNS_PROT_IRQ_STAT_stop).count Reg.SNS_CNT_PSTOP
  else m

/-- The first slot with ov_uv while the string runs is recorded as stop cause COMPARATOR (R299). -/
def Mach.comparatorStop (m : Mach) : Mach :=
  let runs := m.runState == .precharge || m.runState == .run || m.runState == .stopping
  let seen := m.positions.any fun n => m.chain.slotAge.toList.getD n 1 == 0 && m.slotBit n 15
  m.when (runs && seen && m.domOn .sense) (·.protStop 0x14)

/-- A slot of the SETTLE step with ov_uv or loop_lost (R467). -/
def Mach.settleWatch (m : Mach) : Mach :=
  let bad := m.positions.any fun n => m.chain.slotAge.toList.getD n 1 == 0 && (m.slotBit n 15 || m.slotBit n 14)
  m.when (m.inStep Step.settle && bad) fun m => { m with power := { m.power with settleBad := true } }

/-- The freeze of the frame's node part, with what is seen in it. -/
def Mach.nodeFreeze (m : Mach) : Mach := m.freezeFrame.comparatorStop.settleWatch.stopClearCheck

/-- SECTION_OVERRUN (R202). -/
def execSectionOverrun (s : State) : Host.Outcome State Fault Refusal :=
  eff s (s.mach.when s.mach.inSection (·.overrun))

/-! ## Digests (R224, R225) -/

/-- A digest pair is complete when both flags of the frame stand (R227). -/
def Mach.digestPair (m : Mach) : Mach :=
  m.when ((readMemWord m.mem (frameAddr m.cycle + 0x120C)).toNat % 4 == 3) (·.wr Reg.SPN_DIG_CYC m.cycle)

/-- In a pair each digest goes to the partner (R354). -/
def Mach.sendDigest (m : Mach) (c : Word) (k : DigestKind) (v : Word) : Mach :=
  m.when m.pair.formed (·.sendXl (.digest c k v))

/-- INPUT_DIGEST_READY, by Z + 2 µs: bytes 0x0000 to 0x11FF of the frame. -/
def Mach.inputDigest (m : Mach) : Mach :=
  let m := m.meet (frameAddr m.cycle) 0x1200 Agent.digest
  let v := crcWords (m.digestWords (frameAddr m.cycle) 1152)
  ((((m.putDigest (frameAddr m.cycle) 0 v).wr Reg.SPN_DIG_IN v).digestPair)).sendDigest m.cycle .input v

def execInputDigestReady (s : State) : Host.Outcome State Fault Refusal :=
  eff s (s.mach.inCycle (s.mach.periodNs / 2 + 2000) Mach.inputDigest)

/-- OUTPUT_DIGEST_READY, by C + 1 µs; a missing EMIT is flagged. -/
def Mach.outputDigestReady (m : Mach) : Mach :=
  let v := m.outputDigest
  let a := frameAddr m.cycle
  let m := (m.putDigest a 1 v).wr Reg.SPN_DIG_OUT v
  let m := m.when m.fly.emit.isNone fun m =>
    m.storeWhole (a + 0x120C) [readMemWord m.mem (a + 0x120C) ||| 8]
  m.digestPair.sendDigest m.cycle .output v

def execOutputDigestReady (s : State) : Host.Outcome State Fault Refusal :=
  eff s (s.mach.inCycle 6500 Mach.outputDigestReady)

/-- STATE_DIGEST_READY: the digest of the cycle it describes, in that cycle's frame. -/
def Mach.stateDigestReady (m : Mach) : Mach :=
  match m.spin.stateDig with
  | none => m
  | some (c, v) =>
    let m := { m with spin := { m.spin with stateDig := none } }
    let m := ((m.putDigest (frameAddr c) 2 v).wr Reg.SPN_DIG_STATE v).wr Reg.SPN_DIG_STATE_CYC c
    let m := m.sendDigest c .state v
    match m.pair.digState with
    | some (pc, pv) => if pc = c ∧ m.pair.formed then m.stateCompare pc pv else m
    | none => m

def execStateDigestReady (s : State) : Host.Outcome State Fault Refusal :=
  eff s (s.mach.inCycle 3000 Mach.stateDigestReady)

end Sys2Proof.Machine
end

