-- ==== Sys2Proof/Machine/Protection.lean ====
section
/-!
DEFINITION. What Distaff and the supervisor do for the cells (ch. 09): the string summary and its registers (R310, R311,
R320 to R322), the backstop (R301), the module's own temperature (R318, R523), the start checks of R314, and the thermal
demand with the container's status (R315 to R317).
-/

namespace Sys2Proof.Machine

/-! ## Results in lane memory (R264, R320) -/

/-- A word of a lane's memory. -/
def Mach.laneGet (m : Mach) (lane off : Nat) : Word := readMemWord m.mem (laneMemBase + 0x2000 * lane + off)

/-- The integer of a word in integer form (R208). -/
def intForm (w : Word) : Int := (w.extractLsb' 8 24).toInt

/-- A word in integer form. -/
def toIntForm (n : Int) : Word := BitVec.ofInt 24 n ++ (0 : BitVec 8)

/-- Word `i` of the string summary. -/
def Mach.summary (m : Mach) (i : Nat) : Word := m.laneGet 0 (0x1480 + 4 * i)

/-- A value times a scale as an integer within limits; where it is no integer its rounding is open.
DESIGN CHOICE: log entry 41. -/
def Mach.dyInt (m : Mach) (x : Dy) (scale : Nat) (lo hi : Int) : Int × Mach :=
  if 0 ≤ x.k then (max lo (min hi ((x.mul (Dy.ofInt scale)).roundAt 0)), m)
  else if x.k < -200 then (0, m)
  else
    let r := m.openDiv (x.n * scale) (2 ^ (-x.k).toNat)
    (max lo (min hi r.1), r.2)

/-- Put a signed 16-bit value into a field. -/
def Mach.setDy (m : Mach) (f : Field) (x : Dy) (scale : Nat) : Mach :=
  let r := m.dyInt x scale (-32768) 32767
  r.2.set f (BitVec.ofInt 16 r.1).toNat

/-- Put an unsigned 16-bit value into a field. -/
def Mach.setDyU (m : Mach) (f : Field) (x : Dy) (scale : Nat) : Mach :=
  let r := m.dyInt x scale 0 65535
  r.2.set f r.1.toNat

/-- The lanes' values with their positions. -/
def Mach.laneVals (m : Mach) (off : Nat) : List (Nat × Dy) := m.positions.map fun n => (n, bfpVal (m.laneGet n off))

/-- The position of the largest value, the lowest one of equal values.
DEDUCED: log entry 42. -/
def maxPos : List (Nat × Dy) → Option (Nat × Dy)
  | [] => none
  | x :: rest => match maxPos rest with
    | none => some x
    | some y => if x.2.lt y.2 then some y else some x

/-- The position of the smallest value.
DEDUCED: log entry 42. -/
def minPos : List (Nat × Dy) → Option (Nat × Dy)
  | [] => none
  | x :: rest => match minPos rest with
    | none => some x
    | some y => if y.2.lt x.2 then some y else some x

/-- The cells that a node has (R129). -/
def Mach.cellsOf (m : Mach) (n : Nat) : Nat := ((m.chain.ids[n]?).map (·.cells)).getD 0

/-- The corrected readings of every cell. -/
def Mach.cellReadings (m : Mach) : List (Nat × Dy) :=
  m.positions.flatMap fun n => (List.range (min 6 (m.cellsOf n))).map fun j => (n, bfpVal (m.laneGet n (0x10E0 + 4 * j)))

/-! ## Stops (R309 to R312) -/

/-- The run state follows an orderly stop (R310, R463); the STANDBY changes no run state (R298). -/
def Mach.orderlyStop (m : Mach) : Mach :=
  if m.role ≠ .standby ∧ (m.runState = .precharge ∨ m.runState = .run) then m.toRun .stopping Cause.protOrderly else m

/-- An immediate stop enters the safety island (R311). -/
def Mach.immediateStop (m : Mach) (c : SafetyCause) : Mach :=
  if c ∈ m.safety.latched then m else m.safetyCause c Cause.protImmediate

/-- The stop request of the summary is acted on: an orderly one while the string runs, an immediate one once.
DEDUCED: log entry 26. -/
def Mach.summaryStop (m : Mach) : Mach :=
  let req := (intForm (m.summary 6)).toNat
  let seen := m.prog.stopReq
  let m := { m with prog := { m.prog with stopReq := req } }
  if req = 1 then m.orderlyStop
  else m.when (decide (req = 2 ∧ seen ≠ 2)) (·.immediateStop .protReq)

/-- An orderly stop has not come to SAFE_HOLD within 200 ms (R310, R463): it becomes immediate with the same cause.
DEDUCED: log entry 26. -/
def Mach.escalate (m : Mach) : Mach :=
  if m.runState = .stopping then
    (m.on F.SNS_PROT_STAT_escalated).safetyCause .protReq Cause.escalated
  else m

def execOrderlyStopEscalate (s : State) : Host.Outcome State Fault Refusal :=
  let m := s.mach
  eff s (match m.power.stopNs with
    | some t => if m.runState = .stopping then (m.passUntil t 200000000).escalate else m
    | none => m)

/-! ## The summary registers (R316, R321, R322) -/

/-- Some cell of the string has a flag. -/
def Mach.anyCellFlag (m : Mach) (b : Nat) : Bool :=
  m.positions.any fun n => (List.range 6).any fun j => (m.laneGet n (0x1120 + 4 * j)).getLsbD (8 + b)

/-- A bit of the nodes' protection state (lane offset 0x1460, ply 3). -/
def Mach.protBit (m : Mach) (n b : Nat) : Bool := (m.laneGet n 0x146C).getLsbD (8 + b)

/-- The threshold of a cooling code in °C.
DESIGN CHOICE: log entry 41. -/
def demandThreshold (code : Nat) : Option Int :=
  if code = 5 then some 40 else if code = 4 then some 35 else if code = 3 then some 28 else none

/-- The first row of R316 whose condition holds. -/
def Mach.demandRow (m : Mach) (hot cold : Dy) : Nat :=
  let lvl := m.get F.SNS_PROT_STAT_rate_level
  let c := m.stopCause
  let at' := fun (t : Int) => (Dy.ofInt t).le hot
  if c = 1 ∨ c = 2 ∨ c = 3 ∨ c = 0x10 ∨ c = 0x11 then 6
  else if lvl = 1 ∨ lvl = 2 ∨ m.anyCellFlag 5 ∨ at' 40 then 5
  else if m.anyCellFlag 4 ∨ at' 35 then 4
  else if at' 28 then 3
  else if cold.lt ((bfpVal (m.bankWord 0x6020)).add (Dy.ofInt 10)) ∧ hot.lt (Dy.ofInt 25) then 1
  else if m.runState = .off ∧ c = 0 then 0
  else 2

/-- The demand code: a cooling code falls back to a lower row only 2 °C below that row's threshold. OFF stands while the
run state is OFF without a cause. -/
def Mach.demandCode (m : Mach) (hot cold : Dy) : Nat :=
  let was := m.get F.SNS_PROT_STAT_demand
  let row := m.demandRow hot cold
  let falls := decide (3 ≤ was) && (decide (row < was))
  match demandThreshold row with
  | some t => if falls && !hot.le (Dy.ofInt (t - 2)) then was else row
  | none => row

/-- Bits of a per-position register rise with an interrupt. -/
def Mach.posBits (m : Mach) (reg : Nat → Nat) (irq : Field) (bad : List Nat) : Mach :=
  m.each bad fun m n =>
    if m.bit (reg (n / 32)) (n % 32) then m else (m.setBit (reg (n / 32)) (n % 32) true).on irq

/-- The rate level as it is reported: a lost container status raises WARN to DERATE (R317). -/
def Mach.setLevel (m : Mach) (lvl : Nat) : Mach :=
  let was := m.get F.SNS_PROT_STAT_rate_level
  let lvl := if lvl = 1 ∧ m.flag F.SNS_PROT_STAT_cool_lost then 2 else lvl
  let m := (m.set F.SNS_PROT_STAT_rate_level lvl).when (decide (was < lvl)) (·.on F.SNS_PROT_IRQ_STAT_level_up)
  m.when (decide (lvl < was)) (·.on F.SNS_PROT_IRQ_STAT_level_down)

/-- The substitutions that are new since the last reading are counted (R321). -/
def Mach.countSubst (m : Mach) : Mach :=
  let now := (m.positions.flatMap fun n => [(n, 0), (n, 1)]).filter fun (n, t) => intForm (m.laneGet n (0x1460 + 4 * t)) == 2
  let ids := now.map fun (n, t) => 2 * n + t
  let m := m.each (ids.filter fun i => i ∉ m.sense.substSeen) fun m _ => m.count Reg.SNS_CNT_SUBST
  { m with sense := { m.sense with substSeen := ids } }

/-- Distaff updates the protection registers from the results (R321).
DEDUCED: log entry 42. -/
def Mach.summaryRegs (m : Mach) : Mach :=
  let hot := bfpVal (m.summary 2)
  let cold := bfpVal (m.summary 3)
  let m := (m.setDy F.SNS_PROT_TEMP_hottest hot 10).setDy F.SNS_PROT_TEMP_coldest cold 10
  let m := m.setDy F.SNS_PROT_POS_rate (bfpVal (m.summary 4)) 100
  let m := match maxPos (m.laneVals 0x1418), minPos (m.laneVals 0x141C) with
    | some h, some c => (m.set F.SNS_PROT_POS_hot_pos h.1).set F.SNS_PROT_POS_cold_pos c.1
    | _, _ => m
  let m := (m.setDyU F.SNS_PROT_LIM_i_dis (bfpVal (m.summary 0)) 10).setDyU F.SNS_PROT_LIM_i_chg (bfpVal (m.summary 1)) 10
  let vs := m.cellReadings
  let m := match maxPos vs, minPos vs with
    | some h, some l => (m.setDyU F.SNS_PROT_VCELL_v_hi h.2 1000).setDyU F.SNS_PROT_VCELL_v_lo l.2 1000
    | _, _ => m
  let m := m.setB F.SNS_PROT_STAT_hold (m.positions.any fun n => decide (0 < intForm (m.laneGet n 0x1468)))
  let failed := fun n => intForm (m.laneGet n 0x1460) != 0 || intForm (m.laneGet n 0x1464) != 0
  let lost := m.positions.filter fun n => m.protBit n 0
  let m := m.posBits Reg.SNS_TSENS_FAIL F.SNS_PROT_IRQ_STAT_sensor_fail (m.positions.filter failed)
  let m := (m.posBits Reg.SNS_TLOST F.SNS_PROT_IRQ_STAT_temp_lost lost).countSubst
  let m := (m.setLevel (intForm (m.summary 5)).toNat).protStop (if intForm (m.summary 6) = 0 then 0
    else (intForm (m.summary 7)).toNat % 256)
  m.set F.SNS_PROT_STAT_demand (m.demandCode hot cold)

/-- The results can be read: an estimation section has run since boot, and the domains are on. -/
def Mach.summaryThere (m : Mach) : Bool := m.power.estSeen && m.domOn .spin0

/-- STRING_SUMMARY_READ (R310, R311), every 1 ms by Distaff. -/
def Mach.summaryRead (m : Mach) : Mach :=
  if m.summaryThere && !m.power.distaffAbsent then
    (m.when (m.domOn .sense) (·.summaryRegs)).summaryStop
  else m

def execStringSummaryRead (s : State) : Host.Outcome State Fault Refusal := eff s s.mach.summaryRead

/-- SUPERVISOR_SUMMARY_READ (R461): the supervisor in place of Distaff while that is absent. -/
def execSupervisorSummaryRead (s : State) : Host.Outcome State Fault Refusal :=
  let m := s.mach
  eff s (if m.summaryThere && m.power.distaffAbsent then m.summaryStop else m)

/-- CLR_CAUSE (R312): accepted in OFF and SAFE_HOLD; stop_cause, escalated and the levels of a stop end, for the program
as well.
DEDUCED: log entry 42. -/
def Mach.clrCause (m : Mach) : Mach :=
  if m.runState = .off ∨ m.runState = .safeHold then
    let m := (m.set F.SNS_PROT_STAT_stop_cause 0).off F.SNS_PROT_STAT_escalated
    let m := m.when (decide (3 ≤ m.get F.SNS_PROT_STAT_rate_level)) (·.setLevel 0)
    let a := laneMemBase + 0x1480
    let m := m.when (m.domOn .spin0) fun m =>
      let m := m.when (decide (3 ≤ intForm (m.summary 5))) (·.storeWord (a + 20) 0)
      (m.storeWord (a + 24) 0).storeWord (a + 28) 0
    { m with prog := { m.prog with stopReq := 0 } }
  else m.refuse Err.refusedState

def execClrCause (_master : Nat) (s : State) : Host.Outcome State Fault Refusal :=
  eff s (s.mach.access Reg.SNS_PROT_CTRL Mach.clrCause)

/-- The counters of R321. -/
def protCounters : List Nat := [Reg.SNS_CNT_PSTOP, Reg.SNS_CNT_SUBST, Reg.SNS_CNT_DEMAND]

/-- PROT_CLR_CNT (R322). -/
def execProtClrCnt (_master : Nat) (s : State) : Host.Outcome State Fault Refusal :=
  eff s (s.mach.access Reg.SNS_PROT_CTRL (·.clearRegs protCounters))

/-! ## The backstop (R301) -/

/-- A 16-bit field of a record. -/
def recHalf (bs : List Byte) (o : Nat) : BitVec 16 := bs.getD o 0 ++ bs.getD (o + 1) 0

/-- A record shows one of the three conditions: cell voltages in 100 µV, thermistors in 0.01 °C. -/
def Mach.recordBad (m : Mach) (n : Nat) (bs : List Byte) : Bool :=
  let past := ((bfpVal (m.bankWord 0x6000)).mul (Dy.ofInt 10000)).add (Dy.ofInt 200)
  let under := ((bfpVal (m.bankWord 0x6004)).mul (Dy.ofInt 10000)).sub (Dy.ofInt 200)
  let hot := ((bfpVal (m.bankWord 0x6038)).mul (Dy.ofInt 100)).add (Dy.ofInt 300)
  let v := fun j => Dy.ofInt (recHalf bs (2 + 2 * j)).toNat
  let t := fun j => (recHalf bs (14 + 2 * j)).toInt
  (List.range (min 6 (m.cellsOf n))).any (fun j => past.lt (v j) || (v j).lt under)
    || [0, 1].any fun j => hot.le (Dy.ofInt (t j)) && decide (t j ≤ 12499)

/-- The frame of a cycle holds a new record of a position. -/
def Mach.frameHasRec (m : Mach) (c : Word) (n : Nat) : Bool :=
  (readMemWord m.mem (frameAddr c + 0x510 + 4 * (3 - n / 32))).getLsbD (n % 32)

/-- One frame is examined: the runs of its positions' records. -/
def Mach.backstopFrame (m : Mach) (c : Word) : Mach :=
  m.each (m.positions.filter fun n => m.frameHasRec c n) fun m n =>
    let bs := readBytes m.mem (frameAddr c + 0x600 + 24 * n) 24
    let run := m.sense.backRun.toList.getD n 0
    { m with sense := { m.sense with backRun :=
        m.sense.backRun.setIfInBounds n (if m.recordBad n bs then min 3 (run + 1) else 0) } }

/-- The cycles whose frames have frozen since the last check, oldest first, at most the ring's 256. -/
def Mach.backstopCycles (m : Mach) : List Word :=
  let last := if m.chain.frozen then m.cycle else m.cycle - 1
  let n := (last - m.sense.backFrom).toNat + 1
  let n := if 256 < n then 256 else n
  (List.range n).map fun i => last - BitVec.ofNat 32 (n - 1 - i)

/-- BACKSTOP_CHECK.
DEDUCED: log entry 42. -/
def Mach.backstop (m : Mach) : Mach :=
  if m.cyclesOn && !m.power.distaffAbsent && m.domOn .frame && m.domOn .sense then
    let cs := (m.backstopCycles).filter fun c => readMemWord m.mem (frameAddr c) == c
    let m := m.each cs Mach.backstopFrame
    let m := { m with sense := { m.sense with backFrom := if m.chain.frozen then m.cycle + 1 else m.cycle } }
    if m.sense.backRun.toList.any (3 ≤ ·) then
      ((m.protStop 0x15).on F.SNS_PROT_IRQ_STAT_backstop).immediateStop .backstop
    else m
  else m

def execBackstopCheck (s : State) : Host.Outcome State Fault Refusal := eff s s.mach.backstop

/-! ## The module's own temperature (R318, R523) -/

/-- The condition of the orderly stop. -/
def Mach.modHot (m : Mach) : Bool :=
  let b := m.power.modTemp.1
  decide (1000 ≤ m.power.baseHot) || decide (1150 ≤ m.power.modTemp.2) || decide (b < -300)
    || (m.power.baseFailed.1 && m.power.baseFailed.2)

/-- The condition of the immediate stop. -/
def Mach.modTrip (m : Mach) : Bool := decide (850 ≤ m.power.modTemp.1) || decide (1250 ≤ m.power.modTemp.2)

/-- The baseplate value: the higher of the valid sensors, with none the die less 15 °C, in 0.1 °C. -/
def baseplate (a b : Option Int) (die : Int) : Int :=
  match a, b with
  | some a, some b => max a b
  | some a, none => a
  | none, some b => b
  | none, none => die - 150

/-- SNS_MOD_TEMP and own_warn, which clears after 60 s within -23 °C to 68 °C. -/
def Mach.modWarn (m : Mach) (base die : Int) : Mach :=
  let fine := decide (-230 ≤ base ∧ base ≤ 680)
  let m := { m with power := { m.power with warnClear := if fine then min 6000 (m.power.warnClear + 1) else 0 } }
  m.when (m.domOn .sense) fun m =>
    let m := (m.set F.SNS_MOD_TEMP_baseplate (BitVec.ofInt 16 base).toNat).set F.SNS_MOD_TEMP_die (BitVec.ofInt 16 die).toNat
    let m := m.when (decide (700 < base ∨ base < -250) && !m.flag F.SNS_PROT_STAT_own_warn) fun m =>
      ((m.on F.SNS_PROT_STAT_own_warn).on F.SNS_PROT_IRQ_STAT_own_warn).log 0x02 1
    m.when (decide (m.power.warnClear = 6000)) (·.off F.SNS_PROT_STAT_own_warn)

/-- The orderly stop of R523 by run state; `fresh` is its first reading. -/
def Mach.modStop (m : Mach) (fresh : Bool) : Mach :=
  match m.runState with
  | .precharge | .run => (m.when (m.domOn .sense) (·.protStop 6)).orderlyStop
  | .stopping => m.when (m.domOn .sense) (·.protStop 6)
  | .starting => m.startFail Err.protection
  | _ => m.when (fresh && !m.power.distaffAbsent) (·.log 0x02 2)

/-- MODULE_TEMP_READ, every 10 ms by the supervisor. -/
def Mach.moduleTemp (m : Mach) (a b : Option Int) (die : Int) : Mach :=
  let base := baseplate a b die
  let was := m.modHot
  let newFail := decide ((a.isNone && !m.power.baseFailed.1) || (b.isNone && !m.power.baseFailed.2))
  let m := { m with power := { m.power with
    modTemp := (base, die), baseFailed := (a.isNone, b.isNone), modRead := some [a, b, some die]
    baseHot := if 750 ≤ base then min 1000 (m.power.baseHot + 1) else 0 } }
  let m := (m.when newFail (·.log 0x02 3)).modWarn base die
  let m := m.when m.modTrip fun m => (m.when (m.domOn .sense) (·.protStop 0x16)).immediateStop .moduleTrip
  let m := m.when (m.modTrip && m.runState == .faultLatched) fun m =>
    m.each ([Domain.spin0, .spin1, .frame].filter fun d => m.domOn d) fun m d => m.domainDrop d 0
  m.when (m.modHot && !m.modTrip) (·.modStop (!was))

def execModuleTempRead (baseA baseB : Option Int) (die : Int) (s : State) : Host.Outcome State Fault Refusal :=
  eff s (s.mach.moduleTemp baseA baseB die)

/-! ## Start checks (R314) -/

/-- stop_cause and the guard of R318, which are checked in every case. -/
def Mach.startStops (m : Mach) : Bool :=
  m.stopCause != 0 || decide (650 < m.power.modTemp.1 ∨ m.power.modTemp.1 < -250) || m.modHot || m.modTrip

/-- The checks that need program results. -/
def Mach.startResults (m : Mach) : Bool :=
  let hot := bfpVal (m.summary 2)
  let limit := (bfpVal (m.bankWord 0x603C)).sub (Dy.ofInt 5)
  let open' := (m.positions.filter fun n => m.protBit n 1).length
  limit.lt hot || (bfpVal (m.summary 3)).lt (Dy.ofInt (-20)) || intForm (m.summary 5) != 0
    || (m.positions.any fun n => m.protBit n 2) || decide (intForm (m.bankWord 0x6050) < open')

/-- R314 forbids the start. -/
def Mach.startForbidden (m : Mach) : Bool := m.startStops || (m.power.estSeen && m.startResults)

/-! ## Thermal demand and container status (R315 to R317) -/

/-- The inlet request of a demand code in 0.1 °C. -/
def inletOf (code : Nat) : Int :=
  if 5 ≤ code then 100 else if code = 4 then 150 else if code = 1 then 250 else if code = 0 then 0 else 200

/-- The mean of all θ_hi,j in 0.1 °C; its rounding is open. -/
def Mach.meanTemp (m : Mach) : Int × Mach :=
  let xs := m.positions.flatMap fun n => (List.range (min 6 (m.cellsOf n))).map fun j => bfpVal (m.laneGet n (0x1400 + 4 * j))
  if xs.isEmpty then (0, m) else m.dyInt ((Dy.sum xs).div (Dy.ofInt xs.length)) 10 (-32768) 32767

/-- Byte 3 of the message.
DEDUCED: log entry 42. -/
def Mach.demandFlags (m : Mach) : Byte :=
  let c := m.stopCause
  let rated := bfpVal (m.bankWord 8)
  let derated := (bfpVal (m.summary 0)).lt rated || (bfpVal (m.summary 1)).lt rated
  let thermal := c == 1 || c == 2 || c == 0x10 || c == 0x11
  let lost := m.positions.any fun n => m.protBit n 0
  BitVec.ofNat 8 (derated.toNat + 2 * thermal.toNat + 4 * (m.flag F.SNS_PROT_STAT_hold).toNat + 8 * lost.toNat)

/-- The message. -/
def Mach.demandBytes (m : Mach) : List Byte × Mach :=
  let r := m.meanTemp
  let m := r.2
  let h := fun (f : Field) => halfBytes (BitVec.ofNat 16 (m.get f))
  let code := m.get F.SNS_PROT_STAT_demand
  ([m.sense.demSeq, BitVec.ofNat 8 code, BitVec.ofNat 8 (m.get F.SNS_PROT_STAT_rate_level), m.demandFlags]
    ++ h F.SNS_PROT_TEMP_hottest ++ h F.SNS_PROT_TEMP_coldest ++ halfBytes (BitVec.ofInt 16 r.1)
    ++ h F.SNS_PROT_POS_rate ++ halfBytes (BitVec.ofInt 16 (inletOf code))
    ++ [BitVec.ofNat 8 (m.get F.SNS_PROT_POS_hot_pos), 0], m)

/-- THERMAL_DEMAND_SEND (R315): Distaff loads MB0 of CAN0. The STANDBY counts what it would have sent (R322). -/
def Mach.demandSend (m : Mach) : Mach :=
  if m.flag F.SNS_PROT_CTRL_can_dem_en && m.domOn .sense && !m.power.distaffAbsent then
    let m := (m.await .demand 100000000).count Reg.SNS_CNT_DEMAND
    if m.role = .standby then m
    else
      let r := m.demandBytes
      let m := r.2.canLoad 0 (0x300 + m.canSlot) 10 r.1
      { m with sense := { m.sense with demSeq := m.sense.demSeq + 1 } }.mark .demand
  else m

def execThermalDemandSend (s : State) : Host.Outcome State Fault Refusal := eff s s.mach.demandSend

/-- CONTAINER_STATUS_RX (R317): Distaff takes the message from MB1 of CAN0. -/
def execContainerStatusRx (s : State) : Host.Outcome State Fault Refusal :=
  let m := s.mach
  eff s (if m.power.distaffAbsent then m
    else ((m.mark .container).when (m.domOn .sense) (·.off F.SNS_PROT_STAT_cool_lost)).when (m.domOn .can) (·.off (F.CAN_MB_CTRL_full 0 1)))

/-- CONTAINER_STATUS_LOSS (R317): 10 s without a message. -/
def execContainerStatusLoss (s : State) : Host.Outcome State Fault Refusal :=
  let m := s.mach
  eff s (if m.power.distaffAbsent || !m.domOn .sense then m
    else
      let m := ((m.await .container 10000000000).on F.SNS_PROT_STAT_cool_lost).on F.SNS_PROT_IRQ_STAT_cool_lost
      m.setLevel (m.get F.SNS_PROT_STAT_rate_level))

end Sys2Proof.Machine
end

