-- ==== Sys2Proof/Machine/Estimation.lean ====
section
/-!
DEFINITION. What Distaff does on the chain for the estimation (ch. 08): open-wire sweeps (R289), bleed requests and quiet mode
(R284), the measurement activity (R295) and the measurement registers (R296, R297).
-/

namespace Sys2Proof.Machine

/-! ## Measurement activity (R295) -/

/-- The multi-sine of R276 is being injected, as the last status word and the bank in force show.
DEDUCED: log entry 36. -/
def Mach.multisineOn (m : Mach) : Bool := m.sense.capStat.getLsbD 15 && fieldOf (m.bankWord 0x80) 0 4 == 5

/-- A node has a non-zero bleed mask in force: as commanded, or on a STANDBY as its last record shows. -/
def Mach.nodeBleeds (m : Mach) (n : Nat) : Bool :=
  if m.role = .standby then
    match m.chain.lastRec.toList.getD n none with
    | some ws => (recordBytes ws).getD 19 0 &&& 0x3F != 0
    | none => false
  else ((m.chain.nodes.toList[n]?).map (·.bleed != 0)).getD false

/-- SNS_MEAS_STAT.activity. -/
def Mach.activity (m : Mach) : Nat :=
  let bleeds := m.positions.any m.nodeBleeds
  if m.launchPorts.isEmpty then 0
  else if m.flag F.SNS_MEAS_STAT_sweep_busy then 5
  else if m.multisineOn then (if bleeds then 4 else 3)
  else if bleeds then 2 else 1

/-- Distaff reports the activity (R297). -/
def Mach.activitySet (m : Mach) : Mach := m.when (m.domOn .sense) fun m => m.set F.SNS_MEAS_STAT_activity m.activity

/-! ## Requests to nodes (R284, R289) -/

/-- BLEED with a mask to one node, which takes it when it answers OK (R102).
DEDUCED: log entry 36. -/
def Mach.bleedSend (m : Mach) (n : Nat) (mask : BitVec 6) (taken : Bool) : Mach :=
  let req := [mask.setWidth 8]
  let p := m.mgmtPort n
  let m := m.mgmtSend p m.upNs n opBleed 0 req 0
  if taken then m.mgmtTake p n opBleed 0 req else m.count Reg.SNS_CNT_NODE_REF

/-- OPEN_WIRE with a wire, 0xFF to end, and the number of samples. -/
def Mach.openWireSend (m : Mach) (n wire : Nat) : Mach :=
  m.mgmtReq n opOpenWire 0 [BitVec.ofNat 8 wire, BitVec.ofNat 8 (m.get F.SNS_MEAS_CTRL_ow_samples)]

/-- The request word of a lane (R265). -/
def Mach.requestOf (m : Mach) (n : Nat) : Word := m.laneGet n 0x1160

/-- Its bits as an integer form holds them: the mantissa lies in [31:8] of the word. -/
def requestMask (w : Word) : BitVec 6 := (w >>> 8).setWidth 6

def requestOw (w : Word) : Bool := w.getLsbD 19

/-! ## Open-wire sweeps (R289) -/

/-- Step 1 for a wire of a node. -/
def Mach.wireBegin (m : Mach) (n wire : Nat) : Mach :=
  let m := (m.set F.SNS_MEAS_STAT_ow_node n).set F.SNS_MEAS_STAT_ow_wire wire
  ((m.bleedSend n 0 true).openWireSend n wire).mark .wire

/-- Go on with the next node of the sweep, or end it. -/
def Mach.sweepNext (m : Mach) : Mach :=
  match m.sense.sweep with
  | n :: _ => m.wireBegin n 0
  | [] => m.sweepEnd.activitySet

/-- A sweep may run: a SOLO or ACTIVE module whose cycles run. -/
def Mach.sweepMay (m : Mach) : Bool :=
  m.mayManage && m.cyclesOn && m.domOn .sense && m.domOn .chain && !m.power.distaffAbsent

/-- Start a sweep over the given nodes. -/
def Mach.sweepStart (m : Mach) (ns : List Nat) : Mach :=
  let m := { m.on F.SNS_MEAS_STAT_sweep_busy with sense := { m.sense with sweep := ns, sweepAbort := false } }
  (m.mark .sweep).sweepNext.activitySet

/-- OW_NOW (R289, R296): refused while a sweep runs or while no cycles run; a STANDBY starts none (R295).
DEDUCED: log entry 36. -/
def Mach.owNow (m : Mach) : Mach :=
  if m.flag F.SNS_MEAS_STAT_sweep_busy ∨ m.cyclesOn = false then m.refuse Err.refusedState
  else if m.role = .standby then m.refuse Err.role
  else m.when m.sweepMay fun m => m.sweepStart m.positions

def execOwNow (_master : Nat) (s : State) : Host.Outcome State Fault Refusal :=
  eff s (s.mach.access Reg.SNS_MEAS_CTRL Mach.owNow)

/-- OW_ABORT (R296): the sweep ends after the wire in test.
DEDUCED: log entry 36. -/
def Mach.owAbort (m : Mach) : Mach :=
  if m.flag F.SNS_MEAS_STAT_sweep_busy then { m with sense := { m.sense with sweepAbort := true } } else m

def execOwAbort (_master : Nat) (s : State) : Host.Outcome State Fault Refusal :=
  eff s (s.mach.access Reg.SNS_MEAS_CTRL Mach.owAbort)

/-- OW_SWEEP_PERIOD: ow_period seconds have passed, or nodes have set ow_req.
DEDUCED: log entry 36. -/
def Mach.owDue (m : Mach) (request : Bool) : Mach :=
  if m.sweepMay && !m.flag F.SNS_MEAS_STAT_sweep_busy then
    if request then
      let ns := m.positions.filter fun n => m.domOn .spin0 && requestOw (m.requestOf n)
      if ns.isEmpty then m else m.sweepStart ns
    else if m.get F.SNS_MEAS_CTRL_ow_period = 0 then m
    else
      let m := m.await .sweep (m.get F.SNS_MEAS_CTRL_ow_period * 1000000000)
      m.sweepStart m.positions
  else m

def execOwSweepPeriod (request : Bool) (s : State) : Host.Outcome State Fault Refusal := eff s (s.mach.owDue request)

/-- The node in test is done: its bleed mask is restored, and the sweep goes on. -/
def Mach.nodeDone (m : Mach) : Mach :=
  match m.sense.sweep with
  | [] => m
  | n :: rest =>
    let m := m.bleedSend n (requestMask ((m.sense.reqSeen.toList)[n]?.getD 0)) true
    let m := { m with sense := { m.sense with sweep := if m.sense.sweepAbort then [] else rest } }
    m.sweepNext

/-- OW_WIRE_TEST: a wire has been tested, with the answer of the node to OPEN_WIRE. -/
def Mach.wireTested (m : Mach) (status : BitVec 8) : Mach :=
  match m.sense.sweep with
  | [] => m
  | n :: _ =>
    let w := m.get F.SNS_MEAS_STAT_ow_wire
    let m := m.count (if status = 0 then Reg.SNS_CNT_OW else Reg.SNS_CNT_NODE_REF)
    let m := m.openWireSend n 0xFF
    if m.sense.sweepAbort ∨ m.cellsOf n ≤ w then m.nodeDone else m.wireBegin n (w + 1)

def execOwWireTest (status : BitVec 8) (s : State) : Host.Outcome State Fault Refusal :=
  eff s (s.mach.when (s.mach.sweepMay && s.mach.flag F.SNS_MEAS_STAT_sweep_busy) (·.wireTested status))

/-- OW_NODE_TIMEOUT: the node in test is skipped. -/
def execOwNodeTimeout (s : State) : Host.Outcome State Fault Refusal :=
  eff s (s.mach.when (s.mach.sweepMay && s.mach.flag F.SNS_MEAS_STAT_sweep_busy) fun m =>
    ((m.await .wire 10000000).count Reg.SNS_CNT_NODE_REF).nodeDone)

/-! ## The poll of the request words (R284, R297) -/

/-- One lane's request: BLEED to the node when the word has changed; a refused one is repeated at the next poll. A node under
test keeps its mask withheld. -/
def Mach.pollLane (m : Mach) (nacks : List Nat) (n : Nat) : Mach :=
  let w := m.requestOf n
  let seen := (m.sense.reqSeen.toList)[n]?.getD 0
  let take := fun m : Mach => { m with sense := { m.sense with reqSeen := m.sense.reqSeen.setIfInBounds n w } }
  if w = seen then m
  else if requestMask w = requestMask seen ∨ m.sense.sweep.head? = some n then take m
  else if n ∈ nacks then m.bleedSend n (requestMask w) false
  else take (m.bleedSend n (requestMask w) true)

/-- The positions of which some cell has a flag of R265. -/
def Mach.flagged (m : Mach) (b : Nat) : List Nat :=
  m.positions.filter fun n => (List.range 6).any fun j => (m.laneGet n (0x1120 + 4 * j)).getLsbD (8 + b)

/-- The cells with short_warn; a new one is reported (R296). -/
def Mach.shortWarns (m : Mach) : Mach :=
  let now := m.positions.flatMap fun n =>
    ((List.range 6).filter fun j => (m.laneGet n (0x1120 + 4 * j)).getLsbD 12).map fun j => 8 * n + j
  let m := m.when (now.any fun i => i ∉ m.sense.warnSeen) (·.on F.SNS_MEAS_IRQ_STAT_short_warn)
  { m with sense := { m.sense with warnSeen := now } }

/-- The measurement registers from the program's results (R293, R297): wires found open, short alarms, completed leas.
DEDUCED: log entry 36. -/
def Mach.measRegs (m : Mach) : Mach :=
  let m := m.posBits Reg.SNS_OW_FAIL F.SNS_MEAS_IRQ_STAT_open_wire (m.flagged 2)
  let m := (m.posBits Reg.SNS_SHORT F.SNS_MEAS_IRQ_STAT_short_alarm (m.flagged 5)).shortWarns
  let leas := BitVec.ofInt 32 (intForm (m.laneGet 0 0x1180))
  (m.when (leas != m.rd Reg.SNS_SPEC_LEA) (·.on F.SNS_MEAS_IRQ_STAT_lea_done)).wr Reg.SNS_SPEC_LEA leas

/-- REQUEST_WORD_POLL, every 10 ms; `nacks` are the nodes that answer anything but OK. -/
def Mach.requestPoll (m : Mach) (nacks : List Nat) : Mach :=
  if m.power.distaffAbsent || !m.domOn .spin0 || !m.domOn .sense then m
  else
    let m := m.when (m.mayManage && m.domOn .chain && m.cyclesOn) fun m => m.each m.positions fun m n => m.pollLane nacks n
    (m.when m.power.estSeen (·.measRegs)).activitySet

def execRequestWordPoll (nacks : List Nat) (s : State) : Host.Outcome State Fault Refusal := eff s (s.mach.requestPoll nacks)

/-- QUIET_MODE_WRITE (R284): config_cycle of every node, [15:8] D, [7] quiet, [6:0] T (R129). -/
def Mach.quietWrite (m : Mach) : Mach :=
  if m.mayManage && m.domOn .chain && m.domOn .spin0 && !m.power.distaffAbsent then
    let q := m.quietMode
    let m := m.mgmtReq 0xFF opWrite 0x0104 m.cycleReq
    m.when (m.domOn .sense) (·.setB F.SNS_MEAS_STAT_quiet q)
  else m

def execQuietModeWrite (s : State) : Host.Outcome State Fault Refusal := eff s s.mach.quietWrite

end Sys2Proof.Machine
end

