-- ==== Sys2Proof/Machine/MemIntegrity.lean ====
section
/-!
DEFINITION. The memory engine (ch. 15): Carder's reads (R449, R451), program-memory repair (R452) and remapped lines
(R453, R454, R458). Upsets of cells come from outside: Carder's command says what its read finds.
-/

namespace Sys2Proof.Machine

/-! ## Instances -/

/-- The domain of an instance (R25). -/
def instDomain (i : Nat) : Domain :=
  if i < 13 then .mgmt else if i < 20 then .spin0 else if i < 24 then .spin1 else .frame

/-- The address of a word of an instance that has addresses. -/
def wordAddr (i w : Nat) : Nat := instBase i + 8 * w

/-- The instance lies in the address space. -/
def hasAddr (i : Nat) : Bool := decide (13 ≤ i)

/-- The entry that maps a line of an instance. -/
def Mach.remapOf (m : Mach) (i line : Nat) : Option Nat :=
  (List.range 8).find? fun e => m.flag (F.MEM_REMAP_valid i e) && m.get (F.MEM_REMAP_line i e) == line

/-- The lowest free entry of an instance. -/
def Mach.freeEntry (m : Mach) (i : Nat) : Option Nat := (List.range 8).find? fun e => !m.flag (F.MEM_REMAP_valid i e)

/-- The repair window (R209), or an array that does not run. -/
def Mach.repairWindow (m : Mach) : Bool :=
  !m.arrayRuns || (m.get F.SPN_STAT_section != 1 && m.get F.SPN_STAT_section != 3 && (!m.spin.fastRan || m.spin.estRan))

/-! ## Carder (R449, R451) -/

/-- Where the last read that was not clean took place (R457). -/
def Mach.carderLoc (m : Mach) (i w cls syndrome : Nat) : Mach :=
  let m := (m.set F.MEM_ERR_LOC_instance i).set F.MEM_ERR_LOC_word w
  ((m.set F.MEM_ERR_INFO_class cls).set F.MEM_ERR_INFO_agent Agent.carder).set F.MEM_ERR_INFO_syndrome syndrome

/-- A line is weak and waits for a remap (R453). -/
def Mach.weakLine (m : Mach) (i w : Nat) : Mach :=
  { m with memi := { m.memi with weak := addOnce m.memi.weak (i, w / 8) } }

/-- A corrected word (R444); the second pass in a row makes its line weak. -/
def Mach.carderCe (m : Mach) (i w syndrome : Nat) : Mach :=
  let m := ((m.carderLoc i w 1 syndrome).count (Reg.MEM_CNT_CE i)).on F.MEM_IRQ_STAT_ce
  let m := m.when (decide ((i, w) ∈ m.memi.cePrev)) (·.weakLine i w)
  { m with memi := { m.memi with ceThis := addOnce m.memi.ceThis (i, w) } }

/-- What an uncorrectable word means by region (R451). -/
def Mach.ueRegion (m : Mach) (i : Nat) : Mach :=
  if i < 8 then (if m.power.distaffAbsent then m else m.distaffDown ResetType.abort)
  else m.when (i == 15) (·.on F.MEM_IRQ_STAT_bank)

/-- An uncorrectable word: poisoned, logged, handled by region; its line is weak.
DEDUCED: log entry 38. -/
def Mach.carderUe (m : Mach) (i w syndrome : Nat) : Mach :=
  let m := ((m.carderLoc i w 2 syndrome).count Reg.MEM_CNT_UE).on F.MEM_IRQ_STAT_ue
  let m := (m.when (hasAddr i) (·.poisonWord (wordAddr i w))).log 0x04 1 0 (BitVec.ofNat 32 i) (BitVec.ofNat 32 w)
  (m.weakLine i w).ueRegion i

/-- Carder's read of a word. A word that is poisoned reads so; nothing else does (R443). -/
def Mach.carderWord (m : Mach) (i w : Nat) (cls : EccClass) (syndrome : Nat) : Mach :=
  if hasAddr i && m.poisoned (wordAddr i w) then m.carderLoc i w 3 0xFF
  else match cls with
    | .ce => m.carderCe i w syndrome
    | .ue => m.carderUe i w syndrome
    | .clean | .poison => m

/-- A weak spare line is logged as one that finds no entry (R454). -/
def Mach.spareWeak (m : Mach) (i k : Nat) : Mach :=
  (m.on F.MEM_IRQ_STAT_remap_full).log 0x04 2 0 (BitVec.ofNat 32 i) (BitVec.ofNat 32 (0x4000 + k))

/-- The word of its instance that spare word `k` serves (R453). -/
def Mach.spareServes (m : Mach) (i k : Nat) : Option Nat :=
  if m.flag (F.MEM_REMAP_valid i (k / 8)) then some (8 * m.get (F.MEM_REMAP_line i (k / 8)) + k % 8) else none

/-- Carder's read of word `k` of the spare lines: handled as any word (R449), and its line is weak as any line is. What it finds
uncorrectable in a spare line in use is the word of the line that this one serves.
DEDUCED: log entry 38. -/
def Mach.carderSpare (m : Mach) (i k : Nat) (cls : EccClass) (syndrome : Nat) : Mach :=
  let served := if hasAddr i then m.spareServes i k else none
  if served.any fun w => m.poisoned (wordAddr i w) then m.carderLoc i k 3 0xFF
  else match cls with
    | .ce =>
      let m := ((m.carderLoc i k 1 syndrome).count (Reg.MEM_CNT_CE i)).on F.MEM_IRQ_STAT_ce
      let m := m.when (decide ((i, 16384 + k) ∈ m.memi.cePrev)) (·.spareWeak i k)
      { m with memi := { m.memi with ceThis := addOnce m.memi.ceThis (i, 16384 + k) } }
    | .ue =>
      let m := ((m.carderLoc i k 2 syndrome).count Reg.MEM_CNT_UE).on F.MEM_IRQ_STAT_ue
      let m := match served with
        | some w => m.poisonWord (wordAddr i w)
        | none => m
      let m := m.log 0x04 1 0 (BitVec.ofNat 32 i) (BitVec.ofNat 32 (0x4000 + k))
      (m.spareWeak i k).when (m.spareServes i k).isSome (·.ueRegion i)
    | .clean | .poison => m

/-- The first instance from `i` on that Carder can read; wrapping ends the pass. -/
def Mach.carderInst (m : Mach) (i : Nat) : Option (Nat × Bool) :=
  let on := fun j => m.domOn (instDomain j)
  match ((List.range 48).filter fun j => i ≤ j).find? on with
  | some j => some (j, false)
  | none => ((List.range 48).find? on).map fun j => (j, true)

/-- A pass ends. -/
def Mach.carderPass (m : Mach) : Mach :=
  let m := m.count Reg.MEM_CNT_PASS
  { m with memi := { m.memi with cePrev := m.memi.ceThis, ceThis := [] } }

/-- Carder goes on to an instance. -/
def Mach.carderGo (m : Mach) (i : Nat) : Mach :=
  match m.carderInst i with
  | none => m
  | some (j, wrapped) =>
    let m := m.when wrapped (·.carderPass)
    let m := (m.set F.MEM_SCRUB_POS_instance j).set F.MEM_SCRUB_POS_word 0
    { m with memi := { m.memi with spareAt := none } }

/-- A word is upset, or upset again, before any reader meets it: two upsets of one word leave it uncorrectable. A poisoned word
stays so.
DESIGN CHOICE: log entry 70. -/
def Mach.upset (m : Mach) (u : Upset) : Mach :=
  if !m.domOn (instDomain (instOf u.addr)) || m.poisoned u.addr then m
  else
    let was := m.memi.upsets.any (·.addr == u.addr)
    let rest := m.memi.upsets.filter (·.addr != u.addr)
    { m with memi := { m.memi with upsets := rest ++ [{ u with ue := u.ue || was }] } }

/-- What Carder's read of a word finds: an upset that stands there, or what the command says. -/
def Mach.carderClass (m : Mach) (i w : Nat) (cls : EccClass) (syndrome : Nat) : EccClass × Nat :=
  match (if hasAddr i then m.memi.upsets.find? (·.addr == wordAddr i w) else none) with
  | none => (cls, syndrome)
  | some u => (if u.ue then .ue else if cls = .clean then .ce else cls, u.syndrome.toNat)

/-- CARDER_READ: the next word of the pass, once words have been upset.
DEDUCED: log entry 38. -/
def Mach.carder (m : Mach) (cls : EccClass) (syndrome : Nat) (upsets : List Upset) : Mach :=
  let m := m.each upsets Mach.upset
  let i := m.get F.MEM_SCRUB_POS_instance
  if !m.domOn .mgmt then m
  else if !m.domOn (instDomain i) then m.carderGo (i + 1)
  else match m.memi.spareAt with
    | some k =>
      let m := m.carderSpare i k cls syndrome
      if k = 63 then m.carderGo (i + 1) else { m with memi := { m.memi with spareAt := some (k + 1) } }
    | none =>
      let w := m.get F.MEM_SCRUB_POS_word
      let c := m.carderClass i w cls syndrome
      let m := { m with memi := { m.memi with upsets := unupset m.memi.upsets (wordAddr i w) 8 } }
      let m := (m.carderWord i w c.1 c.2).set F.MEM_SCRUB_POS_word (w + 1)
      if w = 16383 then { m with memi := { m.memi with spareAt := some 0 } } else m

def execCarderRead (cls : EccClass) (syndrome : Byte) (upsets : List Upset) (s : State) :
    Host.Outcome State Fault Refusal := eff s (s.mach.carder cls syndrome.toNat upsets)

/-! ## Program repair (R452) -/

/-- PROGRAM_REPAIR: the lowest poisoned code word of program memory is written in full from the image that was loaded. -/
def Mach.programRepair (m : Mach) : Mach :=
  match m.memi.poison.filter inProgMem with
  | [] => m
  | a :: as =>
    let a := as.foldl min a
    match m.slotCheck m.mgmt.loadedSlot 15 with
    | .ok p =>
      let i := (a - progMemBase) / 4
      ((m.storeFull a [p.words.getD i 0, p.words.getD (i + 1) 0]).on F.MEM_IRQ_STAT_repair).count Reg.MEM_CNT_REPAIR
    | .error _ => m.log 0x04 3 0 (BitVec.ofNat 32 a)

def execProgramRepair (s : State) : Host.Outcome State Fault Refusal :=
  let m := s.mach
  eff s (if m.domOn .spin0 && !m.power.distaffAbsent && m.repairWindow then m.programRepair else m)

/-! ## Remapped lines (R453, R454, R458) -/

/-- Serve a line from other storage: what it holds now is kept for the storage it leaves, and the other's content comes
in, zeros where nothing was kept.
DEDUCED: log entry 38. -/
def Mach.serveFrom (m : Mach) (i line : Nat) (was now : LineStore) : Mach :=
  if hasAddr i then
    let a := instBase i + 64 * line
    let m := m.meet a 64 Agent.carder
    let bad := (List.range 8).filter fun k => m.poisoned (a + 8 * k)
    let kept := (was, readBytes m.mem a 64, bad)
    let rest := m.memi.stash.filter fun e => e.1 != was
    let other := ((rest.find? fun e => e.1 == now).map (·.2)).getD (List.replicate 64 0, [])
    let m := { m with mem := writeBytes m.mem a other.1
                      memi := { m.memi with stash := kept :: rest.filter fun e => e.1 != now
                                            poison := unpoison m.memi.poison a 64 } }
    { m with memi := { m.memi with poison := m.memi.poison ++ other.2.map fun k => a + 8 * k } }
  else m

/-- The line's own cells are left for the spare line, to which its content is copied. -/
def Mach.copyToSpare (m : Mach) (i line e : Nat) : Mach :=
  if hasAddr i then
    let a := instBase i + 64 * line
    let m := m.meet a 64 Agent.carder
    let bad := (List.range 8).filter fun k => m.poisoned (a + 8 * k)
    let kept := (LineStore.own i line, readBytes m.mem a 64, bad)
    { m with memi := { m.memi with stash := kept :: m.memi.stash.filter fun s => s.1 != .own i line && s.1 != .spare i e } }
  else m

/-- LINE_REMAP: a weak line takes the lowest free entry; without one, and for a line that has an entry, the event is
logged.
DEDUCED: log entry 38. -/
def Mach.lineRemap (m : Mach) (i line : Nat) : Mach :=
  if (i, line) ∈ m.memi.weak ∧ (13 ≤ i ∧ i ≤ 39 → m.repairWindow) then
    let m := { m with memi := { m.memi with weak := drop1 m.memi.weak (i, line) } }
    match (if (m.remapOf i line).isSome then none else m.freeEntry i) with
    | some e =>
      let m := (m.copyToSpare i line e).wr (Reg.MEM_REMAP i e) (BitVec.ofNat 32 (2 ^ 31 + line))
      (m.on F.MEM_IRQ_STAT_remap).count Reg.MEM_CNT_REMAP
    | none => (m.on F.MEM_IRQ_STAT_remap_full).log 0x04 2 0 (BitVec.ofNat 32 i) (BitVec.ofNat 32 line)
  else m

def execLineRemap (inst : Nat) (line : BitVec 11) (s : State) : Host.Outcome State Fault Refusal :=
  let m := s.mach
  eff s (if m.domOn .mgmt && m.domOn (instDomain inst) then m.lineRemap inst line.toNat else m)

/-- An entry stops serving its line. -/
def Mach.entryFree (m : Mach) (i e : Nat) : Mach :=
  if m.flag (F.MEM_REMAP_valid i e) then
    let line := m.get (F.MEM_REMAP_line i e)
    m.serveFrom i line (.spare i e) (.own i line)
  else m

/-- A write to MEM_REMAP_i_e (R458), taken where it changes nothing (R10): the old line returns to its own storage; a valid entry serves its line from the spare line
as that stands.
DEDUCED: log entry 38. -/
def Mach.remapWrite (m : Mach) (i e : Nat) (data : Word) : Mach :=
  if (m.rd (Reg.MEM_REMAP i e) ^^^ data) &&& 0x800007FF = 0 then m
  else if m.lifeCycle ≠ .manufacture ∧ m.lifeCycle ≠ .service then m.refuse Err.lifeCycle
  else
    let same := data.getLsbD 31 && m.flag (F.MEM_REMAP_valid i e) && m.get (F.MEM_REMAP_line i e) == fieldOf data 0 11
    if same then m
    else
      let m := (m.entryFree i e).wr (Reg.MEM_REMAP i e) (data &&& 0x800007FF)
      let line := fieldOf data 0 11
      m.when (data.getLsbD 31) (·.serveFrom i line (.own i line) (.spare i e))

/-- MEM_REMAP_WRITE (R458). -/
def execMemRemapWrite (_master : Nat) (i : Nat) (e : BitVec 3) (data : Word) (s : State) :
    Host.Outcome State Fault Refusal :=
  eff s (s.mach.access (Reg.MEM_REMAP i e.toNat) fun m =>
    if 48 ≤ i then m.refuse Err.badAddress else m.remapWrite i e.toNat data)

/-- MEM_CLR_CNT (R458). -/
def Mach.memClear (m : Mach) : Mach :=
  m.clearRegs ([Reg.MEM_CNT_UE, Reg.MEM_CNT_POISON_HIT, Reg.MEM_CNT_MERGE,
    Reg.MEM_CNT_ABANDON, Reg.MEM_CNT_REPAIR, Reg.MEM_CNT_REMAP, Reg.MEM_CNT_PASS] ++ (List.range 48).map Reg.MEM_CNT_CE)

def execMemClrCnt (_master : Nat) (s : State) : Host.Outcome State Fault Refusal :=
  eff s (s.mach.access Reg.MEM_CTRL Mach.memClear)

end Sys2Proof.Machine
end

