-- ==== Sys2Proof/Machine/RunControl.lean ====
section
/-!
DEFINITION. Starting and stopping the string (ch. 16): the checks of R466 and the steps of R467, joins (R469), the host
stop and the STOPPING sequence (R463, R464), STOP_CLEAR (R468), mirrored run states (R358) and isolated positions (R519).
-/

namespace Sys2Proof.Machine

/-! ## Calibration records (R267, R499) -/

/-- Distaff fills the per-node arrays of the bank in force: wire drops, R_ref, capacity and state of charge. The words of a
record are taken as the words of its array entry, which the spec does not lay out.
DESIGN CHOICE: log entry 25. -/
def Mach.nodeArrays (m : Mach) : Mach :=
  m.each m.positions fun m n =>
    let r := fun k => (m.mgmt.cal (256 + 32 * n + k)).1
    let b := m.bankBase
    let m := m.storeWords (b + 0x1000 + 64 * n) ((r 0).take 15 ++ [0])
    let m := m.storeWords (b + 0x3000 + 32 * n) ((r 1).take 6 ++ [0, 0])
    let m := m.storeWords (b + 0x4000 + 32 * n) ((r 2).take 6 ++ [0, 0])
    m.storeWords (b + 0x5000 + 32 * n) ((r 3).take 7 ++ [0])

/-! ## The checks of a start (R466) -/

/-- The condition of a self-test (R516). -/
def Mach.testMay (m : Mach) (bit : Nat) : Bool :=
  let off := m.runState == .off
  match bit with
  | 2 => m.get F.SPN_STAT_state != 0 && m.get F.SPN_STAT_state != 4 && m.domOn .spin0
  | 3 => off && m.lifeCycle != .decommissioned
  | 4 => off
  | 5 => off && !m.flag F.SAF_INPUT_brk_aux_a && !m.flag F.SAF_INPUT_brk_aux_b
  | 6 => off && m.safety.conds.isEmpty
  | 7 => off && m.role == .solo
  | _ => true

/-- The test that a running SELFTEST stands in until its work is done: the first of its mask that is not skipped.
DEDUCED: log entry 45. -/
def Mach.testNow (m : Mach) (n : Nat) : Option Nat :=
  if m.opWorks n 10 then (List.range 8).find? fun b => (m.rd (Reg.OP_ARG n 0)).getLsbD b && m.testMay b else none

/-- A slot in which a self-test runs that R517 names. -/
def Mach.testSlot (m : Mach) : Option Nat := (List.range 16).find? fun n => (m.testNow n).any (3 ≤ ·)

/-- A LIFECYCLE_SET runs, or the module reset that ends one is pending. -/
def Mach.lifeChanging (m : Mach) : Bool :=
  m.power.lifePend || m.power.resetPend.isSome || (List.range 16).any fun n => m.opState n == 2 && m.opCode n == 0x18

/-- Every island's clock is good. -/
def Mach.clocksOk (m : Mach) : Bool := m.rd Reg.PWR_CI_STAT &&& 0xFFF == 0xFFF

/-- The array is LOADED, or will be: the OFF step of a start from SAFE_HOLD leaves a running array LOADED, and the boot
slot holds a valid program for an array that is off. -/
def Mach.programThere (m : Mach) : Bool :=
  let st := m.get F.SPN_STAT_state
  if m.domOn .spin0 then st == 1 || (m.runState == .safeHold && (st == 2 || st == 4))
  else match m.slotCheck m.mgmt.bootSlot 15 with | .ok _ => true | .error _ => false

/-- The breaker reports open in both channels, and no node is in INSERT or TRIM. -/
def Mach.deenergised (m : Mach) : Bool :=
  !m.flag F.SAF_INPUT_brk_aux_a && !m.flag F.SAF_INPUT_brk_aux_b && !m.anyLive

/-- The pair conditions of R348 that this module can see: its settings, the partner's lease, slots that differ, equal
settings and program identities, a locked time base.
DESIGN CHOICE: log entry 67. -/
def Mach.pairOk (m : Mach) : Bool :=
  m.pairRing && m.domOn .xlink && m.flag F.XL_STAT_lease_ok && m.flag F.XL_STAT_link_ok
    && m.pair.alike && m.get F.XL_STAT_partner_slot != m.get F.GLB_SLOT_slot && m.pair.partnerProg == m.rd Reg.SPN_PROG_ID
    && m.get F.TB_STAT_state == Sync.locked

/-- The first check that fails, in the order of R466, with its code and aux.
DEDUCED: log entry 26. -/
def Mach.startError (m : Mach) : Option (BitVec 16 × Nat) :=
  let code := fun (e : BitVec 16) => some (e, 0)
  if m.runState ≠ .off ∧ m.runState ≠ .safeHold then code Err.refusedState
  else if m.lifeCycle ≠ .field ∧ m.lifeCycle ≠ .service then code Err.lifeCycle
  else if m.power.safeMode then code Err.refusedState
  else if m.lifeChanging then code Err.refusedState
  else if m.extest then code Err.refusedState
  else if m.mgmt.updOwner ≠ 0 then some (Err.busy, m.mgmt.updOwner)
  else match m.testSlot with
    | some n => some (Err.busy, m.get (F.OP_OWNER_owner n))
    | none =>
      if !m.clocksOk then code Err.refusedState
      else if m.get (F.CH_CFG_nodes 0) = 0 then code Err.config
      else if !m.programThere then code Err.noProgram
      else if m.supply ≠ .normal ∨ m.get F.PWR_SUP_STAT_store_level < 90 then code Err.supply
      else if !m.deenergised then code Err.energised
      else if !m.flag F.SAF_STAT_run_permit ∨ !m.safety.conds.isEmpty then code Err.noPermit
      else if m.startForbidden then code Err.protection
      else if m.flag F.XL_CFG_pair_en ∧ !m.pairOk then code Err.pair
      else none

/-! ## The steps of a start (R467) -/

/-- The domains that a start needs (R23). -/
def Mach.startNeeds (m : Mach) : List Domain :=
  [Domain.sense, .frame, .spin0, .chain] ++ (if 64 < m.get (F.CH_CFG_nodes 0) then [Domain.spin1] else [])
    ++ (if m.flag F.XL_CFG_pair_en then [Domain.xlink] else [])

/-- DOMAINS: needed domains come on, the program is loaded into an array that was off; the cycles need the Flyer. -/
def Mach.startDomains (m : Mach) : Mach × Option (BitVec 16) :=
  let m := m.setStep Step.domains
  let needs := m.startNeeds
  if needs.any fun d => m.get (pdField d) == 3 then (m, some Err.domainOff)
  else
    let off := !m.domOn .spin0
    let m := m.each needs Mach.domainOn
    let m := (m.when off (·.loadBootSlot)).when (!m.cyclesOn) (·.cyclesStart)
    (m, if m.get F.SPN_STAT_state = 1 then none else some Err.noProgram)

/-- PARAM: the safety set of the running image is loaded (R346), the per-node arrays are filled (R267).
DESIGN CHOICE: log entry 25. -/
def Mach.startParam (m : Mach) : Mach × Option (BitVec 16) :=
  let m := m.each ((List.range 16).zip ((m.mgmt.running.map (·.safety)).getD [])) fun m (n, w) => m.wr (Reg.SAF_PARAM n) w
  let m := m.paramLoad
  if m.flag F.SAF_STAT_param_ok ∧ m.flag F.SAF_STAT_run_permit then (m.nodeArrays, none) else (m, some Err.noPermit)

/-- CYCLES: the ports launch, the array is to run from the next sample instant. -/
def Mach.startCycles (m : Mach) : Mach × Option (BitVec 16) :=
  let m := (m.setStep Step.cycles).each m.chainPorts fun m p => m.on (F.CH_CTRL_launch (portIx p))
  if m.get F.SPN_STAT_state = 1 ∧ m.cyclesOn then ({ m with spin := { m.spin with runPend := true } }, none)
  else (m, some Err.noProgram)

/-- ROVE: the walk with its node loads and admission checks, with the transmitters of the ports on. -/
def Mach.startRove (m : Mach) (w : WalkResult) : Mach × Option (BitVec 16) :=
  let m := m.setStep Step.rove
  let lit := m.chainPorts.all fun p => m.portUp p && m.flag (F.CH_LINK_STAT_tx_on (portIx p))
  m.walk { w with locked := w.locked && lit }

/-- A step that fails ends the start; a latched cause taken in it keeps its run state (R463). -/
def Mach.stepEnd (m : Mach) (r : Mach × Option (BitVec 16)) (next : Mach → Mach) : Mach :=
  match r.2 with
  | none => next r.1
  | some e =>
    if m.runState = .starting ∧ r.1.runState = .starting then r.1.startFail e
    else (r.1.set F.PWR_RUN_STAT_fail e.toNat).on F.PWR_IRQ_STAT_start_fail

/-- The steps up to CYCLES, which run to their end in the command that starts the string.
DESIGN CHOICE: log entry 25. -/
def Mach.startSteps (m : Mach) (w : WalkResult) : Mach :=
  m.stepEnd m.startDomains fun m =>
    m.stepEnd (m.setStep Step.param).startParam fun m =>
      m.stepEnd (m.startRove w) fun m => m.stepEnd m.startCycles id

/-- The pair forms (R350): both modules stand by until the lower-slot one takes the claim. -/
def Mach.pairForm (m : Mach) : Mach :=
  let rel := if m.flag F.XL_STAT_claim_in then none else m.pair.releasedNs.orElse fun _ => some m.upNs
  { m.standBy with pair := { m.pair with formed := true, releasedNs := rel } }.canPair

/-- The run state enters STARTING, from SAFE_HOLD through OFF in the same step (R463). -/
def Mach.enterStarting (m : Mach) : Mach :=
  let m := m.when (m.runState == .safeHold) (·.toRun .off Cause.hostStart)
  ((m.toRun .starting Cause.hostStart).set F.FLY_PRE_STAT_pre_state 0).setStep Step.checks

/-- A start begins; in a pair it is mirrored unless the partner's start began it. -/
def Mach.startBegin (m : Mach) (w : WalkResult) (mirrored : Bool) : Mach :=
  let m := m.enterStarting
  let m := m.when (m.flag F.XL_CFG_pair_en) fun m =>
    let m := m.pairForm
    if mirrored then m else m.sendMirror (.runState 1 (BitVec.ofNat 8 Cause.hostStart))
  m.startSteps w

/-! ## Joining (R469) -/

/-- The partner is ACTIVE in PRECHARGE, RUN or STOPPING: a start joins it. -/
def Mach.partnerRuns (m : Mach) : Bool :=
  m.flag F.XL_CFG_pair_en && m.flag F.XL_STAT_lease_ok && m.get F.XL_STAT_partner_role == 1
    && decide (2 ≤ m.get F.XL_STAT_partner_run) && decide (m.get F.XL_STAT_partner_run ≤ 4)

/-- Step 2 of a join: the delays from its own port A, one echo per cycle, and with the partner's delays the ring latency (R112); the
node image is loaded into memory alone. -/
def Mach.joinDelays (m : Mach) (w : WalkResult) : Mach × Option (BitVec 16) :=
  let m := m.each (List.range m.nodeCount) fun m k => m.echoSend .a (m.upNs + k * m.periodNs) k
  let r := m.hopDelays w.nodes
  if w.nodes.length = m.nodeCount ∧ w.nodes.all (fun n => n.roundA.isSome && m.hasNodeImage n) then
    let m := r.2.each ((List.range r.1.length).zip r.1) fun m (n, h) =>
      match h.own with | some d => m.setDelay .a n d | none => m
    let rl := formedLat m.posZero (r.1.any (·.other.isNone)) r.1
    let m := m.each [0, 1] fun m x => m.set (F.CH_RING_LAT_ring_lat x) (min 0xFFFF rl)
    let ids := w.nodes
    ({ m with chain := { m.chain with ids } }, none)
  else (r.2, some Err.chain)

/-- BRK_TRIP at the end of the PARAM step of a join (R477). -/
def Mach.joinParam (m : Mach) : Mach × Option (BitVec 16) :=
  let r := m.startParam
  match r.2 with | none => (r.1.energiseTrip, none) | some e => (r.1, some e)

/-- A join: STANDBY from its first cycle, which the next sample instant begins.
DESIGN CHOICE: log entry 25. -/
def Mach.joinBegin (m : Mach) (w : WalkResult) : Mach :=
  let m := m.enterStarting.pairForm
  let m := { m with power := { m.power with joining := true } }
  let back := fun (r : Mach × Option (BitVec 16)) => (r.1.setStep Step.join, r.2)
  m.stepEnd (back m.startDomains) fun m =>
    m.stepEnd (back (m.setStep Step.join).joinParam) fun m =>
      m.stepEnd (m.joinDelays w) fun m => m.stepEnd (back m.startCycles) id

/-- RUN_START is accepted and begins a start or a join, or is refused.
DESIGN CHOICE: log entry 25. -/
def Mach.runStart (m : Mach) (w : WalkResult) : Mach × BitVec 16 × Nat :=
  match m.startError with
  | some (e, aux) => (m, e, aux)
  | none => (if m.partnerRuns then m.joinBegin w else m.startBegin w false, Err.ok, 0)

/-- RUN_START (R466, R479). -/
def execRunStart (b : BitVec 4) (w : WalkResult) (s : State) : Host.Outcome State Fault Refusal :=
  let m := s.mach
  eff s (if m.mbxServes b.toNat 0x10 then
    let r := m.runStart w
    r.1.mbxAnswer b.toNat r.2.1 r.2.2
  else m)

/-! ## SETTLE and STOP_CLEAR (R467, R468) -/

/-- STOP_CLEAR leaves to a position, or to all with 0xFF, and the nodes take it; MGMT frames are the claim holder's (R350). -/
def Mach.stopClearSend (m : Mach) (pos : Nat) : Mach :=
  m.when m.mayManage (·.mgmtReq pos opStopClear 0 [])

/-- SETTLE_COUNT_END, once the 1000 cycles of the step have passed: every position has delivered slots and a cell record, without ov_uv or loop_lost; the checks of
R314 on the first results.
DESIGN CHOICE: log entry 25. -/
def Mach.settleEnd (m : Mach) : Mach :=
  if m.inStep Step.settle ∧ m.power.startLeft = 0 then
    let fresh := fun (v : Vector Nat 128) (n : Nat) => decide (v.toList.getD n 1000 < 1000)
    let delivered := m.positions.all fun n => (m.chain.lastSlot.toList.getD n none).isSome
      && (m.chain.lastRec.toList.getD n none).isSome && fresh m.chain.slotAge n && fresh m.chain.recAge n
    if !delivered || m.power.settleBad then m.startFail Err.chain
    else if m.startForbidden then m.startFail Err.protection
    else
      let m := (m.setStep Step.stopClear).stopClearSend 0xFF
      { m with power := { m.power with startLeft := 10 } }
  else m

def execSettleCountEnd (s : State) : Host.Outcome State Fault Refusal := eff s s.mach.settleEnd

/-- The mailbox STOP_CLEAR (R468). -/
def Mach.stopClearMbx (m : Mach) (pos : Nat) : Mach × BitVec 16 :=
  if m.runState.rest ∧ !m.flag F.FLY_STOP_active ∧ m.safety.conds.isEmpty then (m.stopClearSend pos, Err.ok)
  else (m, Err.noPermit)

def execStopClear (b : BitVec 4) (s : State) : Host.Outcome State Fault Refusal :=
  let m := s.mach
  eff s (if m.mbxServes b.toNat 0x12 then
    match m.mbxWords b.toNat with
    | [w] =>
      let r := m.stopClearMbx (fieldOf w 0 8)
      r.1.mbxAnswer b.toNat r.2
    | _ => m.mbxAnswer b.toNat Err.badLength
  else m)

/-! ## Stopping (R463, R464) -/

/-- The stop of PRECHARGE: through STOPPING where the breaker reports closed; a close pulse runs to its end first. -/
def Mach.stopPrecharge (m : Mach) : Mach :=
  if m.safety.closeOn then { m with power := { m.power with afterClose := some Cause.hostStop } }
  else m.toRun (if m.brkClosed then .stopping else .safeHold) Cause.hostStop

/-- RUN_STOP by the run state.
DEDUCED: log entry 26. -/
def Mach.runStop (m : Mach) : Mach × BitVec 16 :=
  if m.role = .standby then (m, Err.role)
  else match m.runState with
    | .off | .faultLatched => (m, Err.refusedState)
    | .starting =>
      let m := m.toRun .off Cause.hostStop
      ({ m with power := { m.power with joining := false, startLeft := 0 } }, Err.ok)
    | .safeHold => (m.toRun .off Cause.hostStop, Err.ok)
    | .precharge => (m.stopPrecharge, Err.ok)
    | .run => (m.toRun .stopping Cause.hostStop, Err.ok)
    | .stopping => (m, Err.ok)

/-- RUN_STOP (R463, R479). -/
def execRunStop (b : BitVec 4) (s : State) : Host.Outcome State Fault Refusal :=
  let m := s.mach
  eff s (if m.mbxServes b.toNat 0x11 then
    let r := m.runStop
    r.1.mbxAnswer b.toNat r.2
  else m)

/-- STOP_CURRENT_ZERO (R464): Distaff forces BLOCK and makes the open request; in HOLDUP the run state is SAFE_HOLD at once
(R471), and with the breaker open already the sequence is complete. -/
def Mach.currentZero (m : Mach) : Mach :=
  if m.runState = .stopping ∧ m.power.distaffAbsent = false then
    if m.supply = .holdup then m.holdupOpen
    else
      let m := m.blockAndOpen
      if m.flag F.SAF_INPUT_brk_aux_a ∨ m.flag F.SAF_INPUT_brk_aux_b then m else m.brkNowOpen
  else m

def execStopCurrentZero (s : State) : Host.Outcome State Fault Refusal := eff s s.mach.currentZero

/-- OPEN_REQUEST_TIMEOUT (R464): 100 ms after the open request the breaker still does not report open. -/
def execOpenRequestTimeout (s : State) : Host.Outcome State Fault Refusal :=
  let m := s.mach
  eff s (if m.runState = .stopping ∧ m.power.openReq then (m.await .openReq 100000000).escalate else m)

/-- POSITION_ISOLATED (R519): missing from both ends for 1000 cycles under RING_BROKEN, Distaff performs a RUN_STOP and
logs the isolated positions as a mask. -/
def Mach.isolate (m : Mach) (pos : Nat) : Mach :=
  if m.ringBroken ∧ 1000 ≤ m.chain.bothEnds.toList.getD pos 0 ∧ pos < m.nodeCount then
    let m := { m with chain := { m.chain with isolated := addOnce m.chain.isolated pos } }
    if (m.runState = .precharge ∨ m.runState = .run) ∧ m.power.distaffAbsent = false ∧ m.role ≠ .standby then
      m.runStop.1.log 0x05 1 15 (BitVec.ofNat 32 pos)
    else m
  else m

def execPositionIsolated (pos : Nat) (s : State) : Host.Outcome State Fault Refusal := eff s (s.mach.isolate pos)

/-! ## Mirrored items on the standby (R358) -/

/-- A mirrored run state: a start begins here as well, a failed one ends it, any other transition is followed. -/
def Mach.mirrorRun (m : Mach) (code cause : Nat) (w : WalkResult) : Mach :=
  let dst := RunState.ofCode code
  if dst = .starting then
    match m.startError with
    | none => m.startBegin w true
    | some (e, _) =>
      let m := (m.set F.PWR_RUN_STAT_fail e.toNat).on F.PWR_IRQ_STAT_start_fail
      m.sendMirror (.runState 0 (BitVec.ofNat 8 Cause.startFail))
  else if m.pair.formed ∧ m.role = .standby then
    if m.runState = dst then m
    else if dst = .precharge then m.enterPrecharge
    else m.toRun dst cause
  else if m.runState = .starting ∧ dst = .off then m.toRun .off cause
  else m

/-- A mirrored item on the standby; a swap request with another bank CRC makes it not ready (R358). -/
def Mach.mirrorTake (m : Mach) (seq : Word) (item : MirrorItem) (w : WalkResult) : Mach :=
  match item with
  | .runState code cause => m.mirrorRun code.toNat cause.toNat w
  | .swapReq c crc =>
    if m.role ≠ .standby then m
    else if m.bankCrc m.shadowBase = crc then (m.swapTake c).sendXl (.ack seq true)
    else ({ m with pair := { m.pair with notReady := true } }.readyForm).sendXl (.ack seq false)
  | item => if m.role = .standby then (m.applyItem item).when (itemWaits item) (·.sendXl (.ack seq true)) else m

/-- MIRROR (R358). -/
def execMirror (seq : Word) (item : MirrorItem) (w : WalkResult) (bad : Bool) (s : State) : Host.Outcome State Fault Refusal :=
  eff s (s.mach.xlRx bad (·.mirrorTake seq item w))

end Sys2Proof.Machine
end

