-- ==== Sys2Proof/Machine/Ladder.lean ====
section
/-!
DEFINITION. The recovery ladder (R473 to R478): functional reinitialisation, module reset and power cycle by request, the
reset guard, and what Distaff and the supervisor do on their own.
-/

namespace Sys2Proof.Machine

/-! ## Functions (R474) -/

/-- The code of a function. -/
def funcCode : ReFunc → Nat
  | .chainA => 0 | .chainB => 1 | .spindle => 2 | .host => 3 | .can0 => 4 | .can1 => 5 | .sense => 6 | .xlink => 7
  | .mbx => 8

/-- The function of a code. -/
def funcOf (n : Nat) : Option ReFunc :=
  [ReFunc.chainA, .chainB, .spindle, .host, .can0, .can1, .sense, .xlink, .mbx][n]?

/-- A domain is reinitialised: its content is lost, and it zeroises until the function is complete. -/
def Mach.domainAgain (m : Mach) (d : Domain) : Mach := if m.domOn d then (m.domainReset d).set (pdField d) 1 else m

/-- SPINDLE: a claim that still stands is released (R353), TRAPPED ends, program memory is repaired, the array is LOADED; SPN_TRAP and lane memory stay. -/
def Mach.reSpindle (m : Mach) : Mach :=
  if m.domOn .spin0 then
    let m := (m.releaseClaim .reset).each (m.memi.poison.filter inProgMem) fun m _ => m.programRepair
    let m := m.arrayUnload
    let m := m.when (m.get F.SPN_STAT_state != 0) (·.set F.SPN_STAT_state 1)
    { m with pair := { m.pair with notReady := m.pair.notReady || m.role == Role.standby } }.readyForm
  else m

/-- XLINK: the claim is released, the partner is lost; the configuration and the level of CLAIM_IN stay.
DEDUCED: log entry 27. -/
def Mach.reXlink (m : Mach) : Mach :=
  let m := m.releaseClaim .reset
  let cfg := m.rd Reg.XL_CFG
  let claim := m.flag F.XL_STAT_claim_in
  let formed := m.pair.formed
  let m := m.domainAgain .xlink
  let m := m.wr Reg.XL_CFG cfg
  { m with pair := { m.pair with formed := formed, notReady := true
                                 releasedNs := if claim then none else some m.upNs } }.lostForm

/-- MBX (R405). -/
def Mach.reMbx (m : Mach) : Mach :=
  let m := m.mbxFlush Err.receiverReset
  m.clearRegs ((List.range 16).map Reg.MBX_LOCK ++ (List.range 16).map Reg.MBX_GLOCK)

/-- A standby whose sense interface begins anew is not ready for 1000 cycles (R182, R474); master 14 still holds its set-point
registers (R358).
DEDUCED: log entry 27. -/
def Mach.waitReady (m : Mach) : Mach :=
  let m := m.when (m.role == .standby) (·.wr Reg.SNS_SP_OWNER 14)
  { m with pair := { m.pair with readyWait := if m.role = Role.standby then 1000 else 0 } }.readyForm

/-- What a function's reinitialisation does at its start. -/
def Mach.reinitEffect (m : Mach) : ReFunc → Mach
  | .chainA => m.when (m.domOn .chain) fun m => (m.lockLost .a).readyForm
  | .chainB => m.when (m.domOn .chain) (·.lockLost .b)
  | .spindle => m.reSpindle
  | .host => m.closeSessions.domainAgain .host
  | .can0 => m.when (m.domOn .can) (·.canReinit 0)
  | .can1 => m.when (m.domOn .can) (·.canReinit 1)
  | .sense => (m.domainAgain .sense).waitReady
  | .xlink => m.reXlink
  | .mbx => m.reMbx

/-- What its completion does. -/
def Mach.reinitComplete (m : Mach) : ReFunc → Mach
  | .spindle => m.when (m.cyclesOn && m.get F.SPN_STAT_state == 1) fun m =>
      { m with spin := { m.spin with runPend := true } }
  | .host => m.zeroiseDone .host
  | .sense => (m.zeroiseDone .sense).waitReady
  | .xlink => m.zeroiseDone .xlink
  | _ => m

/-! ## Requests (R473) -/

/-- The masters of PWR_RESET_CTRL (R480). -/
def ladderMaster (k : Nat) : Bool := decide (1 ≤ k ∧ k ≤ 8) || k == 13 || k == 15

/-- A second request while one runs is refused with BUSY, aux the requester. -/
def Mach.ladderBusy (m : Mach) : Option (BitVec 16 × Nat) :=
  if m.flag F.PWR_LADDER_STAT_busy then some (Err.busy, m.get F.PWR_LADDER_STAT_master) else none

/-- A ready partner stands behind an ACTIVE module. -/
def Mach.partnerReady (m : Mach) : Bool := m.flag F.XL_STAT_partner_ready && !m.pair.partnerLost

/-- The refusal of a FUNC_REINIT. -/
def Mach.reinitError (m : Mach) (f : ReFunc) : Option (BitVec 16 × Nat) :=
  match m.ladderBusy with
  | some e => some e
  | none =>
    if m.runState = .starting ∧ f ≠ .host ∧ f ≠ .can0 ∧ f ≠ .mbx then some (Err.refusedState, 0)
    else if f = .host ∧ m.flag F.SAF_TEL_STAT_can_lost then some (Err.noPermit, 0)
    else if f = .can1 ∧ m.flag F.SAF_TEL_STAT_eth_lost then some (Err.noPermit, 0)
    else none

/-- The refusal of a MODULE_RESET. -/
def Mach.resetError (m : Mach) : Option (BitVec 16 × Nat) :=
  match m.ladderBusy with
  | some e => some e
  | none =>
    let paired := (m.role == .active && m.partnerReady) || m.role == .standby
    if m.supply = .holdup then some (Err.supply, 0)
    else if paired && m.flag F.SAF_TEL_STAT_can_lost then some (Err.noPermit, 0)
    else none

/-- PWR_LADDER_STAT shows an action; a host's request ends the stop on automatic resets (R476). -/
def Mach.ladderShow (m : Mach) (rung fn master : Nat) : Mach :=
  let m := ((m.on F.PWR_LADDER_STAT_busy).set F.PWR_LADDER_STAT_rung rung).set F.PWR_LADDER_STAT_function fn
  let m := m.set F.PWR_LADDER_STAT_master master
  if master = 15 then m
  else { m.set F.PWR_LADDER_STAT_auto_resets 0 with power := { m.power with autoAt := [] } }

/-! ## Actions (R474, R475) -/

/-- An action starts; the guard, if there was one, ends with sw_release. -/
def Mach.actionStart (m : Mach) (a : LadderAction) : Mach :=
  let guarded := m.power.guard.isSome
  let m := { m with power := { m.power with guard := none } }
  let m := m.when (guarded && m.domOn .chain) (·.withdrawStop .sw)
  match a with
  | .hold => m
  | .moduleReset cause _ => { m with power := { m.power with action := some a, resetPend := some cause } }
  | .reinit f _ =>
    let m := { m with power := { m.power with action := some a } }
    let m := (m.set F.PWR_RESET_CAUSE_function (funcCode f)).count (Reg.PWR_CNT_REINIT (funcCode f))
    m.reinitEffect f

/-- The breaker reports open in both channels. -/
def Mach.brkOpen (m : Mach) : Bool := !m.flag F.SAF_INPUT_brk_aux_a && !m.flag F.SAF_INPUT_brk_aux_b

/-- Steps 1 and 2 of the guard for an action; with the breaker open step 3 follows at once. -/
def Mach.guardFor (m : Mach) (a : LadderAction) : Mach :=
  let m := m.guardSteps Cause.guard
  let m := { m with power := { m.power with guard := some a } }
  if m.brkOpen then m.actionStart a else m

/-- An action that would stop a string that SOLO, or an ACTIVE module without a ready partner, holds. -/
def Mach.soloLike (m : Mach) : Bool := m.role == .solo || (m.role == .active && !(m.partnerReady && m.runState == .run))

/-- A FUNC_REINIT goes its way by role (R474). -/
def Mach.reinitBegin (m : Mach) (f : ReFunc) (master : Nat) : Mach :=
  let a := LadderAction.reinit f master
  let m := m.ladderShow 2 (funcCode f) master
  let stops := f = .spindle ∨ f = .sense
  if m.soloLike then
    if stops ∧ m.energised then m.guardFor a else m.actionStart a
  else if m.role = .active ∧ (stops ∨ f = .chainA) then
    { m.handoverPlan with power := { m.power with guard := some a } }
  else m.actionStart a

/-- A MODULE_RESET goes its way; the reset itself is MODULE_RESET_TAKE.
DEDUCED: log entry 27. -/
def Mach.resetBegin (m : Mach) (type master : Nat) : Mach :=
  let a := LadderAction.moduleReset (BitVec.ofNat 8 type) master
  let m := m.ladderShow 3 0 master
  if (m.role = .solo ∨ (m.role = .active ∧ !m.partnerReady)) ∧ m.energised then m.guardFor a else m.actionStart a

/-- RESET_GUARD (R475, R478): the breaker reports open, or 100 ms have passed; or the hand-over is made, or cannot be.
DEDUCED: log entry 27. -/
def Mach.resetGuard (m : Mach) : Mach :=
  match m.power.guard with
  | none => m
  | some a =>
    if m.pair.handoverAt.isSome then
      if m.partnerReady then m
      else { m with pair := { m.pair with handoverAt := none } }.guardFor a
    else (m.when (!m.brkOpen) (·.await .openReq 100000000)).actionStart a

def execResetGuard (s : State) : Host.Outcome State Fault Refusal := eff s s.mach.resetGuard

/-! ## Commands (R473, R479, R480) -/

/-- A request through a mailbox, a register, or by Distaff itself. The register needs its key, each a permitted master;
for a master that is not, the spec names no code. -/
def Mach.ladderReq (m : Mach) (r : LadderReq) (op : Nat) (err : Mach → Option (BitVec 16 × Nat)) (go : Mach → Nat → Mach) :
    Mach :=
  match r with
  | .mailbox b =>
    if m.mbxServes b op then
      let k := m.mbxCaller b
      if !ladderMaster k then m.mbxAnswer b Err.refusedState
      else match err m with
        | some (e, aux) => m.mbxAnswer b e aux
        | none => go (m.mbxAnswer b Err.ok) k
    else m
  | .register k key => m.access Reg.PWR_RESET_CTRL fun m =>
      if key ≠ 0x5AC3 then m.refuse Err.refusedValue
      else if !ladderMaster k then m.refuse Err.refusedState
      else match err m with
        | some (e, aux) => m.refuse e (BitVec.ofNat 32 aux)
        | none => go m k
  | .distaff => if m.power.distaffAbsent then m else match err m with | some _ => m | none => go m 15

/-- The function that a request names: the mailbox's word, or the field. -/
def Mach.reqFunc (m : Mach) (r : LadderReq) (f : BitVec 4) : Option ReFunc :=
  match r with
  | .mailbox b => match m.mbxWords b with
    | [w] => funcOf (fieldOf w 0 4)
    | _ => none
  | _ => funcOf f.toNat

/-- FUNC_REINIT. Distaff itself asks for SPINDLE when the array is TRAPPED, in SOLO once SAFE_HOLD is reached (R476). -/
def Mach.funcReinit (m : Mach) (r : LadderReq) (f : BitVec 4) : Mach :=
  let fn := m.reqFunc r f
  let bad : Option (BitVec 16 × Nat) := match r with
    | .mailbox b => some (if m.get (F.MBX_CTRL_length b) = 1 then Err.refusedValue else Err.badLength, 0)
    | _ => some (Err.refusedValue, 0)
  let auto := decide (fn = some .spindle) && m.get F.SPN_STAT_state == 3 && (m.role != .solo || m.runState.rest)
    && !m.holdsClaim
  if r = .distaff ∧ !auto then m
  else m.ladderReq r 0x13 (fun m => match fn with | none => bad | some f => m.reinitError f)
    (fun m k => match fn with | none => m | some f => m.reinitBegin f k)

def execFuncReinit (r : LadderReq) (f : BitVec 4) (s : State) : Host.Outcome State Fault Refusal :=
  eff s (s.mach.funcReinit r f)

/-- MODULE_RESET. -/
def Mach.moduleResetReq (m : Mach) (r : LadderReq) : Mach :=
  if r = .distaff then m else m.ladderReq r 0x14 Mach.resetError fun m k => m.resetBegin ResetType.host k

def execModuleReset (r : LadderReq) (s : State) : Host.Outcome State Fault Refusal := eff s (s.mach.moduleResetReq r)

/-- PWR_CYCLE_REQ is asserted; below the reset threshold it stays released (R45), as it does under boundary scan (R515), and the request that no rule refuses there
has no other effect.
DESIGN CHOICE: log entry 68. -/
def Mach.cycleBegin (m : Mach) (k : Nat) : Mach :=
  let m := (m.set F.PWR_LADDER_STAT_master k).set F.PWR_LADDER_STAT_auto_resets 0
  let m := { m with power := { m.power with autoAt := [] } }
  if m.supply = .holdup ∨ m.extest then m
  else ({ m.send (.powerCycle true) with power := { m.power with pwrCycleReq := true } }).mark .powerCycle

/-- POWER_CYCLE: refused while energised, in every role. -/
def Mach.powerCycle (m : Mach) (r : LadderReq) : Mach :=
  if r = .distaff then m
  else m.ladderReq r 0x15 (fun m => match m.ladderBusy with
    | some e => some e
    | none => if m.energised then some (Err.energised, 0) else none) Mach.cycleBegin

def execPowerCycle (r : LadderReq) (s : State) : Host.Outcome State Fault Refusal := eff s (s.mach.powerCycle r)

/-- A write to PWR_RESET_CTRL (R480): the key, then the action. -/
def Mach.resetCtrlWrite (m : Mach) (master : Nat) (data : Word) : Mach :=
  let r : LadderReq := .register master (BitVec.ofNat 16 (fieldOf data 16 16))
  match fieldOf data 0 3 with
  | 1 => m.funcReinit r (BitVec.ofNat 4 (fieldOf data 8 4))
  | 2 => m.moduleResetReq r
  | 3 => m.powerCycle r
  | _ => m.refuse Err.refusedValue

/-- POWER_CYCLE_PULSE_END: 500 ms after the assertion. -/
def execPowerCyclePulseEnd (s : State) : Host.Outcome State Fault Refusal :=
  let m := s.mach
  eff s (if m.power.pwrCycleReq then (m.await .powerCycle 500000000).send (.powerCycle false) else m)

/-- POWER_CYCLE_FAIL: the supply has not fallen 5 s after the assertion. -/
def execPowerCycleFail (s : State) : Host.Outcome State Fault Refusal :=
  let m := s.mach
  eff s (if m.power.pwrCycleReq then
      let m := m.await .powerCycle 5000000000
      let m := ((m.send (.powerCycle false)).log 0x03 4).on F.PWR_IRQ_STAT_cycle_fail
      { m with power := { m.power with pwrCycleReq := false } }
    else m)

/-- REINIT_DONE (R474). -/
def Mach.reinitDone (m : Mach) : Mach :=
  match m.power.action with
  | some (.reinit f _) =>
    let m := (m.reinitComplete f).on F.PWR_IRQ_STAT_reinit_done
    let m := (m.off F.PWR_LADDER_STAT_busy).set F.PWR_LADDER_STAT_rung 0
    { m with power := { m.power with action := none } }
  | _ => m

def execReinitDone (s : State) : Host.Outcome State Fault Refusal := eff s s.mach.reinitDone

/-! ## Automatic actions (R461, R476) -/

/-- Distaff reinitialises a function on its own, unless the request would be refused. -/
def Mach.autoReinit (m : Mach) (f : ReFunc) : Mach :=
  if m.power.distaffAbsent then m
  else match m.reinitError f with
    | some _ => m
    | none => m.reinitBegin f 15

/-- An automatic module reset; after 2 within 1 h there is none, and the supervisor keeps the string safe. -/
def Mach.autoReset (m : Mach) : Mach :=
  let recent := m.power.autoAt.filter fun t => decide (m.upNs < t + 3600 * 1000000000)
  if m.get F.PWR_LADDER_STAT_auto_resets = 2 ∨ 2 ≤ recent.length then
    let m := m.set F.PWR_LADDER_STAT_auto_resets 2
    if m.energised && m.power.guard.isNone then
      let m := m.guardSteps Cause.guard
      { m with power := { m.power with guard := some .hold } }
    else m
  else match m.resetError with
    | some _ => m
    | none =>
      let m := { m with power := { m.power with autoAt := m.upNs :: recent } }
      (m.set F.PWR_LADDER_STAT_auto_resets (recent.length + 1)).resetBegin ResetType.auto 15

/-- DISTAFF_ABSENT_TIMEOUT (R461): absent for 2 s, or restarted 3 times within 10 min. -/
def execDistaffAbsentTimeout (s : State) : Host.Outcome State Fault Refusal :=
  let m := s.mach
  let recent := m.power.restarts.filter fun t => decide (m.upNs ≤ t + 600 * 1000000000)
  let often := decide (3 ≤ recent.length)
  eff s (if m.power.distaffAbsent || often then
      let m := m.when (!often) (·.await .distaff 2000000000)
      { m with power := { m.power with restarts := [] } }.autoReset
    else m)

/-- CLOCK_RECOVERED (R476): the island's clock has been good for 10 ms.
DEDUCED: log entry 27. -/
def Mach.clockRecovered (m : Mach) (i : Island) : Mach :=
  if !m.clkOk i then m
  else
    let m := m.await (.clock i) 10000000
    match i with
    | .spin => m.autoReinit .spindle
    | .cha => m.autoReinit .chainA
    | .chb => m.autoReinit .chainB
    | .sense => m.autoReinit .sense
    | .frame | .time => if m.runState.rest && !m.power.distaffAbsent then m.autoReset else m
    | .eth0 | .eth1 => m.autoReinit .host
    | .can => match m.reinitError .can0 with
      | some _ => m
      | none => if m.power.distaffAbsent then m else ((m.reinitBegin .can0 15).reinitDone).autoReinit .can1
    | .xlink => m.autoReinit .xlink
    | .mgmt | .safe => m

def execClockRecovered (i : Island) (s : State) : Host.Outcome State Fault Refusal := eff s (s.mach.clockRecovered i)

/-- PORT_LOCK_TIMEOUT: once, then an event alone until the lock returns. -/
def Mach.lockTimeout (m : Mach) (p : Port) : Mach :=
  let f := if p = .a then ReFunc.chainA else ReFunc.chainB
  if m.flag (F.CH_LINK_STAT_rx_lock (portIx p)) || m.power.distaffAbsent || !m.domOn .chain then m
  else
    let m := m.await (.lock p) 1000000000
    if f ∈ m.power.portRetried then m.log 0x05 2 0 (BitVec.ofNat 32 (portIx p))
    else { m with power := { m.power with portRetried := f :: m.power.portRetried } }.autoReinit f

def execPortLockTimeout (p : Port) (s : State) : Host.Outcome State Fault Refusal := eff s (s.mach.lockTimeout p)

/-- CAN_BUSOFF_TIMEOUT: bus-off for 1 s. -/
def execCanBusoffTimeout (x : BitVec 1) (s : State) : Host.Outcome State Fault Refusal :=
  let m := s.mach
  eff s (if m.domOn .can && m.get (F.CAN_STAT_state x.toNat) == 2 then
    (m.passUntil (m.canPort x.toNat).sinceNs 1000000000).autoReinit (if x = 0 then .can0 else .can1) else m)

/-- XLINK_DEAD_TIMEOUT: the receiver dead for 100 ms. -/
def execXlinkDeadTimeout (s : State) : Host.Outcome State Fault Refusal :=
  let m := s.mach
  eff s (if m.domOn .xlink && !m.flag F.XL_STAT_link_ok then (m.await .xlink 100000000).autoReinit .xlink else m)

/-- MAILBOX_TIMEOUT_LADDER: 3 timeouts within 1 min. -/
def execMailboxTimeoutLadder (s : State) : Host.Outcome State Fault Refusal :=
  let m := s.mach
  eff s (if 3 ≤ (m.power.mbxTimeouts.filter fun t => decide (m.upNs - t ≤ 60000000000)).length then
    { m with power := { m.power with mbxTimeouts := [] } }.autoReinit .mbx
  else m)

end Sys2Proof.Machine
end

