-- ==== Sys2Proof/Machine/HostIf.lean ====
section
/-!
DEFINITION. The host ring and the Dareri transport (ch. 13): ports and modules (R386, R388, R54), HSR and policing
(R387, R392), addressing (R390), sessions (R393, R394), messages other than REQUEST (R396, R400, R401), streams (R416)
and the ETH counters (R418).
-/

namespace Sys2Proof.Machine

/-! ## Ports (R386, R388, R390) -/

/-- A port's link changes (R388). -/
def Mach.setLink (m : Mach) (p : Nat) (up : Bool) : Mach :=
  if m.flag (F.ETH_PORT_STAT_link p) = up then m
  else (m.setB (F.ETH_PORT_STAT_link p) up).on F.ETH_IRQ_STAT_link

/-- Some host port is in service. -/
def Mach.ringServes (m : Mach) : Bool := m.ethServes 1 || m.ethServes 2

/-- LINK_UP: a port that has a rate comes up and sends one gratuitous ARP. -/
def execLinkUp (port : BitVec 1) (s : State) : Host.Outcome State Fault Refusal :=
  let m := s.mach
  let p := portNo port
  eff s (if m.ethServes p && m.get (F.ETH_PORT_STAT_speed p) != 0 then (m.setLink p true).send (.gratuitousArp port) else m)

/-- LINK_DOWN (R388). -/
def execLinkDown (port : BitVec 1) (s : State) : Host.Outcome State Fault Refusal :=
  eff s (s.mach.when (s.mach.domOn .host) (·.setLink (portNo port) false))

/-- The rate code of a module (R386). -/
def sfpSpeed : SfpKind → Nat
  | .tenGig => 2 | .oneGig => 1 | .none => 0 | .other => 0

/-- Drive a cage's pins (R53). -/
def Mach.setCage (m : Mach) (p : Nat) (c : Cage) : Mach :=
  { m with host := { m.host with cages := m.host.cages.setIfInBounds (p - 1) c } }

/-- SFP_MODULE_CHANGE (R53, R386): the port takes the rate of the module that is fitted now, with RS0 and RS1 low for
1000BASE-X and high for 10 Gbit/s; a port without a rate has its transmitter disabled. A faulted cage has no supply.
DEDUCED: log entry 43. -/
def Mach.sfpChange (m : Mach) (p : Nat) (k : SfpKind) : Mach :=
  let fault := m.flag (F.ETH_PORT_STAT_fault p)
  let speed := if fault then 0 else sfpSpeed k
  let m := (m.set (F.ETH_PORT_STAT_speed p) speed).setB (F.ETH_PORT_STAT_unsupported p) (k == .other)
  (m.setCage p ⟨speed == 2, speed == 0, !fault⟩).when (speed == 0) (·.setLink p false)

def execSfpModuleChange (port : BitVec 1) (k : SfpKind) (s : State) : Host.Outcome State Fault Refusal :=
  eff s (s.mach.when (s.mach.domOn .host) (·.sfpChange (portNo port) k))

/-- SFP_POWER_FAULT (R54): the cage's supply is switched off and the port reported faulted. -/
def execSfpPowerFault (port : BitVec 1) (s : State) : Host.Outcome State Fault Refusal :=
  let p := portNo port
  eff s (s.mach.when (s.mach.domOn .host) fun m =>
    (((m.on (F.ETH_PORT_STAT_fault p)).set (F.ETH_PORT_STAT_speed p) 0).setCage p ⟨false, true, false⟩).setLink p false)

/-- ARP_REQUEST_RX (R390): a claim of the module's own address by another is reported; the module answers on. -/
def Mach.arpRx (m : Mach) (src : BitVec 48) (target : Word) (claimsOwn : Bool) : Mach :=
  let m := m.when claimsOwn fun m => (m.on F.ETH_STAT_addr_conflict).on F.ETH_IRQ_STAT_addr_conflict
  m.when (target == m.rd Reg.ETH_IP_ADDR) (·.send (.arpReply src))

def execArpRequestRx (srcMac : BitVec 48) (target : Word) (claimsOwn : Bool) (s : State) :
    Host.Outcome State Fault Refusal :=
  eff s (s.mach.when (s.mach.domOn .host) (·.arpRx srcMac target claimsOwn))

/-- ICMP_ECHO_RX (R390): answered while fewer than 10 answers have left in the last second.
DEDUCED: log entry 43. -/
def Mach.icmpRx (m : Mach) (src : BitVec 48) : Mach :=
  let recent := m.host.icmpAt.filter fun t => decide (m.upNs < t + 1000000000)
  if recent.length < 10 then
    { m with host := { m.host with icmpAt := m.upNs :: recent } }.send (.icmpReply src)
  else m

def execIcmpEchoRx (srcMac : BitVec 48) (target : Word) (s : State) : Host.Outcome State Fault Refusal :=
  let m := s.mach
  eff s (m.when (m.domOn .host && target == m.rd Reg.ETH_IP_ADDR) (·.icmpRx srcMac))

/-! ## HSR (R387) -/

/-- The entries of the duplicate-discard table that are not older than 20 ms. -/
def Mach.hsrSeen (m : Mach) : List (BitVec 48 × BitVec 16 × Nat) :=
  m.host.seen.filter fun e => decide (m.upNs - e.2.2 ≤ 20000000)

/-- Deliver the first copy of a frame; discard and count the second. The table has 1024 entries. -/
def Mach.hsrDeliver (m : Mach) (port : BitVec 1) (src : BitVec 48) (seq : BitVec 16) : Mach :=
  let seen := m.hsrSeen
  if seen.any fun e => e.1 == src && e.2.1 == seq then
    { m with host := { m.host with seen := seen } }.count (Reg.ETH_CNT_DUP (portNo port))
  else
    let table := ((src, seq, m.upNs) :: seen).take 1024
    { m with host := { m.host with seen := table } }.send (.hsrDeliver port)

/-- A frame that a port receives.
DEDUCED: log entry 43. -/
def Mach.hsrRx (m : Mach) (port : BitVec 1) (f : HsrFrame) : Mach :=
  let p := portNo port
  let m := m.frameIn p
  let fwd := fun (m : Mach) => m.send (.hsrForward port)
  match f with
  | .ownReturned => m
  | .unicastOwn src seq n => m.police p [1] (8 * n) (·.hsrDeliver port src seq)
  | .unicastOther n => m.police p [0] (8 * n) fwd
  | .group src seq n => m.police p [0, 2] (8 * n) fun m => (fwd m).hsrDeliver port src seq
  | .supervision src seq => m.police p [3] 1 fun m => (fwd m).hsrDeliver port src seq

/-- HSR_FRAME_RX (R387). -/
def execHsrFrameRx (port : BitVec 1) (f : HsrFrame) (s : State) : Host.Outcome State Fault Refusal :=
  let m := s.mach
  eff s (m.when (m.ethServes (portNo port) && m.flag (F.ETH_PORT_STAT_link (portNo port))) (·.hsrRx port f))

/-- HSR_SUPERVISION_SEND, every 2 s with the NetId (R387). -/
def execHsrSupervisionSend (s : State) : Host.Outcome State Fault Refusal :=
  eff s (s.mach.when s.mach.ringServes fun m =>
    ((m.await .supervision 2000000000).mark .supervision).send (.hsrSupervision (m.get F.ETH_HSR_CFG_net_id)))

/-- BABBLE_WINDOW (R392): a 1 s window ends; more than 10 % of the port's frames in it were discarded. -/
def Mach.babbleEnd (m : Mach) (p : Nat) : Mach :=
  let w := m.host.window.toList.getD (p - 1) (0, 0)
  let m := { m with host := { m.host with window := m.host.window.setIfInBounds (p - 1) (0, 0) } }
  m.when (decide (w.1 < 10 * w.2)) fun m => (m.on (F.ETH_PORT_STAT_babble p)).on F.ETH_IRQ_STAT_babble

def execBabbleWindow (port : BitVec 1) (s : State) : Host.Outcome State Fault Refusal :=
  eff s (s.mach.when (s.mach.domOn .host) (·.babbleEnd (portNo port)))

/-! ## Sessions (R393, R394, R481) -/

/-- The certificate is accepted: in MANUFACTURE and DECOMMISSIONED on the service port alone, under Etiotan's production
anchor; else under an owner trust anchor. -/
def Mach.certOk (m : Mach) (svc : Bool) (c : ClientCert) : Bool :=
  if m.lifeCycle = .manufacture ∨ m.lifeCycle = .decommissioned then svc && c.production else c.ownerAnchor

/-- The number that a new session takes: 13 for the service port, else the lowest free of 1 to 8. -/
def Mach.freeSession (m : Mach) (svc : Bool) : Option Nat :=
  if svc then (if m.sessionOpen 13 then none else some 13)
  else ([1, 2, 3, 4, 5, 6, 7, 8]).find? fun k => !m.sessionOpen k

/-- A handshake ends with an alert. -/
def Mach.handshakeFail (m : Mach) : Mach := (m.count Reg.ETH_CNT_HS_FAIL).send (.closeAlert 0)

/-- DTLS_HANDSHAKE: Distaff completes it, where it is there and the port's domain is on. -/
def Mach.handshake (m : Mach) (svc : Bool) (c : ClientCert) : Mach :=
  if m.power.distaffAbsent || !m.domOn (if svc then .svc else .host) then m
  else if m.certOk svc c then
    match m.freeSession svc with
    | none => m.handshakeFail
    | some k =>
      let x : Session := ⟨k, c, [], m.upNs, false, 0⟩
      ({ m with host := { m.host with sessions := m.host.sessions ++ [x] } }.sessBit k true).on F.ETH_IRQ_STAT_session
  else m.handshakeFail

def execDtlsHandshake (svc : Bool) (cert : ClientCert) (s : State) : Host.Outcome State Fault Refusal :=
  eff s (s.mach.handshake svc cert)

/-- A session, if it is open. -/
def Mach.session (m : Mach) (s : Nat) : Option Session := m.host.sessions.find? (·.id == s)

/-- Change an open session. -/
def Mach.onSession (m : Mach) (s : Nat) (f : Session → Session) : Mach :=
  { m with host := { m.host with sessions := m.host.sessions.map fun x => if x.id = s then f x else x } }

/-- An authenticated record of a session arrived (R394). -/
def Mach.recordSeen (m : Mach) (s : Nat) : Mach :=
  let now := m.upNs
  m.onSession s fun x => { x with lastNs := now }

/-- KEEPALIVE: answered with a KEEPALIVE (R396). -/
def Mach.keepaliveRx (m : Mach) (x : Nat) : Mach := (m.recordSeen x).send (.dareri x keepaliveMsg)

def execKeepalive (x : Nat) (s : State) : Host.Outcome State Fault Refusal :=
  eff s (s.mach.when (s.mach.sessionOpen x) (·.keepaliveRx x))

/-- TELEGRAM (R391, R401): a ring session's body goes to the safety island; the service port takes none.
DEDUCED: log entry 44. -/
def Mach.telegramFrom (m : Mach) (s : Nat) (bs : List Byte) : Mach :=
  if !m.sessionOpen s then m
  else if s = 13 then m.recordSeen s
  else if !(m.recordSeen s).telFormOk bs then (m.recordSeen s).telegramRx .eth bs
  else
    let m := m.recordSeen s
    let was := m.safety.tel.ethSess
    let seq := telWord bs 0
    let now := if m.safety.tel.lastEth = some seq then was.filter (· != s) ++ [s] else [s]
    let put : Mach → List Nat → Mach := fun m l => { m with safety := { m.safety with tel := { m.safety.tel with ethSess := l } } }
    let m : Mach := (put m now).telegramRx .eth bs
    if m.safety.tel.lastEth = some seq then m else put m was

def execTelegram (x : Nat) (bytes : List Byte) (s : State) : Host.Outcome State Fault Refusal :=
  eff s (s.mach.telegramFrom x bytes)

/-- The masters' right to close a session by ETH_SESS_CLOSE (R418): the refusal and its holder.
DEDUCED: log entry 44. -/
def sessCloseRefusal (master : Nat) (data : Word) : Option (BitVec 16 × Nat) :=
  let asked := ([1, 2, 3, 4, 5, 6, 7, 8, 13]).filter fun k => data.getLsbD k
  if 1 ≤ master ∧ master ≤ 8 then
    match asked.find? (· != master) with
    | some k => some (Err.notOwner, k)
    | none => none
  else if master = 13 ∧ data.getLsbD 13 then some (Err.refusedState, 0)
  else none

/-- A write to ETH_SESS_CLOSE. -/
def Mach.sessCloseWrite (m : Mach) (master : Nat) (data : Word) : Mach :=
  match sessCloseRefusal master data with
  | some (e, k) => m.refuse e (BitVec.ofNat 32 k)
  | none => m.each (([1, 2, 3, 4, 5, 6, 7, 8, 13]).filter fun k => data.getLsbD k) fun m k => m.closeSession k

/-- ETH_SESS_CLOSE_WRITE (R394). -/
def execEthSessCloseWrite (master : Nat) (data : Word) (s : State) : Host.Outcome State Fault Refusal :=
  eff s (s.mach.access Reg.ETH_SESS_CLOSE (·.sessCloseWrite master data))

/-! ## Event notifications (R36, R400) -/

/-- EVENT_NOTIFY: the condition of session `x` is looked at; where it has become non-zero since it was last zero, one
notification goes out.
DEDUCED: log entry 44. -/
def Mach.eventNotify (m : Mach) (x : Nat) : Mach :=
  match m.session x with
  | none => m
  | some z =>
    let en := m.rd (Reg.GLB_IRQ_EN x)
    let high := m.irqSum &&& en != 0
    let m := m.onSession x fun z => { z with irqHigh := high }
    if high && !z.irqHigh then
      let body := [m.irqSum, en, BitVec.ofNat 32 m.time.sec, BitVec.ofNat 32 m.time.ns]
      (m.onSession x fun z => { z with events := z.events + 1 }).send (.dareri x (eventMsg (z.events + 1) body))
    else m

def execEventNotify (x : Nat) (s : State) : Host.Outcome State Fault Refusal :=
  eff s (s.mach.when (decide (1 ≤ x ∧ x ≤ 8) && s.mach.domOn .host) (·.eventNotify x))

/-! ## Streams (R416) -/

/-- The record size of a set. -/
def Mach.streamSize (m : Mach) (set : Nat) : Nat :=
  match set with
  | 1 => 14
  | 2 => 8
  | 3 => 4 + 4 * m.nodeCount
  | 4 => 40
  | 5 => 68
  | 6 => 132
  | 7 => 644
  | 8 => 32
  | _ => 0

/-- The nominal rate of a stream in bit/s. IMPEDANCE has no rate per second: it counts as 0. -/
def Mach.streamRate (m : Mach) (set decim : Nat) : Rat :=
  let n : Rat := (m.nodeCount : Rat)
  let t : Rat := (m.get F.FLY_CYCLE_period : Rat) / 1000000 * (decim : Rat)
  let d : Rat := (m.cellDiv : Rat)
  let perS : Rat := match set with
    | 1 | 2 => n / (d * t)
    | 3 | 4 | 5 => 1 / t
    | 6 => n / (decim : Rat)
    | 8 => 1 / (decim : Rat)
    | _ => 0
  (m.streamSize set : Rat) * 8 * perS

/-- The rates of all streams that run but `s`. -/
def Mach.streamLoad (m : Mach) (s : Nat) : Rat :=
  (((List.range 16).filter fun k => k != s && m.get (F.Q_STR_CFG_session k) != 0).map fun k =>
    m.streamRate (m.get (F.Q_STR_CFG_set k)) (m.get (F.Q_STR_CFG_decim k))).foldl (· + ·) 0

/-- The refusal of a write to Q_STR_CFG_s, with its holder.
DEDUCED: log entry 44. -/
def Mach.streamRefusal (m : Mach) (master s : Nat) (data : Word) : Option (BitVec 16 × Nat) :=
  let x := fieldOf data 28 4
  let set := fieldOf data 24 4
  let decim := fieldOf data 16 8
  let holder := m.get (F.Q_STR_CFG_session s)
  if holder ≠ 0 ∧ holder ≠ master then some (Err.notOwner, holder)
  else if x ≠ 0 ∧ x ≠ master then some (Err.notOwner, x)
  else if x ≠ 0 ∧ ¬(1 ≤ x ∧ x ≤ 8) ∧ x ≠ 13 then some (Err.refusedValue, 0)
  else if 8 < set ∨ (x ≠ 0 ∧ set = 0) ∨ decim = 0 then some (Err.refusedValue, 0)
  else if x ≠ 0 ∧ (m.get F.ETH_POLICE_CFG_stream_budget * 10000000 : Rat) < m.streamLoad s + m.streamRate set decim then
    some (Err.refusedValue, 0)
  else none

/-- A write to Q_STR_CFG_s. A stream that starts counts its records from 0. -/
def Mach.streamWrite (m : Mach) (master s : Nat) (data : Word) : Mach :=
  match m.streamRefusal master s data with
  | some (e, k) => m.refuse e (BitVec.ofNat 32 k)
  | none =>
    let starts := m.get (F.Q_STR_CFG_session s) == 0
    let m := m.wr (Reg.Q_STR_CFG s) (data &&& 0xFFFF0000)
    m.when starts fun m =>
      { (m.wr (Reg.Q_STR_SEQ s) 0).wr (Reg.Q_STR_DROP s) 0 with
        host := m.host.streamReset s }

/-- STREAM_CFG_WRITE (R416). -/
def execStreamCfgWrite (master : Nat) (x : BitVec 4) (data : Word) (s : State) : Host.Outcome State Fault Refusal :=
  eff s (s.mach.access (Reg.Q_STR_CFG x.toNat) (·.streamWrite master x.toNat data))

/-- The newest cycle whose frame is frozen. -/
def Mach.frozenCycle (m : Mach) : Word := if m.chain.frozen then m.cycle else m.cycle - 1

/-- The positions that a stream covers. -/
def Mach.streamNodes (m : Mach) (s : Nat) : List Nat :=
  m.positions.filter fun n => decide (m.get (F.Q_STR_POS_first s) ≤ n ∧ n ≤ m.get (F.Q_STR_POS_last s))

/-- The bytes of a lane at an offset. -/
def Mach.laneBytes (m : Mach) (n off len : Nat) : List Byte := readBytes m.mem (laneMemBase + 0x2000 * n + off) len

/-- The records of a set that stand now: from the newest frozen frame, the control record, or lane memory. -/
def Mach.streamRecords (m : Mach) (s : Nat) : List (List Byte) :=
  let c := m.frozenCycle
  let cyc := wordBytes c
  let cell := (m.streamNodes s).filter fun n => m.frameHasRec c n
  let byte := fun n i len => readBytes m.mem (frameAddr c + 0x600 + 24 * n + i) len
  match m.get (F.Q_STR_CFG_set s) with
  | 1 => cell.map fun n => byte n 0 14
  | 2 => cell.map fun n => byte n 0 2 ++ byte n 14 6
  | 3 => [cyc ++ readBytes m.mem (frameAddr c + 0x80) (4 * m.nodeCount)]
  | 4 => [cyc ++ readBytes m.mem (frameAddr c + 0x40) 36]
  | 5 => [cyc ++ wordsBytes m.controlWords]
  | 6 => (m.streamNodes s).map fun n => wordBytes (BitVec.ofNat 32 n) ++ m.laneBytes n 0x1000 32 ++ m.laneBytes n 0x1040 32
      ++ m.laneBytes n 0x1080 32 ++ m.laneBytes n 0x1120 32
  | 7 => (m.streamNodes s).map fun n => wordBytes (BitVec.ofNat 32 n) ++ m.laneBytes n 0x1180 640
  | 8 => [m.laneBytes 0 0x1480 32]
  | _ => []

/-- One record leaves in a message of its own, or finds the ring full and is dropped; the tag counts both. -/
def Mach.streamOne (m : Mach) (s : Nat) (full : Bool) (rec' : List Byte) : Mach :=
  let k := m.host.streamSeq.toList.getD s 0 + 1
  let m := { m with host := { m.host with streamSeq := m.host.streamSeq.setIfInBounds s k } }
  if full then (m.count (Reg.Q_STR_DROP s)).count (Reg.Q_CNT_DROP (32 + s))
  else
    let tag := BitVec.ofNat 32 k
    let msg := streamMsg tag s (m.get (F.Q_STR_CFG_set s)) m.frozenCycle (m.rd (Reg.Q_STR_DROP s)) rec'
    (m.wr (Reg.Q_STR_SEQ s) tag).send (.dareri (m.get (F.Q_STR_CFG_session s)) msg)

/-- STREAM_RECORD: the data set of stream `s` has new data; each time that its decimation does not skip, the stream forms its
records. Streams need Distaff (R393).
DEDUCED: log entry 44. -/
def Mach.streamForm (m : Mach) (s : Nat) (full : Bool) : Mach :=
  if m.get (F.Q_STR_CFG_session s) = 0 ∨ m.power.distaffAbsent then m
  else
    let skip := if m.get (F.Q_STR_CFG_set s) = 7 then 0 else m.host.streamSkip.toList.getD s 0
    let next := if skip = 0 then m.get (F.Q_STR_CFG_decim s) - 1 else skip - 1
    let m := { m with host := { m.host with streamSkip := m.host.streamSkip.setIfInBounds s next } }
    if skip = 0 then m.each (m.streamRecords s) fun m r => m.streamOne s full r else m

def execStreamRecord (x : BitVec 4) (ringFull : Bool) (s : State) : Host.Outcome State Fault Refusal :=
  eff s (s.mach.streamForm x.toNat ringFull)

/-! ## Counters (R418) -/

/-- The ETH_CNT registers of R418. -/
def ethCounters : List Nat :=
  ([1, 2].flatMap fun p => [Reg.ETH_CNT_RX p, Reg.ETH_CNT_POLICE p, Reg.ETH_CNT_DUP p])
    ++ [Reg.ETH_CNT_BAD_REC, Reg.ETH_CNT_BAD_MSG, Reg.ETH_CNT_REQ_DROP, Reg.ETH_CNT_HS_FAIL]

/-- ETH_CLR_CNT (R418). -/
def execEthClrCnt (_master : Nat) (s : State) : Host.Outcome State Fault Refusal :=
  eff s (s.mach.access Reg.ETH_CTRL (·.clearRegs ethCounters))

end Sys2Proof.Machine
end

