-- ==== Sys2Proof/Machine/Mailbox.lean ====
section
/-!
DEFINITION. The mailbox protocol (R404, R405) and the commands that this chapter and chapter 17 give to mailboxes
(R407, R502).
-/

namespace Sys2Proof.Machine

/-- The refusal of a write to MBX_CTRL_b or MBX_DATA_b_k (R404), with its holder. -/
def Mach.mbxWriteRefusal (m : Mach) (master b : Nat) (changes : Bool) : Option (BitVec 16 × Nat) :=
  let holder := m.get (F.MBX_LOCK_owner b)
  if holder ≠ master then some (Err.notOwner, holder)
  else if m.mbxBusy b && changes then some (Err.busy, holder)
  else none

/-- A go bit is taken: the mailbox is busy, last in the order. What is no command is answered once Distaff reaches it.
DEDUCED: log entry 45. -/
def Mach.mbxGo (m : Mach) (master b : Nat) : Mach :=
  let h := m.host
  { m.on (F.MBX_CTRL_busy b) with
    host := { h with mbxOrder := h.mbxOrder ++ [b], mbxMaster := h.mbxMaster.setIfInBounds b master
                     mbxNs := h.mbxNs.setIfInBounds b m.upNs } }.mbxReject

/-- A write to MBX_CTRL_b. -/
def Mach.mbxCtrlWrite (m : Mach) (master b opcode len : Nat) (go : Bool) : Mach :=
  let same := m.get (F.MBX_CTRL_opcode b) == opcode && m.get (F.MBX_CTRL_length b) == len
  match m.mbxWriteRefusal master b (go || !same) with
  | some (e, k) => m.refuse e (BitVec.ofNat 32 k)
  | none =>
    if 16 < len then m.refuse Err.refusedValue
    else ((m.set (F.MBX_CTRL_opcode b) opcode).set (F.MBX_CTRL_length b) len).when go (·.mbxGo master b)

/-- GO (R404). -/
def execGo (master : Nat) (b : BitVec 4) (opcode : Byte) (len : BitVec 5) (s : State) :
    Host.Outcome State Fault Refusal :=
  eff s (s.mach.access (Reg.MBX_CTRL b.toNat) (·.mbxCtrlWrite master b.toNat opcode.toNat len.toNat true))

/-- MAILBOX_TIMEOUT: a mailbox still busy MBX_CFG.timeout ms after its go is completed by the MBX block itself (R405). -/
def Mach.mbxTimeout (m : Mach) (b : Nat) : Mach :=
  if m.mbxBusy b then
    let m := m.passUntil (m.host.mbxNs.toList.getD b 0) (m.get F.MBX_CFG_timeout * 1000000)
    let m := (m.count Reg.MBX_CNT_TIMEOUT).mbxAnswer b Err.timeout
    { m with power := { m.power with mbxTimeouts := (m.upNs :: m.power.mbxTimeouts).take 3 } }
  else m

def execMailboxTimeout (b : BitVec 4) (s : State) : Host.Outcome State Fault Refusal :=
  eff s (s.mach.mbxTimeout b.toNat)

/-- ECHO: the request words unchanged (R407). -/
def execEcho (b : BitVec 4) (s : State) : Host.Outcome State Fault Refusal :=
  let m := s.mach
  eff s (if m.mbxServes b.toNat 0x01 then m.mbxAnswer b.toNat Err.ok 0 (m.mbxWords b.toNat) else m)

/-- SESSION_INFO: the caller, the open sessions, and the seconds until the caller's idle timeout (R407).
DEDUCED: log entry 44. -/
def Mach.sessionInfo (m : Mach) (b : Nat) : Mach :=
  let k := m.mbxCaller b
  let limit : Int := m.get F.ETH_SESS_CFG_idle * 1000000000
  let leftNs : Int := match m.session k with
    | some x => max 0 (limit - ((m.upNs - x.lastNs : Nat) : Int))
    | none => 0
  let r := m.openDiv leftNs 1000000000
  r.2.mbxAnswer b Err.ok 0 [BitVec.ofNat 32 k, m.rd Reg.ETH_SESS_STAT &&& 0x21FE, BitVec.ofInt 32 r.1]

def execSessionInfo (b : BitVec 4) (s : State) : Host.Outcome State Fault Refusal :=
  let m := s.mach
  eff s (if m.mbxServes b.toNat 0x02 then m.sessionInfo b.toNat else m)

/-- LOG_MARK: one entry of class 0x09 with the code of word 0 and the data of words 1 and 2; answered with its sequence
(R502). -/
def Mach.logMark (m : Mach) (b : Nat) : Mach :=
  let w := fun k => (m.mbxWords b).getD k 0
  let seq := m.rd Reg.MGT_LOG_SEQ
  (m.log 0x09 (fieldOf (w 0) 0 16) (m.mbxCaller b) (w 1) (w 2)).mbxAnswer b Err.ok 0 [seq]

def execLogMark (b : BitVec 4) (s : State) : Host.Outcome State Fault Refusal :=
  let m := s.mach
  eff s (if m.mbxServes b.toNat 0x20 then m.logMark b.toNat else m)

end Sys2Proof.Machine
end

