-- ==== Sys2Proof/Machine/Update.lean ====
section
/-!
DEFINITION. Update sessions and the update operations (R491 to R496), the life cycle (R482 to R484), the event archive
and the persistent counters (R501, R502), and Distaff's sensors (R503).
-/

namespace Sys2Proof.Machine

/-! ## Conditions that operations share (R483, R492) -/

/-- The master that started a slot's operation. -/
def Mach.opCaller (m : Mach) (n : Nat) : Nat := m.host.opMaster.toList.getD n 0

/-- An argument of a slot. -/
def Mach.opArg (m : Mach) (n k : Nat) : Word := m.rd (Reg.OP_ARG n k)

/-- The string carries current or may: a condition of R483. -/
def Mach.liveString (m : Mach) : Bool :=
  m.runState == .starting || m.runState == .precharge || m.runState == .run || m.runState == .stopping || m.energised
    || decide (2000 < (m.rd Reg.SNS_I).toInt) || decide ((m.rd Reg.SNS_I).toInt < -2000)

/-- The supply is not NORMAL, or the holdup store below 90 %. -/
def Mach.weakSupply (m : Mach) : Bool := m.supply != .normal || decide (m.get F.PWR_SUP_STAT_store_level < 90)

/-- Rules 1 and 2 of R492. -/
def Mach.lockError (m : Mach) (k : Nat) : Option (BitVec 16 × Nat) :=
  if m.lifeCycle = .decommissioned then some (Err.lifeCycle, 0)
  else if m.mgmt.updOwner ≠ 0 ∧ m.mgmt.updOwner ≠ k then some (Err.notOwner, m.mgmt.updOwner)
  else none

/-- Rules 3 and 4 of R492. -/
def Mach.quietError (m : Mach) : Option (BitVec 16 × Nat) :=
  if m.liveString then some (Err.energised, 0) else if m.weakSupply then some (Err.supply, 0) else none

/-- The first refusal of two. -/
def orErr (a b : Option (BitVec 16 × Nat)) : Option (BitVec 16 × Nat) := match a with | some e => some e | none => b

/-- A condition that fails an operation with a code. -/
def errIf (c : Bool) (e : BitVec 16) : Option (BitVec 16 × Nat) := if c then some (e, 0) else none

/-- The operation needs an open update session (R493): one is open, in a stage that permits it.
DEDUCED: log entry 45. -/
def Mach.needSession (m : Mach) (stages : List Nat) : Option (BitVec 16 × Nat) :=
  orErr (errIf (m.mgmt.updOwner == 0) Err.noSession) (errIf (!stages.any (· == m.stage)) Err.refusedState)

/-! ## UPDATE_OPEN and UPDATE_CLOSE (R491, R493) -/

/-- The digest that UPDATE_OPEN gives. -/
def Mach.openDigest (m : Mach) (n : Nat) : List Word := (List.range 12).map fun k => m.opArg n (2 + k)

/-- The hash of a master's client certificate. -/
def Mach.certHash (m : Mach) (k : Nat) : BitVec 64 := ((m.host.sessions.find? (·.id == k)).map (·.cert.hash)).getD 0

/-- A resume that may rebind the lock: same certificate, length and digest. -/
def Mach.resumeOk (m : Mach) (n : Nat) : Bool :=
  (m.opArg n 0).getLsbD 0 && (m.stage == Stage.orphaned || m.stage == Stage.safeMode) && m.certHash (m.opCaller n) == m.mgmt.updCert
    && (m.opArg n 1).toNat == m.mgmt.updLen && m.openDigest n == m.mgmt.updDigest

/-- What refuses UPDATE_OPEN. -/
def Mach.openError (m : Mach) (n : Nat) : Option (BitVec 16 × Nat) :=
  let len := (m.opArg n 1).toNat
  if m.lifeCycle = .decommissioned then some (Err.lifeCycle, 0)
  else if m.mgmt.updOwner ≠ 0 ∧ m.resumeOk n = false then some (Err.busy, m.mgmt.updOwner)
  else orErr m.quietError
    (orErr (errIf (!([Stage.idle, Stage.orphaned, Stage.safeMode].any (· == m.stage))) Err.refusedState)
      (errIf (decide (len = 0 ∨ 12582912 < len)) Err.refusedValue))

/-- UPDATE_OPEN acquires the lock, or rebinds it; its record counts the pages present. -/
def Mach.updateOpen (m : Mach) (n : Nat) : Mach :=
  let k := m.opCaller n
  let fresh := m.mgmt.updOwner = 0
  let m := if fresh then m.stagingClear else m
  let m := { m with mgmt := { m.mgmt with updOwner := k, updCert := m.certHash k, updLen := (m.opArg n 1).toNat
                                          updDigest := m.openDigest n } }
  let m := ((m.set F.MGT_UPD_STAT_owner k).wr Reg.MGT_UPD_LEN (m.opArg n 1)).setStage Stage.open
  m.updTouch.opGive n [[BitVec.ofNat 32 m.mgmt.blockMap.length]]

/-- UPDATE_OPEN (R491). -/
def execUpdateOpen (n : BitVec 4) (s : State) : Host.Outcome State Fault Refusal :=
  eff s (s.mach.opWork n.toNat 0x10 (·.openError n.toNat) (·.updateOpen n.toNat))

/-- The stage without a session: SAFE_MODE while the loader holds the module. -/
def Mach.restStage (m : Mach) : Nat := if m.power.safeMode then Stage.safeMode else Stage.idle

/-- The lock is released, the block map cleared, the staging data discarded. -/
def Mach.updateEnd (m : Mach) : Mach := m.updRelease.stagingClear.setStage m.restStage

/-- UPDATE_CLOSE (R493). -/
def execUpdateClose (n : BitVec 4) (s : State) : Host.Outcome State Fault Refusal :=
  eff s (s.mach.opWork n.toNat 0x15
    (fun m => orErr (m.lockError (m.opCaller n.toNat)) (m.needSession [Stage.open, Stage.orphaned, Stage.verified]))
    fun m => m.updateEnd.opGive n.toNat [[0]])

/-- UPDATE_LOCK_TIMEOUT (R491). -/
def execUpdateLockTimeout (s : State) : Host.Outcome State Fault Refusal :=
  let m := s.mach
  eff s (if m.mgmt.updOwner = 0 then m
    else ((m.passUntil m.mgmt.updNs 600000000000).updateEnd).on F.MGT_IRQ_STAT_lock_timeout)

/-! ## UPDATE_WRITE and UPDATE_VERIFY (R493) -/

/-- The first words of the transfer buffer. -/
def Mach.xferWords (m : Mach) (n : Nat) : List Word := (List.range n).map fun w => m.rd (Reg.MGT_XFER_BUF w)

/-- What refuses UPDATE_WRITE before it touches the flash, in order. -/
def Mach.writeCheck (m : Mach) (n : Nat) : Option (BitVec 16 × Nat) :=
  let page := (m.opArg n 0).toNat
  let count := (m.opArg n 1).toNat
  orErr (m.lockError (m.opCaller n)) <| orErr (m.needSession [Stage.open, Stage.verified]) <|
  orErr (errIf (decide (m.updPages ≤ page ∨ count < 4 ∨ 4096 < count ∨ count % 4 ≠ 0
    ∨ (count ≠ 4096 ∧ page + 1 ≠ m.updPages))) Err.refusedValue) <|
  errIf (crcWords (m.xferWords (count / 4)) != m.opArg n 2) Err.refusedValue

/-- What fails UPDATE_WRITE; a read-back mismatch fails it with FLASH. -/
def Mach.writeError (m : Mach) (n : Nat) (flashOk : Bool) : Option (BitVec 16 × Nat) :=
  orErr (m.writeCheck n) <| orErr (errIf (m.supply != .normal) Err.supply) (errIf (!flashOk) Err.flash)

/-- The staging block of a page is erased while its map entry is 0: 16 pages of 4096 bytes. -/
def blockErased (g : MgmtState) (page : Nat) : List (Nat × List Word) :=
  if g.blockMap.any fun p => p / 16 == page / 16 then g.stagePages else g.stagePages.filter fun p => p.1 / 16 != page / 16

/-- UPDATE_WRITE: program the page, then set its bit in the block map. A VERIFIED stage is OPEN again. -/
def Mach.updateWrite (m : Mach) (n : Nat) : Mach :=
  let page := (m.opArg n 0).toNat
  let ws := m.xferWords ((m.opArg n 1).toNat / 4)
  let pages := (page, ws) :: (blockErased m.mgmt page).filter fun p => p.1 != page
  let m := { m with mgmt := { m.mgmt with stagePages := pages, blockMap := addOnce m.mgmt.blockMap page
                                          staged := none, verified := false } }
  let m := (m.set F.MGT_UPD_PAGES_pages m.mgmt.blockMap.length).set F.MGT_IMG_SECVER_staged 0
  (m.setStage Stage.open).opGive n [[BitVec.ofNat 32 page]]

/-- A program that fails its read-back: what the page holds is open, and the staged image has been written.
DEDUCED: log entry 45. -/
def Mach.writeFails (m : Mach) (n : Nat) : Mach :=
  let page := (m.opArg n 0).toNat
  let k := (m.opArg n 1).toNat / 4
  let ws := (List.range k).map fun j => Config.freeValue (m.freeTick + j)
  let pages := (page, ws) :: (blockErased m.mgmt page).filter fun p => p.1 != page
  let g := { m.mgmt with stagePages := pages, staged := none, verified := false }
  (({ m with mgmt := g, freeTick := m.freeTick + k }).set F.MGT_IMG_SECVER_staged 0).setStage Stage.open

/-- UPDATE_WRITE: while the supply state is not NORMAL the write waits, from the first time Distaff comes to it for up to 10 s,
and then fails with SUPPLY (R493).
DEDUCED: log entry 45. -/
def Mach.updateWriteOp (m : Mach) (n : Nat) (flashOk : Bool) : Mach :=
  if m.opWorks n 0x11 && m.writeCheck n == none && m.supply != .normal then
    match m.markOf .flash with
    | none => m.mark .flash
    | some _ => ((m.await .flash 10000000000).unmark .flash).opFail n Err.supply
  else
    let m := m.when (m.opWorks n 0x11) (·.unmark .flash)
    let bad := m.opWorks n 0x11 && m.writeError n flashOk == some (Err.flash, 0)
    (m.when bad (·.writeFails n)).opWork n 0x11 (·.writeError n flashOk) (·.updateWrite n)

/-- UPDATE_WRITE (R493). -/
def execUpdateWrite (n : BitVec 4) (flashOk : Bool) (s : State) : Host.Outcome State Fault Refusal :=
  eff s (s.mach.updateWriteOp n.toNat flashOk)

/-- The code of an image type (R487). -/
def imageTypeCode : ImageKind → Nat
  | .firmware => 1 | .reludProgram => 2 | .keyBundle => 3

/-- Every page of the image length is present. -/
def Mach.allPages (m : Mach) : Bool := (List.range m.updPages).all fun p => decide (p ∈ m.mgmt.blockMap)

/-- The image that the staging area holds. -/
def Mach.stagedImage (m : Mach) (sig : SigFacts) : Image := imageOf m.stagedBytes sig

/-- What refuses UPDATE_VERIFY. -/
def Mach.verifyError (m : Mach) (n : Nat) (sig : SigFacts) : Option (BitVec 16 × Nat) :=
  let k := m.opCaller n
  orErr (m.lockError k) <| orErr (m.needSession [Stage.open, Stage.verified]) <|
  orErr (errIf (!m.allPages) Err.verify) ((m.imageCheck (m.stagedImage sig) (some m.mgmt.updDigest) k).map fun e => (e, 0))

/-- UPDATE_VERIFY: the staged image passed R489. -/
def Mach.updateVerify (m : Mach) (n : Nat) (sig : SigFacts) : Mach :=
  let img := m.stagedImage sig
  let m := { m with mgmt := { m.mgmt with staged := some img, verified := true } }
  let m := (m.set F.MGT_IMG_SECVER_staged img.secVer.toNat).setStage Stage.verified
  m.opGive n [[BitVec.ofNat 8 (imageTypeCode img.kind) ++ img.secVer ++ (0 : BitVec 16)]]

/-- UPDATE_VERIFY (R493). -/
def execUpdateVerify (n : BitVec 4) (sig : SigFacts) (s : State) : Host.Outcome State Fault Refusal :=
  eff s (s.mach.opWork n.toNat 0x12 (·.verifyError n.toNat sig) (·.updateVerify n.toNat sig))

/-! ## UPDATE_ACTIVATE and UPDATE_CONFIRM (R486, R490, R494, R495) -/

/-- What refuses UPDATE_ACTIVATE (R492, R494). -/
def Mach.activateError (m : Mach) (n : Nat) : Option (BitVec 16 × Nat) :=
  orErr (m.lockError (m.opCaller n)) <| orErr m.quietError <|
  orErr (errIf (m.stage != Stage.verified) Err.refusedState)
    (errIf (m.mgmt.staged.any (·.kind == .reludProgram)) Err.refusedValue)

/-- UPDATE_ACTIVATE: a key bundle replaces the key store; of a firmware image the journal is written and the lock
released. Both end with a module reset of type MODULE_HOST. -/
def Mach.updateActivate (m : Mach) (n : Nat) : Mach :=
  let reset := fun (m : Mach) => { m with power := { m.power with resetPend := some (BitVec.ofNat 8 ResetType.host) } }
  match m.mgmt.staged with
  | none => m.opFail n Err.refusedState
  | some i =>
    if i.kind = .keyBundle then
      let m := { m with mgmt := { m.mgmt with keys := i.keys.orElse fun _ => m.mgmt.keys } }.lcySync
      reset (m.opGive n [[0]])
    else
      let m := { m with mgmt := { m.mgmt with journal := .activating, jDigest := some i.digest } }
      let m := m.updRelease.setStage Stage.activating
      reset (m.opGive n [[0]])

/-- UPDATE_ACTIVATE (R494). -/
def execUpdateActivate (n : BitVec 4) (s : State) : Host.Outcome State Fault Refusal :=
  eff s (s.mach.opWork n.toNat 0x13 (·.activateError n.toNat) (·.updateActivate n.toNat))

/-- What refuses UPDATE_CONFIRM (R493, R495). -/
def Mach.confirmError (m : Mach) (n : Nat) : Option (BitVec 16 × Nat) :=
  let k := m.opCaller n
  orErr (errIf (m.lifeCycle == .decommissioned) Err.lifeCycle) <|
  orErr (errIf (!(decide (1 ≤ k ∧ k ≤ 8) || k == 13)) Err.notOwner) <|
  orErr (errIf (m.supply != .normal) Err.supply) (errIf (m.stage != Stage.trial) Err.refusedState)

/-- UPDATE_CONFIRM: the journal reads CONFIRMING with the value of the advance, which follows at the operation's end; the record
holds the counter after it. -/
def Mach.updateConfirm (m : Mach) (n : Nat) : Mach :=
  let v := (m.mgmt.running.map (·.secVer.toNat)).getD 0
  let m := { m with mgmt := { m.mgmt with journal := .confirming v } }.on F.LCY_ROLLBACK_advance_pending
  m.opGive n [[BitVec.ofNat 32 (max v (m.get F.LCY_ROLLBACK_count))]]

/-- The end of UPDATE_CONFIRM (R495): the advance, the journal NORMAL, the window ended. -/
def Mach.confirmEnd (m : Mach) : Mach :=
  match m.mgmt.journal with
  | .confirming v => (m.confirmDone v).setStage (if m.mgmt.updOwner = 0 then Stage.idle else Stage.orphaned)
  | _ => m

/-- UPDATE_CONFIRM (R495). -/
def execUpdateConfirm (n : BitVec 4) (s : State) : Host.Outcome State Fault Refusal :=
  eff s (s.mach.opWork n.toNat 0x14 (·.confirmError n.toNat) (·.updateConfirm n.toNat))

/-- CONFIRM_WINDOW_EXPIRY (R495): logged, then a module reset of type MODULE_AUTO, under the reset guard while the string
is energised. -/
def Mach.confirmExpiry (m : Mach) : Mach :=
  match m.mgmt.confirmNs with
  | some t =>
    if m.power.distaffAbsent then m
    else
      let m := m.passUntil t 0
      ({ m with mgmt := { m.mgmt with confirmNs := none } }.log 0x07 1).autoReset
  | none => m

def execConfirmWindowExpiry (s : State) : Host.Outcome State Fault Refusal := eff s s.mach.confirmExpiry

/-! ## The life cycle (R482 to R484) -/

/-- Life-cycle states by code. -/
def LifeCycle.ofCode : Nat → Option LifeCycle
  | 0 => some .manufacture | 1 => some .provisioned | 2 => some .field | 3 => some .service | 4 => some .decommissioned
  | _ => none

/-- Both DOOR channels read off: physical presence at the string. -/
def Mach.doorsOff (m : Mach) : Bool := !m.flag F.SAF_INPUT_door_a && !m.flag F.SAF_INPUT_door_b

/-- The masters of a change of R482; none where the pair is not listed. -/
def Mach.changeMaster (m : Mach) (dst : LifeCycle) (k : Nat) : Option Bool :=
  let ring := decide (1 ≤ k ∧ k ≤ 8)
  match m.lifeCycle, dst with
  | .manufacture, .provisioned => some (k == 13)
  | .provisioned, .field => some (ring || k == 13)
  | .field, .service => some (k == 13 || (ring && m.doorsOff))
  | .service, .field => some (ring || k == 13)
  | .decommissioned, _ => none
  | _, .decommissioned => some (k == 13 || (ring && m.doorsOff))
  | _, _ => none

/-- The module's own calibration records are valid. -/
def Mach.moduleCalOk (m : Mach) : Bool := (List.range 256).all fun k => (m.mgmt.cal k).2

/-- The conditions of R483, in order. -/
def Mach.lifeError (m : Mach) (k : Nat) : Option (BitVec 16 × Nat) :=
  if m.stage = Stage.safeMode then some (Err.lifeCycle, 0)
  else if m.stage = Stage.activating ∨ m.stage = Stage.trial then some (Err.refusedState, 0)
  else if m.mgmt.updOwner ≠ 0 ∧ m.mgmt.updOwner ≠ k then some (Err.busy, m.mgmt.updOwner)
  else m.quietError

/-- What refuses LIFECYCLE_SET: the master or door (NOT_OWNER), R483, a pair or mask not permitted, a further condition.
DEDUCED: log entry 45. -/
def Mach.lifeSetError (m : Mach) (n : Nat) : Option (BitVec 16 × Nat) :=
  let k := m.opCaller n
  let dst := LifeCycle.ofCode (fieldOf (m.opArg n 0) 0 3)
  let mask := fieldOf (m.opArg n 1) 0 4
  let listed := dst.bind fun d => m.changeMaster d k
  orErr (errIf (listed == some false) Err.notOwner) <| orErr (m.lifeError k) <|
  orErr (errIf (listed == none) Err.refusedValue) <|
  orErr (errIf (mask != 0 && !(dst == some .field || dst == some .service)) Err.refusedValue) <|
  orErr (errIf (dst == some .decommissioned && m.opArg n 2 != 0x0000DEC0) Err.refusedValue) <|
  orErr (errIf (dst == some .provisioned && m.mgmt.keys.isNone) Err.key)
    (errIf (dst == some .field && m.lifeCycle == .provisioned && !m.moduleCalOk) Err.refusedState)

/-- The wipe of a change (R484), as `Mach.wipe` codes it. -/
def wipeCode (dst : LifeCycle) (mask : Nat) : Nat :=
  match dst with
  | .provisioned => 16
  | .decommissioned => 32
  | _ => mask

/-- LIFECYCLE_SET: the fuse or flag is written, the wipe is pending, the record holds the new state. -/
def Mach.lifeSet (m : Mach) (n : Nat) : Mach :=
  match LifeCycle.ofCode (fieldOf (m.opArg n 0) 0 3) with
  | none => m.opFail n Err.refusedValue
  | some dst =>
    let code := wipeCode dst (fieldOf (m.opArg n 1) 0 4)
    let m := { m with lifeCycle := dst, mgmt := { m.mgmt with wiped := code }, power := { m.power with lifePend := true } }
    let m := m.lcySync.count Reg.LCY_CNT_CHANGE
    let shown := if dst = .decommissioned then 15 else code % 16
    let m := (m.set F.LCY_WIPE_STAT_mask shown).setB F.LCY_WIPE_STAT_pending (code != 0)
    (m.log 0x08 1 (m.opCaller n)).opGive n [[BitVec.ofNat 32 dst.code]]

/-- LIFECYCLE_SET (R482, R483). -/
def execLifecycleSet (n : BitVec 4) (s : State) : Host.Outcome State Fault Refusal :=
  eff s (s.mach.opWork n.toNat 0x18 (·.lifeSetError n.toNat) (·.lifeSet n.toNat))

/-! ## The archive, the operating hours and the sensors (R501 to R503) -/

/-- LOG_ARCHIVE: the oldest 128 unarchived entries go to the archive, which overwrites its oldest; not while NOR writes
are held (R470). -/
def Mach.logArchive (m : Mach) : Mach :=
  if 128 ≤ m.mgmt.unarchived ∧ m.supply = .normal ∧ m.power.distaffAbsent = false then
    let keep := m.mgmt.unarchived - 128
    { m with mgmt := { m.mgmt with
      archive := (((m.mgmt.log.drop keep).take 128) ++ m.mgmt.archive).take 819200, unarchived := keep } }
  else m

def execLogArchive (s : State) : Host.Outcome State Fault Refusal := eff s s.mach.logArchive

/-- OPERATING_HOUR: an hour with AON powered has passed (R501). -/
def execOperatingHour (s : State) : Host.Outcome State Fault Refusal :=
  eff s (s.mach.when s.mach.power.powered fun m => ((m.await .hour 3600000000000).mark .hour).count Reg.MGT_PCNT_HOURS)

/-- The range of each sensor in its unit. -/
def sensorRange (n : Nat) : Int × Int :=
  match n with
  | 0 => (-400, 1250) | 1 => (-400, 1250) | 2 => (-400, 1500) | 3 => (-400, 1500) | 4 => (-400, 1250) | 5 => (0, 1000)
  | 6 => (0, 5000) | 7 => (0, 7000) | 8 => (0, 3600) | 9 => (0, 6000) | _ => (-400, 1250)

/-- One reading: valid, failed, or no sensor. -/
def Mach.sensorRead (m : Mach) (n : Nat) (v : Option Int) : Mach :=
  match v with
  | none => (m.set (F.MGT_SENS_value n) 0).set (F.MGT_SENS_status n) 2
  | some x =>
    let m := m.set (F.MGT_SENS_value n) (BitVec.ofInt 16 x).toNat
    if (sensorRange n).1 ≤ x ∧ x ≤ (sensorRange n).2 then m.set (F.MGT_SENS_status n) 0
    else ((m.set (F.MGT_SENS_status n) 1).on F.MGT_IRQ_STAT_sensor_fail).log 0x0C n

/-- A sensor whose reading the supervisor found invalid: failed, its value open.
DESIGN CHOICE: log entry 70. -/
def Mach.sensorFailed (m : Mach) (n : Nat) : Mach :=
  let v := m.freeNow.toNat % 65536
  (((m.freeTicked.set (F.MGT_SENS_value n) v).set (F.MGT_SENS_status n) 1).on F.MGT_IRQ_STAT_sensor_fail).log 0x0C n

/-- One sensor in its turn: 0 to 2 are as the supervisor read them last (R318); an SFP+ module that is not there has no
sensor. -/
def Mach.sensorTurn (m : Mach) (n : Nat) (v : Option Int) : Mach :=
  let fitted := fun p => m.get (F.ETH_PORT_STAT_speed p) != 0 || m.flag (F.ETH_PORT_STAT_unsupported p) || m.flag (F.ETH_PORT_STAT_fault p)
  match m.power.modRead, decide (n < 3) with
  | some l, true => match l.getD n none with
    | some x => m.sensorRead n (some x)
    | none => m.sensorFailed n
  | _, _ => m.sensorRead n (if decide (10 ≤ n) && !fitted (n - 9) then none else v)

/-- SENSOR_READ, every 100 ms by Distaff (R503). -/
def execSensorRead (vals : List (Option Int)) (s : State) : Host.Outcome State Fault Refusal :=
  let m := s.mach
  eff s (if m.power.distaffAbsent then m else
    ((m.await .sensors 100000000).mark .sensors).each ((List.range 12).zip vals) fun m (n, v) => m.sensorTurn n v)

end Sys2Proof.Machine
end

