-- ==== Sys2Proof/Machine/Operations.lean ====
section
/-!
DEFINITION. Operation slots (R408 to R411) and the operations other than updates: node access (R413), wire calibration
(R288, R414), logs, programs, calibration and configuration (R498 to R500), and self-tests (R516).
-/

namespace Sys2Proof.Machine

/-! ## Slots (R408, R410, R411) -/

/-- The refusal of a write by a master that does not own the slot (R422). -/
def Mach.opNotOwner (m : Mach) (master n : Nat) : Option (BitVec 16 × Nat) :=
  let holder := m.get (F.OP_OWNER_owner n)
  if holder = master then none else some (Err.notOwner, holder)

/-- What refuses a start. -/
def Mach.startRefusal (m : Mach) (master n : Nat) : Option (BitVec 16 × Nat) :=
  orErr (m.opNotOwner master n) <|
  orErr (if m.opActive n then some (Err.busy, master) else none) (errIf (!opKnown (m.opCode n)) Err.badOpcode)

/-- A start is taken: QUEUED with one more in gen, then RUNNING once its resource is free.
DEDUCED: log entry 45. -/
def Mach.opStart (m : Mach) (master n : Nat) : Mach :=
  match m.startRefusal master n with
  | some (e, k) => m.refuse e (BitVec.ofNat 32 k)
  | none =>
    let gen := (m.get (F.OP_STATUS1_gen n) + 1) % 16
    let m := ((m.wr (Reg.OP_STATUS0 n) 0).wr (Reg.OP_STATUS1 n) 0).set (F.OP_STATUS1_gen n) gen
    let m := (m.wr (Reg.OP_ACK n) 0).set (F.OP_STATUS0_state n) OpSt.queued
    let h := m.host
    { m with host := { h with
      opQueue := addOnce h.opQueue n, opMaster := h.opMaster.setIfInBounds n master
      opRest := h.opRest.setIfInBounds n [], opDone := drop1 h.opDone n } }.opSchedule.updUse n

/-- START (R408). -/
def execStart (master : Nat) (n : BitVec 4) (s : State) : Host.Outcome State Fault Refusal :=
  eff s (s.mach.access (Reg.OP_CTRL n.toNat) (·.opStart master n.toNat))

/-- The march test ends with instances 13 to 47 zeroised and the program reloaded as at step 5 of R459. -/
def Mach.marched (m : Mach) : Mach :=
  let m := (((m.zeroise progMemBase 0x1140000).zeroise bankABase 0x1220000).zeroise laneMemBase 0x1500000).zeroise
    frameBase 0x2300000
  if m.domOn .spin0 then (m.set F.SPN_STAT_state 0).loadBootSlot else m

/-- An abort (R411): without effect in a final state, refused in IDLE; during SRAM_MARCH the zeroise and the reload complete first
(R517).
DEDUCED: log entry 45. -/
def Mach.opAbort (m : Mach) (master n : Nat) : Mach :=
  match m.opNotOwner master n with
  | some (e, k) => m.refuse e (BitVec.ofNat 32 k)
  | none =>
    if m.opActive n then (m.when (m.testNow n == some 3) (·.marched)).opFinal n OpSt.aborted Err.aborted
    else if m.opState n = OpSt.idle then m.refuse Err.refusedState
    else m

/-- OP_ABORT (R411). -/
def execOpAbort (master : Nat) (n : BitVec 4) (s : State) : Host.Outcome State Fault Refusal :=
  eff s (s.mach.access (Reg.OP_CTRL n.toNat) (·.opAbort master n.toNat))

/-- A write to OP_ACK_n (R410); a paused operation goes on. -/
def Mach.opAck (m : Mach) (master n count : Nat) : Mach :=
  match m.opNotOwner master n with
  | some (e, k) => m.refuse e (BitVec.ofNat 32 k)
  | none =>
    if count < m.get (F.OP_ACK_ack n) ∨ m.get (F.OP_STATUS1_partial n) < count then m.refuse Err.refusedValue
    else (m.set (F.OP_ACK_ack n) count).when (m.flag (F.OP_STATUS0_paused n) && m.opState n == 2) (·.opPump n)

/-- OP_ACK_WRITE (R410). -/
def execOpAckWrite (master : Nat) (n : BitVec 4) (count : BitVec 24) (s : State) : Host.Outcome State Fault Refusal :=
  eff s (s.mach.access (Reg.OP_ACK n.toNat) (·.opAck master n.toNat count.toNat))

/-- OPERATION_END (R409): the work is complete, every record written. LIFECYCLE_SET has its wipe performed and its module
reset to come 100 ms later (R483); UPDATE_CONFIRM advances the counter, which waits for the supply state NORMAL (R490). -/
def Mach.opEnd (m : Mach) (n : Nat) : Mach :=
  if m.opState n = 2 ∧ n ∈ m.host.opDone ∧ (m.opCode n ≠ 0x14 ∨ m.supply = .normal) then
    let life := m.opCode n == 0x18
    let m := m.when life fun m => m.wipe m.mgmt.wiped
    let m := m.when life fun m =>
      { m with power := { m.power with lifePend := false, resetPend := some (BitVec.ofNat 8 ResetType.host) } }.mark .lifeReset
    (m.when (m.opCode n == 0x14) (·.confirmEnd)).opFinal n OpSt.done Err.ok (m.get (F.OP_STATUS1_aux n))
  else m

def execOperationEnd (n : BitVec 4) (s : State) : Host.Outcome State Fault Refusal := eff s (s.mach.opEnd n.toNat)

/-! ## Node access (R413) -/

/-- Position, length and address of a request. -/
def Mach.nodeArgs (m : Mach) (n : Nat) : Nat × Nat × Nat :=
  (fieldOf (m.opArg n 0) 0 8, fieldOf (m.opArg n 0) 8 8, fieldOf (m.opArg n 1) 0 16)

/-- What fails a node access: the role, the arguments, the stop broadcast, in which no frame leaves (R155), an answer that is missing
or not OK.
DEDUCED: log entry 45. -/
def Mach.nodeError (m : Mach) (n limit : Nat) (write : Bool) (resp : Option MgmtResp) : Option (BitVec 16 × Nat) :=
  let (pos, len, addr) := m.nodeArgs n
  orErr (errIf (m.role == .standby) Err.role) <|
  orErr (errIf (decide (len < 4 ∨ limit < len ∨ len % 4 ≠ 0 ∨ (pos = 0xFF ∧ !write))) Err.refusedValue) <|
  orErr (errIf (write && decide (addr < 0x108 ∧ 0x100 < addr + len) && m.runState != .off) Err.refusedState)
    (match if m.flag F.FLY_STOP_active then none else resp with
     | none => some (Err.nodeNoResponse, 0)
     | some r => if r.status = 0xFF then some (Err.nodeNoResponse, 0)
                 else if r.status ≠ 0 then some (Err.nodeNack, r.status.toNat % 16) else none)

/-- The request leaves when the role and the arguments permit it: without an answer up to 3 times, 1 ms apart. -/
def Mach.nodeSend (m : Mach) (n limit : Nat) (write answered : Bool) (data : List Byte) : Mach :=
  let (pos, len, addr) := m.nodeArgs n
  let fine := m.nodeError n limit write (some ⟨pos, 0, 0, []⟩) == none
  m.when fine fun m => m.each (List.range (if answered then 1 else 3)) fun m k => m.each (m.mgmtPorts pos) fun m p =>
    let t := m.upNs + 1000000 * k
    if write then m.mgmtSend p t pos opWrite addr data 0 else m.mgmtSend p t pos opRead addr [] len

/-- A byte of a node's management space as the model holds it: what the profile names there, but for the error counts, which the
node alone knows. -/
def Mach.nodeByte (m : Mach) (pos a : Nat) : Option Byte :=
  if 0x200 ≤ a ∧ a < 0x208 then none
  else (m.chain.ids[pos]?).bind fun x => (m.chain.nodes.toList.getD pos .init).spaceByte x a

/-- The data of a READ: the bytes that the model holds, the others as the node answers. -/
def Mach.nodeAnswer (m : Mach) (pos addr len : Nat) (r : MgmtResp) : List Byte :=
  (List.range len).map fun i => (m.nodeByte pos (addr + i)).getD (r.data.getD i 0)

/-- The error counts that a READ has shown are held. -/
def NodeModel.errsSeen (x : NodeModel) (addr : Nat) (data : List Byte) : NodeModel :=
  let word := fun (a : Nat) (old : Word) =>
    if addr ≤ a ∧ a + 4 ≤ addr + data.length then wordOf (data.drop (a - addr)) else old
  { x with errSide0 := word 0x200 x.errSide0, errSide1 := word 0x204 x.errSide1 }

/-- The first `n` bytes of a list, filled with zeros. -/
def fillBytes (bs : List Byte) (n : Nat) : List Byte := (bs ++ List.replicate n 0).take n

/-- The record of NODE_READ: node status, position, length, 0, then 64 data bytes. -/
def nodeReadRecord (r : MgmtResp) (pos len : Nat) : List Word :=
  bytesWords ([r.status, BitVec.ofNat 8 pos, BitVec.ofNat 8 len, 0] ++ fillBytes (r.data.take len) 64)

/-- NODE_READ (R413, R129). -/
def execNodeRead (n : BitVec 4) (resp : Option MgmtResp) (s : State) : Host.Outcome State Fault Refusal :=
  let k := n.toNat
  let m := s.mach
  let m := m.when (m.opMay k 0x01) (·.nodeSend k 64 false resp.isSome [])
  let r := resp.getD ⟨0, 0, 0, []⟩
  eff s (m.opWork k 0x01 (·.nodeError k 64 false resp) fun m =>
    let (pos, len, addr) := m.nodeArgs k
    let data := m.nodeAnswer pos addr len r
    let m := m.modNode pos fun x => x.errsSeen addr data
    m.opGive k [nodeReadRecord { r with data := data } pos len])

/-- The data of NODE_WRITE. -/
def Mach.nodeData (m : Mach) (n len : Nat) : List Byte :=
  (wordsBytes ((List.range 14).map fun k => m.opArg n (2 + k))).take len

/-- The write reaches its node, or with 0xFF every node. -/
def Mach.nodeTake (m : Mach) (pos addr : Nat) (data : List Byte) : Mach :=
  m.each (m.mgmtPorts pos) fun m p => m.mgmtTake p pos opWrite addr data

/-- NODE_WRITE (R413). -/
def execNodeWrite (n : BitVec 4) (resp : Option MgmtResp) (s : State) : Host.Outcome State Fault Refusal :=
  let k := n.toNat
  let m := s.mach
  let data := m.nodeData k (m.nodeArgs k).2.1
  let m := m.when (m.opMay k 0x02) (·.nodeSend k 56 true resp.isSome data)
  let r := resp.getD ⟨0, 0, 0, []⟩
  eff s (m.opWork k 0x02 (·.nodeError k 56 true resp) fun m =>
    let (pos, _, addr) := m.nodeArgs k
    (m.nodeTake pos addr data).opGive k [bytesWords [r.status, BitVec.ofNat 8 pos, r.ackCnt, 0]])

/-! ## Wire calibration (R288, R414) -/

/-- L_j: the step of the cell below, and for cell 0 from its own step. -/
def wireL (r : WireRec) (j : Nat) : Int :=
  if j = 0 then -(r.own.getD 0 0) - r.upper.getD 0 0 else r.lower.getD j 0

/-- U_j: the step of the cell above, and for the last cell from its own step. -/
def wireU (r : WireRec) (j : Nat) : Int :=
  if j + 1 = r.cells then -(r.own.getD j 0) - wireL r j else r.upper.getD j 0

/-- The result code: no response, a failed sum check, a drop out of range. -/
def wireCode (r : WireRec) : Byte :=
  let inner := (List.range r.cells).filter fun j => 0 < j && j + 1 < r.cells
  let sumOk := inner.all fun j =>
    let e := -(r.own.getD j 0) - (wireL r j + wireU r j)
    decide (-50 ≤ e ∧ e ≤ 50)
  let inRange := fun (x : Int) => decide (0 ≤ x ∧ x ≤ 20000)
  let rangeOk := (List.range r.cells).all fun j => inRange (wireL r j) && inRange (wireU r j)
  if !r.answered then 3 else if !sumOk then 1 else if !rangeOk then 2 else 0

/-- A measured drop as the unsigned field of a record; a value that it cannot hold is open.
DEDUCED: log entry 45. -/
def Mach.dropField (m : Mach) (x : Int) : BitVec 16 × Mach :=
  if 0 ≤ x ∧ x < 65536 then (BitVec.ofInt 16 x, m) else (m.freeNow.setWidth 16, m.freeTicked)

/-- The six fields of one kind of drop. -/
def Mach.dropFields (m : Mach) (f : Nat → Int) (cells : Nat) : List (BitVec 16) × Mach :=
  (List.range 6).foldl (fun (acc, m) j => let r := m.dropField (if j < cells then f j else 0); (acc ++ [r.1], r.2)) ([], m)

/-- One node's record (R414).
DEDUCED: log entry 45. -/
def Mach.wireRecord (m : Mach) (r : WireRec) : List Word × Mach :=
  let code := wireCode r
  let cells := if code = 3 then 0 else r.cells
  let l := m.dropFields (wireL r) cells
  let u := l.2.dropFields (wireU r) cells
  let v := if code = 3 then 0 else r.vComm
  (bytesWords ([BitVec.ofNat 8 r.pos, code, BitVec.ofNat 8 r.cells, 0] ++ (l.1 ++ u.1 ++ [v, 0]).flatMap halfBytes), u.2)

/-- A node's wire drops enter the calibration store, in both copies, as the words of its bank entry (R287, R499). -/
def Mach.wireStore (m : Mach) (r : WireRec) : Mach :=
  let drops := fun (f : Nat → Int) => (List.range 6).map fun j => if j < r.cells then Config.microvoltWord (f j) else bfpZero
  let ws := (drops (wireL r) ++ [Config.microvoltWord (r.vComm.toNat * 100), bfpZero] ++ drops (wireU r) ++ [bfpZero])
  let ws := ws ++ [crcWords ws]
  let a := 16 * (256 + 32 * r.pos)
  { m with mgmt := { m.mgmt with calA := putAll (fun _ => 0) m.mgmt.calA a ws, calB := putAll (fun _ => 0) m.mgmt.calB a ws } }

/-- What fails WIRE_CAL (R288, R509): a STANDBY, a run state other than SAFE_HOLD, a closed breaker, a bleeding node. -/
def Mach.wireError (m : Mach) : Option (BitVec 16 × Nat) :=
  let bleeds := (m.chain.nodes.toList.take m.nodeCount).any fun x => x.bleed != 0
  orErr (errIf (m.role == .standby) Err.role)
    (errIf (m.runState != .safeHold || m.flag F.SAF_INPUT_brk_aux_a || m.flag F.SAF_INPUT_brk_aux_b || bleeds)
      Err.refusedState)

/-- A request to all nodes, 100 ms times `k` from now (R288). -/
def Mach.wireReq (m : Mach) (k : Nat) (op : Byte) (addr : Nat) (req : List Byte) : Mach :=
  m.each (m.mgmtPorts 0xFF) fun m p =>
    (m.mgmtSend p (m.upNs + 100000000 * k) 0xFF op addr req 0).mgmtTake p 0xFF op addr req

/-- Steps 1 and 2 of R288: compensated mode and no bleed for the baseline, then each cell index bled for 100 ms; afterwards nothing
bleeds, and the mode is again that of the bank in force (R284).
DEDUCED: log entry 45. -/
def Mach.wireSteps (m : Mach) : Mach :=
  let top := m.positions.foldl (fun k p => max k (m.cellsOf p)) 0
  let compensated := [0, 0, BitVec.ofNat 8 m.cellDiv, BitVec.ofNat 8 (m.get F.FLY_CYCLE_period % 128)]
  let m := (m.wireReq 0 opWrite 0x0104 compensated).wireReq 0 opBleed 0 [0]
  let m := m.each (List.range (min 6 top)) fun m j => m.wireReq (j + 1) opBleed 0 [BitVec.ofNat 8 (2 ^ j)]
  (m.wireReq (min 6 top + 1) opBleed 0 [0]).wireReq (min 6 top + 1) opWrite 0x0104 m.cycleReq

/-- WIRE_CAL: a record per node in position order; nodes that pass get new drops. -/
def Mach.wireCal (m : Mach) (n : Nat) (recs : List WireRec) : Mach :=
  let m := m.wireSteps
  let rs := m.positions.map fun p => (recs.find? (·.pos == p)).getD ⟨p, false, 0, [], [], [], 0⟩
  let m := m.each (rs.filter fun r => wireCode r == 0) Mach.wireStore
  let out := rs.foldl (fun (acc, m) r => let w := m.wireRecord r; (acc ++ [w.1], w.2)) (([] : List (List Word)), m)
  out.2.opGive n out.1

def execWireCal (n : BitVec 4) (recs : List WireRec) (s : State) : Host.Outcome State Fault Refusal :=
  eff s (s.mach.opWork n.toNat 0x03 Mach.wireError (·.wireCal n.toNat recs))

/-! ## Logs (R498, R502) -/

/-- An entry's 32 bytes, with their CRC-32C. -/
def LogEntry.words (e : LogEntry) : List Word :=
  let ws := [e.seq, e.sec, e.ns, e.cls ++ e.sev ++ e.code, e.status ++ e.master, e.data0, e.data1]
  ws ++ [crcWords ws]

/-- LOG_READ: the entries held of a range of sequences, oldest first. -/
def Mach.logRead (m : Mach) (n : Nat) : Mach :=
  let l := if (m.opArg n 0).getLsbD 0 then m.mgmt.archive else m.mgmt.log
  let wanted := l.filter fun e => decide ((e.seq - m.opArg n 1).toNat < (m.opArg n 2).toNat)
  m.opGive n (wanted.reverse.map LogEntry.words)

/-- LOG_READ (R498). -/
def execLogRead (n : BitVec 4) (s : State) : Host.Outcome State Fault Refusal :=
  let k := n.toNat
  eff s (s.mach.opWork k 0x04
    (fun m => errIf (m.opArg k 2 == 0 || decide (16777216 ≤ (m.opArg k 2).toNat)) Err.refusedValue) (·.logRead k))

/-! ## Programs (R498) -/

/-- What fails PROG_STORE. -/
def Mach.storeError (m : Mach) (n : Nat) (flashOk : Bool) : Option (BitVec 16 × Nat) :=
  orErr (m.lockError (m.opCaller n)) <| orErr m.quietError <|
  orErr (errIf (m.stage != Stage.verified || !m.mgmt.staged.any (·.kind == .reludProgram)) Err.refusedState) <|
  orErr (errIf (decide (3 < (m.opArg n 0).toNat)) Err.refusedValue) (errIf (!flashOk) Err.flash)

/-- PROG_STORE: the staged program enters its slot; the block map is cleared and the stage is OPEN. -/
def Mach.progStore (m : Mach) (n : Nat) : Mach :=
  let k := (m.opArg n 0).toNat
  let m := { m with mgmt := { m.mgmt with slots := m.mgmt.slots.setIfInBounds k ⟨m.mgmt.staged⟩ } }
  (m.stagingClear.setStage Stage.open).opGive n [[m.opArg n 0]]

/-- A slot whose program or erase failed holds no image.
DEDUCED: log entry 23. -/
def Mach.storeFails (m : Mach) (n : Nat) : Mach :=
  let k := (m.opArg n 0).toNat
  { m with mgmt := { m.mgmt with slots := m.mgmt.slots.setIfInBounds k ⟨none⟩ } }

/-- PROG_STORE (R498). -/
def execProgStore (n : BitVec 4) (flashOk : Bool) (s : State) : Host.Outcome State Fault Refusal :=
  let k := n.toNat
  let m := s.mach
  let bad := m.opMay k 0x05 && m.storeError k flashOk == some (Err.flash, 0)
  eff s ((m.when bad (·.storeFails k)).opWork k 0x05 (·.storeError k flashOk) (·.progStore k))

/-- What fails PROG_LOAD before any effect. -/
def Mach.loadError (m : Mach) (n : Nat) : Option (BitVec 16 × Nat) :=
  let st := m.get F.SPN_STAT_state
  orErr (m.lockError (m.opCaller n)) <| orErr m.quietError <|
  orErr (errIf (m.runState != .off || st == 2 || st == 4) Err.refusedState)
    (errIf (decide (4 < fieldOf (m.opArg n 0) 0 3)) Err.refusedValue)

/-- PROG_LOAD: an image that fails R489 leaves the array EMPTY; PD_SPIN0 is switched on where it is off (R23).
DEDUCED: log entry 23. DESIGN CHOICE: log entry 5. -/
def Mach.progLoad (m : Mach) (n : Nat) : Mach :=
  let slot := fieldOf (m.opArg n 0) 0 3
  let m := m.domainOn .spin0
  if m.domFault .spin0 then m.opFail n Err.domainOff
  else match m.slotCheck slot (m.opCaller n) with
  | .error e => (m.set F.SPN_STAT_state 0).noProgram.opFail n e
  | .ok p =>
    let m := m.loadProgram p
    let boot := if (m.opArg n 0).getLsbD 8 then slot else m.mgmt.bootSlot
    { m with mgmt := { m.mgmt with loadedSlot := slot, bootSlot := boot } }.opGive n [[m.rd Reg.SPN_PROG_ID]]

/-- PROG_LOAD (R498). -/
def execProgLoad (n : BitVec 4) (s : State) : Host.Outcome State Fault Refusal :=
  eff s (s.mach.opWork n.toNat 0x06 (·.loadError n.toNat) (·.progLoad n.toNat))

/-! ## Calibration and configuration (R499, R500) -/

/-- The range of records of an operation lies in the store. -/
def Mach.calRange (m : Mach) (n most : Nat) : Bool :=
  let first := (m.opArg n 0).toNat
  let count := (m.opArg n 1).toNat
  decide (1 ≤ count ∧ count ≤ most ∧ first + count ≤ 16384)

/-- CAL_READ: 64-byte records; those invalid in both copies read as zeros and are counted in aux. -/
def Mach.calRead (m : Mach) (n : Nat) : Mach :=
  let rs := (List.range (m.opArg n 1).toNat).map fun k => m.mgmt.cal ((m.opArg n 0).toNat + k)
  let bad := (rs.filter fun r => !r.2).length
  (m.set (F.OP_STATUS1_aux n) (min 15 bad)).opGive n (rs.map (·.1))

/-- CAL_READ (R498). -/
def execCalRead (n : BitVec 4) (s : State) : Host.Outcome State Fault Refusal :=
  eff s (s.mach.opWork n.toNat 0x07 (fun m => errIf (!m.calRange n.toNat 16384) Err.refusedValue) (·.calRead n.toNat))

/-- A record of the transfer buffer. -/
def Mach.xferRecord (m : Mach) (k : Nat) : List Word := (List.range 16).map fun w => m.rd (Reg.MGT_XFER_BUF (16 * k + w))

/-- What fails CAL_WRITE. -/
def Mach.calError (m : Mach) (n : Nat) (flashOk : Bool) : Option (BitVec 16 × Nat) :=
  let first := (m.opArg n 0).toNat
  orErr (errIf (m.lifeCycle == .decommissioned || (decide (first < 256) && m.lifeCycle != .manufacture)) Err.lifeCycle) <|
  orErr (m.lockError (m.opCaller n)) <| orErr (errIf (m.mgmt.updOwner == 0) Err.noSession) <|
  orErr (errIf (m.supply != .normal) Err.supply) <| orErr (errIf (!m.calRange n 64) Err.refusedValue) <|
  orErr (errIf (!(List.range (m.opArg n 1).toNat).all fun k => calOk (m.xferRecord k)) Err.refusedValue)
    (errIf (!flashOk) Err.flash)

/-- CAL_WRITE: into copy A, then into copy B. The sensor scaling follows it at once.
DESIGN CHOICE: log entry 70. -/
def Mach.calWrite (m : Mach) (n : Nat) : Mach :=
  let ws := m.xferWords (16 * (m.opArg n 1).toNat)
  let a := 16 * (m.opArg n 0).toNat
  { m with mgmt := { m.mgmt with calA := putAll (fun _ => 0) m.mgmt.calA a ws
                                 calB := putAll (fun _ => 0) m.mgmt.calB a ws } }.loadScaling.opGive n [[m.opArg n 0]]

/-- CAL_WRITE (R498). -/
def execCalWrite (n : BitVec 4) (flashOk : Bool) (s : State) : Host.Outcome State Fault Refusal :=
  eff s (s.mach.opWork n.toNat 0x08 (·.calError n.toNat flashOk) (·.calWrite n.toNat))

/-- The next generation of the configuration. -/
def MgmtState.nextGen (g : MgmtState) : Nat := ((g.config.map (·.gen)).getD 0) + 1

/-- The copy with the lower valid sequence is written; a write that fails leaves it invalid. -/
def MgmtState.configPut (g : MgmtState) (c : Option ConfigCopy) : MgmtState :=
  let aOld := match g.cfgA, g.cfgB with
    | none, _ => true
    | some _, none => false
    | some a, some b => decide (a.gen ≤ b.gen)
  if aOld then { g with cfgA := c } else { g with cfgB := c }

/-- CONFIG_SAVE (R500).
DEDUCED: log entry 23. -/
def Mach.configSave (m : Mach) (n : Nat) : Mach :=
  let gen := m.mgmt.nextGen
  { m with mgmt := m.mgmt.configPut (some ⟨gen, m.configNow, m.mgmt.bootSlot⟩) }.opGive n [[BitVec.ofNat 32 gen]]

/-- What fails CONFIG_SAVE. -/
def Mach.saveError (m : Mach) (flashOk : Bool) : Option (BitVec 16 × Nat) :=
  orErr (errIf (m.lifeCycle == .decommissioned) Err.lifeCycle) <|
  orErr (errIf (m.supply != .normal) Err.supply) (errIf (!flashOk) Err.flash)

def execConfigSave (n : BitVec 4) (flashOk : Bool) (s : State) : Host.Outcome State Fault Refusal :=
  let k := n.toNat
  let m := s.mach
  let bad := m.opMay k 0x09 && m.saveError flashOk == some (Err.flash, 0)
  let m := m.when bad fun m => { m with mgmt := m.mgmt.configPut none }
  eff s (m.opWork k 0x09 (·.saveError flashOk) (·.configSave k))

/-! ## Self-tests (R516) -/

/-- A test's record.
DEDUCED: log entry 45. -/
def testRecord (bit code : Nat) (r : TestResult) : List Word :=
  [BitVec.ofNat 8 bit ++ BitVec.ofNat 8 code ++ r.duration, r.detail, r.errors, 0]

/-- Lanes by a mask register: the results of a lane test that ran outside RUNNING. -/
def Mach.lanesTested (m : Mach) (r : TestResult) : Mach :=
  if m.get F.SPN_STAT_state = 2 then
    { m.wr Reg.SPN_ST_CYC (m.firstCycleAhead 100000) with spin := { m.spin with stPend := true } }
  else
    let lane := r.detail.toNat % 128
    let m := m.each [0, 1, 2, 3] fun m k =>
      m.wr (Reg.SPN_ST_FAIL k) (if !r.pass ∧ lane / 32 = k then BitVec.ofNat 32 (2 ^ (lane % 32)) else 0)
    (m.set F.SPN_ST_STAT_result (if r.pass then 2 else 3)).on F.SPN_IRQ_STAT_st_done

/-- What IMAGES finds in the images that the module holds (R516): R489 on the running image without its digest, and the
program slots. -/
def Mach.imagesOk (m : Mach) : Bool :=
  (m.mgmt.running.any fun i => (m.imageError i none).isNone) && m.mgmt.slots.toList.all fun x => x.image.all (·.formatOk)

/-- One test in its turn: skipped, or run with its result. -/
def Mach.testOne (m : Mach) (bit : Nat) (r : TestResult) : List Word × Mach :=
  let r := if bit = 1 then { r with pass := r.pass && m.imagesOk } else r
  if m.testMay bit then
    let m := m.when (bit == 2) (·.lanesTested r)
    let m := m.when (bit == 3) Mach.marched
    (testRecord bit (if r.aborted then 3 else if r.pass then 0 else 1) r, m)
  else (testRecord bit 2 ⟨true, false, 0, 0, 0⟩, m)

/-- SELFTEST: the tests of the mask in ascending bit order, `rs` the results of those asked. -/
def Mach.selftestOp (m : Mach) (n : Nat) (rs : List TestResult) : Mach :=
  let bits := (List.range 8).filter fun b => (m.opArg n 0).getLsbD b
  let step := fun (acc : List (List Word) × Mach) (x : Nat × Nat) =>
    let r := acc.2.testOne x.1 (rs.getD x.2 ⟨true, false, 0, 0, 0⟩)
    (acc.1 ++ [r.1], r.2)
  let out := (bits.zip (List.range 8)).foldl step (([] : List (List Word)), m)
  out.2.opGive n out.1

/-- SELFTEST (R516). -/
def execSelftest (n : BitVec 4) (results : List TestResult) (s : State) : Host.Outcome State Fault Refusal :=
  let k := n.toNat
  eff s (s.mach.opWork k 0x0A (fun m => errIf (fieldOf (m.opArg k 0) 0 8 == 0) Err.refusedValue)
    (·.selftestOp k results))

end Sys2Proof.Machine
end

