-- ==== Sys2Proof/Machine/TestAccess.lean ====
section
/-!
DEFINITION. Boundary scan (R513 to R515): the instructions of the two devices, their conditions, and what leaving an
EXTEST-class instruction leads to.
-/

namespace Sys2Proof.Machine

/-- The identification of each device: version 0, part, manufacturer 0x738 (R513). -/
def tapIdcode (ctrl : Bool) : Word := if ctrl then 0x01800E71 else 0x01801E71

/-- EXTEST-class instructions are accepted (R514). -/
def Mach.extestOk (m : Mach) : Bool :=
  m.runState == .off && !m.flag F.SAF_INPUT_brk_aux_a && !m.flag F.SAF_INPUT_brk_aux_b
    && (m.lifeCycle == .manufacture || m.lifeCycle == .service)

/-- The TAP has left an EXTEST-class instruction: a module reset of type MODULE_HOST follows (R514). -/
def Mach.extestLeft (m : Mach) (was : Bool) : Mach :=
  m.when (was && !m.extest) fun m => { m with power := { m.power with resetPend := some (BitVec.ofNat 8 ResetType.host) } }

/-- The held-safe set drives its safe values (R515): the coil switches are off, the claim is released, FLOOP_OUT and HVIL_OUT
source no current, so that every node goes to autonomous BLOCK, and PWR_CYCLE_REQ is released.
DEDUCED: log entry 49. -/
def Mach.heldSafe (m : Mach) : Mach :=
  let m := (m.releaseTripHs.releaseTripLs.releaseClaim .reset).hvilOpens
  { m.loopOpens with safety := { m.loopOpens.safety with closeOn := false, discOn := false }
                     power := { m.loopOpens.power with pwrCycleReq := false } }

/-- TAP_UPDATE_IR: each device takes its code, or BYPASS in place of an EXTEST-class one that is refused; the refused bit of
Capture-IR tells of it (R513).
DEDUCED: log entry 49. -/
def Mach.updateIr (m : Mach) (ctrl : Byte) (comp : BitVec 6) : Mach :=
  let was := m.extest
  let ok := m.extestOk
  let badA := (ctrlInstr ctrl).extestClass && !ok
  let badB := (compInstr comp).extestClass && !ok
  let m := { m with power := { m.power with irCtrl := if badA then 0xFF else ctrl, irComp := if badB then 0x3F else comp
                                            irRefCtrl := badA, irRefComp := badB } }
  (m.when m.extest (·.heldSafe)).extestLeft was

def execTapUpdateIr (ctrl : Byte) (comp : BitVec 6) (s : State) : Host.Outcome State Fault Refusal :=
  eff s (s.mach.updateIr ctrl comp)

/-- TAP_LEAVE_EXTEST: Test-Logic-Reset or TRST_N loads IDCODE (R513). -/
def execTapLeaveExtest (s : State) : Host.Outcome State Fault Refusal :=
  let m := s.mach
  eff s ({ m with power := { m.power with irCtrl := 0x01, irComp := 0x01 } }.extestLeft m.extest)

/-- The value that a device captures in Capture-IR (R513): [1:0] 0b01, [2] refused, [3] the held-safe set is active.
DEDUCED: log entry 49. -/
def Mach.captureIr (m : Mach) (ctrl : Bool) : Nat :=
  1 + 4 * (if ctrl then m.power.irRefCtrl else m.power.irRefComp).toNat + 8 * m.extest.toNat

end Sys2Proof.Machine
end

