-- ==== Sys2Proof/Machine/Access.lean ====
section
/-!
DEFINITION. Host accesses (R6 to R10, R24, R30, R31, R398, R402, R403): one read or write of one word by a master, with the
write rules that each chapter gives its registers, latched copies, locks and memory; and the REQUEST message that carries
such accesses (R397 to R399).
-/

namespace Sys2Proof.Machine

/-! ## Where an address leads (R30, R31) -/

/-- The address lies in a host-visible memory. -/
def inMemory (a : Nat) : Bool :=
  inProgMem a || inBanks a || inLaneMem a || decide (frameBase ≤ a ∧ a < 0x2300000)

/-- The address lies in an operation's result window (R421). -/
def inOpWindow (a : Nat) : Bool := decide (0x68000 ≤ a ∧ a < 0x70000)

/-- The word at an address exists. -/
def assigned (a : Nat) : Bool := inMemory a || inOpWindow a || (regRow? a).isSome

/-- The first checks of R402: BAD_ADDRESS, ALIGN, DOMAIN_OFF or ZEROISING.
DEDUCED: log entry 20. -/
def Mach.addressRefusal (m : Mach) (a : Nat) : Option (BitVec 16) :=
  if !assigned (a / 4 * 4) then some Err.badAddress else if a % 4 ≠ 0 then some Err.align else m.offCode a

/-! ## What a read shows -/

/-- The FIFO head of a CAN port as words (R431). -/
def Mach.fifoWord (m : Mach) (x w : Nat) : Word :=
  match (m.canPort x).fifo with
  | [] => 0
  | (f, stamp) :: _ => if w = 0 then f.id else if w = 1 then f.info else if w = 2 then stamp else f.data.getD (w - 3) 0

/-- The head and tail of a ring (R420): the rings of the CAN ports as their entries moved them; of every other ring, whose
entries are taken as they come, one open offset, 0 while the ring has not been enabled.
DESIGN CHOICE: log entry 70. -/
def Mach.ringPtr (m : Mach) (r : Nat) : Word :=
  if 20 ≤ r ∧ r ≤ 23 ∨ ¬ m.flag (F.Q_SIZE_enabled r) then m.rd (Reg.Q_PTR r)
  else
    let p := BitVec.ofNat 32 ((Config.ringPtr r m.freeTick).toNat % (m.get (F.Q_SIZE_size r)))
    p <<< 16 ||| p

/-- Seconds until an instant, from now.
DEDUCED: log entry 21. -/
def Mach.secondsTo (m : Mach) (ns : Nat) : Nat := (ns - m.upNs) / 1000000000

/-- A law request is held (R177): it differs from the law in force, and no sample instant in RUN has taken it. The reference
program's forced hand-over leaves a request that was taken.
DEDUCED: log entry 56. -/
def Mach.lawHeld (m : Mach) : Bool :=
  let req := m.flag F.SNS_MODE_law_req
  req != m.law && !(m.spin.refProg && m.runState == .run && m.prog.loop.lawTaken == req)

/-- The value of a word as its master reads it live: the stored word, or what the register's description makes it. CHB reads
the chain-wide registers as copies of CHA's (R121).
DEDUCED: log entries 21, 34. -/
def Mach.view (m : Mach) (a : Nat) : Word :=
  if inMemory a then readMemWord m.mem a
  else if a = Reg.GLB_STATUS then m.glbStatus
  else if a = Reg.GLB_IRQ_SUM then m.irqSum
  else if a = Reg.TB_TIME_NS then BitVec.ofNat 32 m.time.ns
  else if a = Reg.TB_TIME_SEC_LO then BitVec.ofNat 32 m.time.sec
  else if a = Reg.TB_TIME_SEC_HI then BitVec.ofNat 32 (m.time.sec / 2 ^ 32)
  else if a = Reg.TB_TIME_FRAC then m.time.frac
  else if a = Reg.CH_CFG 1 then m.rd (Reg.CH_CFG 0)
  else if a = Reg.CH_CNT_MISM 1 then m.rd (Reg.CH_CNT_MISM 0)
  else if 0x90040 ≤ a ∧ a < 0x90050 then m.rd (a - 0x10000)
  else if a = Reg.FLY_TIME_A then
    BitVec.ofNat 32 (m.get F.FLY_CYCLE_period * 50 * 2 ^ 16 + 550)
  else if a = Reg.FLY_TIME_B then splice (m.rd a) 16 16 (m.get F.FLY_CYCLE_period * 100 - 200)
  else if a = Reg.FLY_PRE_STAT then
    splice (m.rd a) 8 8 ((m.chain.nodes.toList.take m.nodeCount).filter (·.live)).length
  else if a = Reg.SNS_MODE then splice (m.rd a) 8 1 m.lawHeld.toNat
  else if a = Reg.SNS_ISO then if m.flag F.SNS_ISO_valid then splice (m.rd a) 16 15 m.isoAge else m.rd a
  else if 0x50000 ≤ a ∧ a < 0x50400 ∧ a % 16 = 8 then m.ringPtr ((a - 0x50000) / 16)
  else if a = Reg.SPN_BANK_CYC then m.spin.swapAt.getD (m.rd a)
  else if a = Reg.SPN_BANK_CRC_F then m.bankCrcRead
  else if a = Reg.MGT_UPD_STAT then
    if m.mgmt.updOwner = 0 then m.rd a else splice (m.rd a) 0 16 (m.secondsTo (m.mgmt.updNs + 600 * 1000000000))
  else if a = Reg.MGT_UPD_LEFT then BitVec.ofNat 32 ((m.mgmt.confirmNs.map m.secondsTo).getD 0)
  else if 0xD0080 ≤ a ∧ a < 0xD00CC then m.fifoWord 0 ((a - 0xD0080) / 4)
  else if 0xE0080 ≤ a ∧ a < 0xE00CC then m.fifoWord 1 ((a - 0xE0080) / 4)
  else m.rd a

/-! ## Latching reads (R9) -/

/-- The registers that a read of a latching register latches; none for any other. -/
def latchesOf (a : Nat) : List Nat :=
  let words := fun lo n => (List.range n).map fun k => lo + 4 * k
  if a = Reg.GLB_SERIAL_LO then [Reg.GLB_SERIAL_HI]
  else if a = Reg.LCY_OWNER_ID_LO then [Reg.LCY_OWNER_ID_HI]
  else if a = Reg.TB_TIME_NS then words 0x3000C 3
  else if 0x30200 ≤ a ∧ a < 0x30280 ∧ a % 16 = 4 then [a + 4]
  else if 0x60000 ≤ a ∧ a < 0x60800 ∧ a % 128 = 4 then [a + 4]
  else if a = Reg.MEM_ERR_LOC then [Reg.MEM_ERR_INFO]
  else if a = Reg.ETH_MAC_LO then [Reg.ETH_MAC_HI]
  else if a = Reg.ETH_PTP_GM_LO then [Reg.ETH_PTP_GM_HI]
  else if a = Reg.CAN_FIFO_STAT 0 then words 0xD0080 19
  else if a = Reg.CAN_FIFO_STAT 1 then words 0xE0080 19
  else if (0xD1000 ≤ a ∧ a < 0xD2000 ∨ 0xE1000 ≤ a ∧ a < 0xE2000) ∧ a % 128 = 0 then
    [a + 4, a + 8, a + 16] ++ words (a + 0x40) 16
  else if a = Reg.SNS_I then words 0x100024 7
  else if a = Reg.SPN_DIG_CYC then [Reg.SPN_DIG_IN, Reg.SPN_DIG_OUT]
  else if a = Reg.SPN_DIG_STATE_CYC then [Reg.SPN_DIG_STATE]
  else []

/-- The master's latched copy of a register. -/
def Mach.latched (m : Mach) (master a : Nat) : Option LatchCopy :=
  m.latches.find? fun l => l.master == master && l.copy.any (·.1 == a)

/-- A latching read replaces the master's copy; other reads make none. -/
def Mach.latch (m : Mach) (master a : Nat) : Mach :=
  if latchesOf a = [] then m
  else
    let l : LatchCopy := ⟨master, a, (latchesOf a).map fun k => (k, m.view k)⟩
    { m with latches := l :: m.latches.filter fun l => !(l.master == master && l.reg == a) }

/-- A read of TB_CAP_NS_u after its latching read frees the unit, and with it the copy (R9, R380). -/
def Mach.captureFree (m : Mach) (l : LatchCopy) (a : Nat) : Mach :=
  if 0x30200 ≤ a ∧ a < 0x30280 then
    { m.off (F.TB_CAP_CTRL_full ((a - 0x30200) / 16)) with latches := m.latches.filter (· != l) }
  else m

/-! ## One read -/

/-- The owner that a read needs: MGT_XFER_BUF belongs to the master bound to the owner lock (R506). -/
def Mach.readNotOwner (m : Mach) (master a : Nat) : Bool :=
  decide (0x118000 ≤ a ∧ a < 0x119000) && m.mgmt.updOwner != master

/-- A read of one word by a master (R402). A single-word read of a free lock register takes the lock (R403).
DESIGN CHOICE: log entry 16. -/
def Mach.hostRead (m : Mach) (master a : Nat) (single : Bool) : Mach :=
  match m.addressRefusal a with
  | some e => m.refuse e
  | none =>
    if m.readNotOwner master a then m.refuse Err.notOwner (BitVec.ofNat 32 m.mgmt.updOwner)
    else
      let m := m.when (inMemory a) (·.meet a 4 Agent.host)
      if inMemory a && m.poisoned a then (m.poisonHit a Agent.host).refuse Err.poison
      else match m.latched master a with
      | some l => (m.captureFree l a).ok [((l.copy.find? (·.1 == a)).map (·.2)).getD 0]
      | none =>
        let m := (m.when (a == Reg.PWR_SUP_STAT) (·.storeSettle)).when (decide (0x80000 ≤ a ∧ a < 0xA0000)) (·.chainSettle)
        let w := m.view a
        let m := m.latch master a
        let m := m.when (decide (a ∈ lockRegs) && single && w == 0) (·.wr a (BitVec.ofNat 32 master))
        m.ok [w]

/-! ## Writes: the plain effect and its checks -/

/-- The write's answer is a refusal. -/
def Mach.bad (m : Mach) : Bool := m.answer.1 != 0

/-- Steps of one write, in order: the first refusal leaves the register and everything else unchanged (R10).
DESIGN CHOICE: log entry 17. -/
def Mach.steps (m : Mach) (fs : List (Mach → Mach)) : Mach :=
  let r := fs.foldl (fun x f => if x.bad then x else f x) m.ok
  if r.bad then { m with answer := r.answer } else r

/-- Refuse unless a condition holds. -/
def Mach.need (m : Mach) (c : Bool) (e : BitVec 16) (aux : Nat := 0) : Mach :=
  if c then m else m.refuse e (BitVec.ofNat 32 aux)

/-- The write would change one of these bits. -/
def Mach.changes (m : Mach) (a : Nat) (data mask : Word) : Bool := (m.rd a ^^^ data) &&& mask != 0

/-- Fields that a state refuses: only a change of them is refused (R10). -/
def Mach.keep (m : Mach) (a : Nat) (data mask : Word) (allowed : Bool) (e : BitVec 16 := Err.refusedState) : Mach :=
  m.need (allowed || !m.changes a data mask) e

/-- A value outside its permitted set. -/
def Mach.value (m : Mach) (c : Bool) : Mach := m.need c Err.refusedValue

/-- The effect of the access codes (R6, R8): RW bits take the written value, RW1C bits written 1 clear.
DEDUCED: log entry 19. -/
def Mach.plain (m : Mach) (a : Nat) (data : Word) : Mach :=
  match regRow? a with
  | none => m
  | some r => m.wr a ((m.rd a &&& ~~~(r.rw ||| (r.w1c &&& data))) ||| (data &&& r.rw))

/-- Run an action for a bit written 1. -/
def Mach.act (m : Mach) (data : Word) (i : Nat) (f : Mach → Mach) : Mach := m.when (data.getLsbD i) f

/-- A field of the written word lies in a range. -/
def within (data : Word) (lsb width lo hi : Nat) : Bool :=
  decide (lo ≤ fieldOf data lsb width) && decide (fieldOf data lsb width ≤ hi)

/-- The run state is OFF. -/
def Mach.isOff (m : Mach) : Bool := m.runState == .off

/-! ## Locks (R403) -/

/-- A write to a lock register: 0 by the holder releases it, unless its mailbox or operation is busy (R404, R421). A write
of 0 to a free lock changes nothing.
DESIGN CHOICE: log entry 16. -/
def Mach.lockWrite (m : Mach) (master a : Nat) (data : Word) : Mach :=
  let holder := (m.rd a).toNat
  let b := (a - 0x40000) / 256
  let n := (a - 0x60000) / 128
  if fieldOf data 0 4 ≠ 0 then m.refuse Err.refusedValue
  else if holder = 0 then m
  else if holder ≠ master then m.refuse Err.notOwner (BitVec.ofNat 32 holder)
  else if a / 0x10000 = 4 then
    if a < 0x41000 ∧ m.mbxBusy b then m.refuse Err.busy (BitVec.ofNat 32 holder) else m.wr a 0
  else if a / 0x10000 = 6 then
    if m.opActive n then m.refuse Err.busy (BitVec.ofNat 32 holder) else m.opRelease n
  else m.wr a 0

/-! ## The chain and the Flyer (R121, R133, R134, R159) -/

/-- The load rule R110: at most 800 Mbit/s per lane, for period `t` in µs, `n` nodes and divider `d`. -/
def loadOk (t n d : Nat) : Bool := decide (8 * (48 * d + 6 * n * d + 24 * n) ≤ 800 * t * d)

/-- A3 of R133, in nanoseconds.
DEDUCED: log entry 19. -/
def fitOk (t n d : Nat) (pair : Bool) : Bool :=
  let k := (n + d - 1) / d
  decide (5500 + (if pair then 1500 else 0) + 8 * (24 + 2 * n + 24 * k) + 1000 ≤ 1000 * t)

/-- The checks of R134 on a written configuration; the result of A3 is reported whatever the answer. -/
def Mach.admitTiming (m : Mach) (t : Nat) (cfg : Word) (go : Mach → Mach) : Mach :=
  let n := fieldOf cfg 0 8
  let d := fieldOf cfg 8 8
  let fit := fitOk t n d (fieldOf cfg 16 2 == 1)
  let r := m.steps [(·.value (loadOk t n d && fit)), go]
  r.setB F.FLY_TIME_C_fit_fail (!fit)

/-- 
DEDUCED: log entry 19. -/
def Mach.chCfgWrite (m : Mach) (data : Word) : Mach :=
  let a := Reg.CH_CFG 0
  let r := m.steps [(·.keep a data 0x3FFFF m.isOff), (·.value (within data 16 2 0 1 && within data 8 8 1 255 && within data 0 8 0 128))]
  if r.bad then r else m.admitTiming (m.get F.FLY_CYCLE_period) data (·.plain a data)

/-- CHx_CTRL (R121): transmitter and launch, a roving walk or firmware load in OFF, which meets what the last such command found
on the wires, and the counters.
DESIGN CHOICE: log entry 69. -/
def Mach.chCtrlWrite (m : Mach) (x : Nat) (data : Word) : Mach :=
  let p : Port := if x = 0 then .a else .b
  m.steps [
    (·.need (m.isOff || (!data.getLsbD 2 && !data.getLsbD 3)) Err.refusedState),
    fun m => m.when (m.changes (Reg.CH_CTRL x) data 1) (·.txEnable p (data.getLsbD 0)),
    fun m => (m.setB (F.CH_CTRL_launch x) (data.getLsbD 1)).stopFollow m.stopPorts,
    (·.act data 2 (·.roveBegin)),
    (·.act data 3 (·.bootBegin)),
    (·.act data 4 (·.clearRegs (chCounters p)))]

def Mach.chWrite (m : Mach) (a : Nat) (data : Word) : Mach :=
  let x := (a - 0x80000) / 0x10000
  let m := m.chainSettle
  if a = Reg.CH_CTRL x then m.chCtrlWrite x data
  else if a = Reg.CH_CFG 0 then m.chCfgWrite data
  else if a = Reg.CH_CFG 1 then m.refuse Err.refusedState
  else m.plain a data

/-- A register of the Flyer that only OFF may change, with its ranges.
DEDUCED: log entry 19. -/
def Mach.flyOff (m : Mach) (a : Nat) (data : Word) (ok : Bool) : Mach :=
  m.steps [(·.keep a data (((regRow? a).map (·.rw)).getD 0) m.isOff), (·.value ok), (·.plain a data)]

def Mach.flyWrite (m : Mach) (master a : Nat) (data : Word) : Mach :=
  let _ := master
  if a = Reg.FLY_CTRL then
    m.steps [(·.keep a data 4 m.isOff), (·.plain a data), (·.act data 3 (·.withdrawStop .sw)),
      (·.act data 4 (·.stopWith .sw)),
      (·.act data 5 (·.clearRegs flyCounters))]
  else if a = Reg.FLY_CYCLE then
    let t := fieldOf data 0 7
    let r := m.steps [(·.keep a data 0x7F m.isOff), (·.value (within data 0 7 10 100 && decide (m.phaseNs < 1000 * t)))]
    if r.bad then r else m.admitTiming t (m.rd (Reg.CH_CFG 0)) (·.plain a data)
  else if a = Reg.FLY_PHASE then m.flyOff a data (decide (fieldOf data 0 17 < m.periodNs))
  else if a = Reg.FLY_LIMITS then m.flyOff a data (within data 24 8 1 255 && within data 16 8 1 64 && within data 0 14 50 10000)
  else if a = Reg.FLY_TRIM then m.flyOff a data (within data 24 8 1 255 && within data 8 3 1 4 && within data 0 3 1 4)
  else if a = Reg.FLY_HYST then m.flyOff a data (within data 16 5 1 16 && within data 8 8 1 255)
  else if a = Reg.FLY_PRECHG then
    m.flyOff a data (within data 24 8 1 16 && within data 16 8 10 255 && within data 8 8 1 5 && within data 0 8 1 255)
  else if 0xA0040 ≤ a ∧ a < 0xA0050 then
    m.steps [(·.keep a data 0xFFFFFFFF (m.role != .standby) Err.role), fun m => m.item (.flyBlock ((a - 0xA0040) / 4) data m.blockCycle)]
  else m.plain a data

/-! ## The sense block (R164, R195, R196, R296, R321) -/

/-- A register of the capture unit: no change while a capture is armed or triggered. -/
def Mach.capKeep (m : Mach) (a : Nat) (data : Word) : Mach :=
  m.keep a data (((regRow? a).map (·.rw)).getD 0) (!(m.capState == 1 || m.capState == 2))

/-- The owner of the set-point registers (R164). -/
def Mach.spOwner (m : Mach) (master : Nat) : Mach :=
  let o := m.get F.SNS_SP_OWNER_owner
  m.need (o == master) Err.notOwner o

def Mach.snsWrite (m : Mach) (master a : Nat) (data : Word) : Mach :=
  if a = Reg.SNS_CTRL then
    m.steps [(·.keep a data 6 m.isOff), (·.plain a data),
      (·.act data 4 Mach.isoAsk),
      (·.act data 5 (·.clearRegs snsCounters))]
  else if a = Reg.SNS_MODE then
    m.steps [(·.keep a data 0x19 (m.role != .standby) Err.role), (·.value (within data 3 2 0 2)),
      (·.item (.mode (BitVec.ofNat 2 (fieldOf data 3 2)) (data.getLsbD 0)))]
  else if a = Reg.SNS_ISO_LIM then m.steps [(·.value (within data 0 16 10 50000)), (·.plain a data)]
  else if a = Reg.SNS_SP_OWNER then m.lockWrite master a data
  else if a = Reg.SNS_SP_I then
    m.steps [(·.spOwner master), (·.value (decide (data.toInt.natAbs ≤ 2000000))), (·.plain a data)]
  else if a = Reg.SNS_SP_LIM ∨ a = Reg.SNS_SP_APPLY then m.steps [(·.spOwner master), (·.plain a data)]
  else if a = Reg.SNS_SP_CTRL then m.steps [(·.spOwner master), (·.plain a data), (·.act data 0 Mach.commit)]
  else if a = Reg.SNS_CAP_CTRL then
    m.steps [(·.capKeep a data), (·.value (within data 8 8 1 255)), (·.plain a data), (·.act data 1 Mach.capArm),
      (·.act data 2 Mach.capAbort)]
  else if a = Reg.SNS_CAP_TRIG then
    m.steps [(·.capKeep a data), (·.value (within data 24 4 0 14 && within data 16 4 0 6)), (·.plain a data)]
  else if a = Reg.SNS_CAP_PRE then
    m.steps [(·.capKeep a data), (·.value (decide (fieldOf data 0 24 < m.capRoom))), (·.plain a data)]
  else if a = Reg.SNS_CAP_LEVEL ∨ a = Reg.SNS_CAP_TCYC ∨ (0x1000E0 ≤ a ∧ a < 0x1000F0) then
    m.steps [(·.capKeep a data), (·.plain a data)]
  else if a = Reg.SNS_MEAS_CTRL then
    m.steps [(·.value ((within data 16 16 10 65535 || fieldOf data 16 16 == 0) && within data 8 4 1 15)), (·.plain a data),
      (·.act data 1 Mach.owNow),
      (·.act data 2 Mach.owAbort)]
  else if a = Reg.SNS_PROT_CTRL then
    m.steps [(·.plain a data), (·.act data 0 Mach.clrCause),
      (·.act data 4 (·.clearRegs protCounters))]
  else m.plain a data

/-! ## The array (R204, R211, R218, R226, R228) -/

/-- Program memory or an entry that a host changes holds the reference program no more.
DEDUCED: log entry 22. -/
def Mach.ownProgram (m : Mach) : Mach := { m with spin := { m.spin with refProg := false } }

def Mach.spnWrite (m : Mach) (a : Nat) (data : Word) : Mach :=
  let free := !m.arrayRuns
  if a = Reg.SPN_CTRL then
    m.steps [(·.keep a data 0x30 free Err.arrayRunning), (·.plain a data), (·.act data 0 Mach.spnRun),
      (·.act data 1 Mach.spnStop), (·.act data 6 Mach.spnSelftest),
      (·.act data 7 (·.clearRegs spnCounters)), (·.act data 8 Mach.trapClear)]
  else if a = Reg.SPN_ENTRY then
    m.steps [(·.keep a data 0xFFFFFFFF free Err.arrayRunning), (·.when (m.rd a != data) Mach.ownProgram), (·.plain a data)]
  else if a = Reg.SPN_PROG_LEN then
    m.steps [(·.keep a data 0x1FFFF free Err.arrayRunning), (·.value (within data 0 17 1 65536)),
      (·.when (m.changes a data 0x1FFFF) Mach.ownProgram), (·.plain a data)]
  else if a = Reg.SPN_BANK_CTRL then
    m.steps [(·.plain a data), (·.act data 1 Mach.swap),
      (·.act data 2 Mach.bankCopy),
      (·.act data 3 Mach.cancel)]
  else if a = Reg.SPN_BANK_APPLY then
    m.steps [(·.keep a data 0xFFFFFFFF (!m.flag F.SPN_BANK_STAT_pending)), (·.plain a data)]
  else if a = Reg.SPN_ST_CYC then
    m.steps [(·.keep a data 0xFFFFFFFF (m.get F.SPN_ST_STAT_result != 1)), (·.plain a data)]
  else m.plain a data

/-! ## The time base and PTP (R370, R379, R380, R383 to R385) -/

/-- A comparator's registers (R379): 0 and 1 belong to the module; the due time and period of an enabled one stay. Comparator 2
is not enabled with a period shorter than trig_width (R381).
DEDUCED: log entry 19. -/
def Mach.cmpWrite (m : Mach) (a : Nat) (data : Word) : Mach :=
  let c := (a - 0x30100) / 16
  let en := m.flag (F.TB_CMP_CTRL_en c)
  let own := fun (m : Mach) => m.need (decide (2 ≤ c)) Err.refusedState
  match a % 16 with
  | 0 =>
    let short := decide ((m.rd (Reg.TB_CMP_PER c)).toNat < m.get F.TB_PULSE_trig_width * 1000)
    m.steps [own, (·.value (!data.getLsbD 1 || m.rd (Reg.TB_CMP_PER c) != 0)),
      (·.value (!(c == 2 && data.getLsbD 0 && data.getLsbD 1 && !en && short))), (·.plain a data)]
  | 4 => m.steps [own, (·.keep a data 0xFFFFFFFF (!en)), (·.plain a data)]
  | 8 => m.steps [own, (·.keep a data 0x3FFFFFFF (!en)), (·.value (within data 0 30 0 999999999)), (·.plain a data)]
  | _ => m.steps [own, (·.keep a data 0xFFFFFFFF (!en)),
      (·.value (data != 0 || !m.flag (F.TB_CMP_CTRL_periodic c))), (·.plain a data)]

def Mach.tbWrite (m : Mach) (master a : Nat) (data : Word) : Mach :=
  let owned := fun (m : Mach) => m.need (m.timeOwned master) Err.notOwner 15
  if a = Reg.TB_CTRL then m.tbCtrlWrite data
  else if a = Reg.TB_INCR_NS then m.incrWrite master (data.setWidth 8)
  else if a = Reg.TB_ADJ_NS then m.adjWrite master data
  else if a = Reg.TB_INCR_FRAC ∨ a = Reg.TB_ADJ_SEC_LO ∨ a = Reg.TB_ADJ_SEC_HI then m.steps [owned, (·.plain a data)]
  else if a = Reg.TB_SYNC_CFG then
    m.steps [(·.value (within data 24 8 1 255 && within data 16 8 1 255 && within data 0 16 1 10000)), (·.plain a data)]
  else if a = Reg.TB_PULSE then m.steps [(·.value (within data 16 16 1 65535 && within data 0 9 1 500)), (·.plain a data)]
  else if 0x30100 ≤ a ∧ a < 0x30200 then m.cmpWrite a data
  else if 0x30200 ≤ a ∧ a < 0x30280 ∧ a % 16 = 0 then m.captureArm ((a - 0x30200) / 16) (fieldOf data 0 4)
  else m.plain a data

/-- 
DEDUCED: log entry 19. -/
def Mach.ethWrite (m : Mach) (master a : Nat) (data : Word) : Mach :=
  if a = Reg.ETH_CTRL then m.act data 0 (·.clearRegs ethCounters)
  else if a = Reg.ETH_IP_NET then
    m.steps [(·.value (data.toNat % 2 ^ (32 - m.get F.ETH_IP_CFG_prefix) == 0)), (·.plain a data)]
  else if a = Reg.ETH_IP_CFG then
    m.steps [(·.value (within data 16 16 1024 65535 && within data 0 5 16 25)), (·.plain a data)]
  else if a = Reg.ETH_POLICE_CFG then
    m.steps [(·.value (within data 24 8 1 100 && within data 16 8 1 255 && within data 8 8 1 255)), (·.plain a data)]
  else if a = Reg.ETH_SESS_CFG then m.steps [(·.value (within data 0 8 1 255)), (·.plain a data)]
  else if a = Reg.ETH_SESS_CLOSE then m.sessCloseWrite master data
  else if a = Reg.ETH_PTP_CFG then
    m.steps [(·.keep a data 0xFF0F m.isOff), (·.value (within data 8 8 0 127 && within data 0 2 0 2)), (·.plain a data)]
  else m.plain a data

/-! ## Mailboxes, operations and rings (R404, R416, R419 to R422) -/

def Mach.mbxWrite (m : Mach) (master a : Nat) (data : Word) : Mach :=
  let b := (a - 0x40000) / 256
  if a = Reg.MBX_CFG then m.steps [(·.value (within data 0 16 10 60000)), (·.plain a data)]
  else if 0x41000 ≤ a then if 0x41100 ≤ a ∧ a < 0x41140 then m.lockWrite master a data else m.plain a data
  else if a % 256 = 0 then m.mbxCtrlWrite master b (fieldOf data 24 8) (fieldOf data 8 5) (data.getLsbD 0)
  else if a % 256 = 8 then m.lockWrite master a data
  else if 0x40 ≤ a % 256 then
    match m.mbxWriteRefusal master b (m.rd a != data) with
    | some (e, k) => m.refuse e (BitVec.ofNat 32 k)
    | none => m.plain a data
  else m

def Mach.opWrite (m : Mach) (master a : Nat) (data : Word) : Mach :=
  let n := (a - 0x60000) / 128
  let own := fun (m : Mach) => match m.opNotOwner master n with
    | some (e, k) => m.refuse e (BitVec.ofNat 32 k)
    | none => m
  let still := fun mask (m : Mach) => m.need (!m.opActive n || !m.changes a data mask) Err.busy master
  if inOpWindow a then m.refuse Err.refusedState
  else if 0x60800 ≤ a then m.plain a data
  else if a % 128 = 0 then
    m.steps [own, still 0xFF0000, (·.plain a data), (·.act data 1 (·.opStart master n)), (·.act data 2 (·.opAbort master n))]
  else if a % 128 = 12 then m.lockWrite master a data
  else if a % 128 = 16 then m.opAck master n (fieldOf data 0 24)
  else if 0x40 ≤ a % 128 then m.steps [own, still 0xFFFFFFFF, (·.plain a data)]
  else m

def Mach.qWrite (m : Mach) (master a : Nat) (data : Word) : Mach :=
  let s := (a - 0x51000) / 16
  if a < 0x51000 then m
  else if a % 16 = 0 then m.streamWrite master s data
  else if a % 16 = 4 then
    let holder := m.get (F.Q_STR_CFG_session s)
    m.steps [(·.need (holder == 0 || holder == master) Err.notOwner holder),
      (·.value (decide (fieldOf data 0 8 ≤ fieldOf data 8 8))), (·.plain a data)]
  else m

/-! ## CAN ports (R423, R426, R439, R440) -/

/-- The bit timing that three words give is admitted (R426), with the ranges of R439. The bit rates are 80 MHz divided by
prescaler times quanta. -/
def timingOk (nbt dbt tdc : Word) : Bool :=
  let nq := fieldOf nbt 26 6 * (1 + fieldOf nbt 17 8 + fieldOf nbt 9 8)
  let dq := fieldOf dbt 26 6 * (1 + fieldOf dbt 20 6 + fieldOf dbt 15 5)
  let tdcOn := tdc.getLsbD 15
  within nbt 26 6 1 32 && within nbt 17 8 2 256 && within nbt 9 8 2 128 && within nbt 0 8 1 128
    && within dbt 26 6 1 32 && within dbt 20 6 1 32 && within dbt 15 5 1 16 && within dbt 10 5 1 16
    && decide (80 ≤ nq) && decide (10 ≤ dq) && decide (dq ≤ nq)
    && decide (fieldOf nbt 0 8 ≤ fieldOf nbt 9 8) && decide (fieldOf dbt 10 5 ≤ fieldOf dbt 15 5)
    && (tdcOn || decide (40 ≤ dq)) && (!tdcOn || decide (fieldOf dbt 26 6 ≤ 2))

/-- CANx_CTRL: a port that is enabled integrates before it joins the bus (R437).
DEDUCED: log entry 19. -/
def Mach.canCtrlWrite (m : Mach) (x : Nat) (data : Word) : Mach :=
  let a := Reg.CAN_CTRL x
  let was := m.flag (F.CAN_CTRL_en x)
  m.steps [(·.need (m.isOff || !was || data.getLsbD 0) Err.refusedState), (·.plain a data),
    (·.when (!was && data.getLsbD 0) (·.canJoining x)),
    (·.act data 4 (·.canRecover x)), (·.act data 5 (·.clearRegs (canCounters x)))]

/-- A message buffer of the host; MB0 and MB1 refuse every host write (R423). -/
def Mach.canBufWrite (m : Mach) (master x a : Nat) (data : Word) : Mach :=
  let b := (a - Reg.CAN_MB_CTRL x 0) / 128
  let used := m.flag (F.CAN_MB_CTRL_pending x b) || m.flag (F.CAN_MB_CTRL_full x b)
  let receives := !m.flag (F.CAN_MB_CTRL_dir x b)
  if b < 2 then m.refuse Err.refusedState
  else if a % 128 = 0 then
    m.steps [(·.keep a data 2 (!used) Err.busy), (·.plain a data), (·.act data 2 (·.off (F.CAN_MB_CTRL_pending x b))),
      (·.act data 0 (·.canResume x b)), (·.act data 3 (·.mbCommit x b)), (·.act data 4 (·.canFree master x b))]
  else if a % 128 = 4 ∨ a % 128 = 12 then
    m.steps [(·.keep a data 0xFFFFFFFF (!(used && receives)) Err.busy), (·.plain a data)]
  else m.plain a data

/-- 
DEDUCED: log entry 19. -/
def Mach.canWrite (m : Mach) (master a : Nat) (data : Word) : Mach :=
  let x := (a - 0xD0000) / 0x10000
  let timing := fun mask nbt dbt tdc => m.steps [(·.keep a data mask (!m.flag (F.CAN_CTRL_en x))),
    (·.value (timingOk nbt dbt tdc)), (·.plain a data)]
  let n := m.rd (Reg.CAN_NBT x)
  let d := m.rd (Reg.CAN_DBT x)
  let t := m.rd (Reg.CAN_TDC x)
  if a = Reg.CAN_CTRL x then m.canCtrlWrite x data
  else if a = Reg.CAN_NBT x then timing 0xFFFFFEFF data d t
  else if a = Reg.CAN_DBT x then timing 0xFFFFFC00 n data t
  else if a = Reg.CAN_TDC x then timing 0xFF7F n d data
  else if a = Reg.CAN_FIFO_ID x ∨ a = Reg.CAN_FIFO_MASK x then
    m.steps [(·.keep a data 0xFFFFFFFF (decide ((m.canPort x).fifo.length < 51)) Err.busy), (·.plain a data)]
  else if a = Reg.CAN_FIFO_CTRL x then m.act data 0 (·.canPop x)
  else if Reg.CAN_MB_CTRL x 0 ≤ a then m.canBufWrite master x a data
  else m.plain a data

/-! ## The other blocks -/

def Mach.pwrWrite (m : Mach) (master a : Nat) (data : Word) : Mach :=
  if a = Reg.PWR_PD_CTRL then m.pdWrite master (data.setWidth 10)
  else if a = Reg.PWR_CTRL then m.act data 0 (·.clearRegs pwrCounters)
  else if a = Reg.PWR_RESET_CTRL then m.resetCtrlWrite master data
  else m.plain a data

def Mach.xlWrite (m : Mach) (a : Nat) (data : Word) : Mach :=
  if a = Reg.XL_CFG then
    m.steps [(·.keep a data 0xFF000003 m.isOff), (·.value (within data 24 8 10 200)), (·.plain a data)]
  else if a = Reg.XL_CTRL then
    m.steps [(·.act data 0 Mach.handoverAsk), (·.act data 1 Mach.resyncAsk), (·.act data 2 Mach.xlClear)]
  else m.plain a data

/-- 
DEDUCED: log entry 19. -/
def Mach.safWrite (m : Mach) (master a : Nat) (data : Word) : Mach :=
  if a = Reg.SAF_KEY then m.keyWrite master data
  else if 0xF0100 ≤ a then
    m.steps [(·.need (master == 15) Err.notOwner 15), (·.keep a data 0xFFFFFFFF m.paramTime), (·.plain a data)]
  else m.plain a data

def Mach.memWrite (m : Mach) (a : Nat) (data : Word) : Mach :=
  if a = Reg.MEM_CTRL then m.act data 0 Mach.memClear
  else if a = Reg.MEM_SCRUB_CFG then m.steps [(·.value (within data 0 12 1 3600)), (·.plain a data)]
  else if 0x70400 ≤ a then m.remapWrite ((a - 0x70400) / 32) ((a - 0x70400) % 32 / 4) data
  else m.plain a data

def Mach.mgtWrite (m : Mach) (master a : Nat) (data : Word) : Mach :=
  if a = Reg.MGT_UPD_CFG then m.steps [(·.value (within data 0 11 1 1440)), (·.plain a data)]
  else if 0x118000 ≤ a then
    m.steps [(·.need (m.mgmt.updOwner == master) Err.notOwner m.mgmt.updOwner), (·.plain a data)]
  else m.plain a data

/-! ## Memory writes (R207, R209, R211, R447, R481) -/

/-- What refuses a host write to a memory.
DEDUCED: log entry 20. -/
def Mach.memoryRefusal (m : Mach) (a : Nat) : Option (BitVec 16) :=
  let shadow := decide (m.shadowBase ≤ a ∧ a < m.shadowBase + 0x10000)
  if inProgMem a || inLaneMem a then
    if m.arrayRuns then some Err.arrayRunning
    else if m.lifeCycle ≠ .manufacture ∧ m.lifeCycle ≠ .service then some Err.lifeCycle else none
  else if inBanks a then
    if shadow then
      if m.role = .standby then some Err.role else if m.shadowLocked then some Err.locked else none
    else if m.arrayRuns then some Err.arrayRunning else none
  else if a < skeinBase then some Err.refusedState
  else none

/-- A word of the shadow bank goes to the standby too (R358). -/
def Mach.bankMirror (m : Mach) (a : Nat) (w : Word) : Mach :=
  if m.shadowBase ≤ a ∧ a < m.shadowBase + 0x10000 then m.item (.bankWrite (a - m.shadowBase) w) else m

/-- One word: a partial write (R445), abandoned where the code word is poisoned. -/
def Mach.memoryWrite (m : Mach) (a : Nat) (data : Word) : Mach :=
  match m.memoryRefusal a with
  | some e => m.refuse e
  | none =>
    let m := m.mergeMeet a Agent.host
    if m.poisoned a then (m.abandonWrite Agent.host a).refuse Err.poison
    else ((m.storeWord a data).when (inProgMem a) Mach.ownProgram).bankMirror a data

/-- Both halves of a code word, one after the other in one operation: a full write (R445). -/
def Mach.memoryWrite2 (m : Mach) (a : Nat) (w0 w1 : Word) : Mach :=
  match m.memoryRefusal a with
  | some e => m.refuse e
  | none => (((m.storeFull a [w0, w1]).when (inProgMem a) Mach.ownProgram).bankMirror a w0).bankMirror (a + 4) w1

/-! ## One write -/

/-- The write rules of the block that an address lies in. -/
def Mach.blockWrite (m : Mach) (master a : Nat) (data : Word) : Mach :=
  if 0x1000000 ≤ a then m.spnWrite a data
  else match a / 0x10000 with
    | 0x02 => m.pwrWrite master a data
    | 0x03 => m.tbWrite master a data
    | 0x04 => m.mbxWrite master a data
    | 0x05 => m.qWrite master a data
    | 0x06 => m.opWrite master a data
    | 0x07 => m.memWrite a data
    | 0x08 => m.chWrite a data
    | 0x09 => m.chWrite a data
    | 0x0A => m.flyWrite master a data
    | 0x0B => m.xlWrite a data
    | 0x0C => m.ethWrite master a data
    | 0x0D => m.canWrite master a data
    | 0x0E => m.canWrite master a data
    | 0x0F => m.safWrite master a data
    | 0x10 => m.snsWrite master a data
    | 0x11 => m.mgtWrite master a data
    | _ => m.plain a data

/-- A write of one word by a master (R10, R402).
DESIGN CHOICE: log entry 17. -/
def Mach.hostWrite (m : Mach) (master a : Nat) (data : Word) : Mach :=
  match m.addressRefusal a with
  | some e => m.refuse e
  | none => (m.access a fun m => if inMemory a then m.memoryWrite a data else m.blockWrite master a data).irqSettle

/-- REGISTER_WRITE (R10). -/
def execRegisterWrite (master addr : Nat) (data : Word) (s : State) : Host.Outcome State Fault Refusal :=
  eff s (s.mach.hostWrite master addr data)

/-- LOCK_READ (R403): a single-word read. -/
def execLockRead (master addr : Nat) (s : State) : Host.Outcome State Fault Refusal :=
  eff s (s.mach.hostRead master addr true)

/-- LOCK_RELEASE (R403): a write of 0. -/
def execLockRelease (master addr : Nat) (s : State) : Host.Outcome State Fault Refusal :=
  eff s (s.mach.hostWrite master addr 0)

/-- LATCHING_READ (R9). -/
def execLatchingRead (master addr : Nat) (s : State) : Host.Outcome State Fault Refusal :=
  eff s (s.mach.hostRead master addr true)

/-- CAPTURE_NS_READ (R380). -/
def execCaptureNsRead (master : Nat) (u : BitVec 3) (s : State) : Host.Outcome State Fault Refusal :=
  eff s (s.mach.hostRead master (Reg.TB_CAP_NS u.toNat) true)

/-! ## REQUEST (R397 to R399) -/

/-- The result of the last access, for an operation that stopped at word `i`: a failure at the first word names its own aux
and returns no data; at a later word aux is the index. -/
def stopped (m : Mach) (i : Nat) (ws : List Word) : AccessResult :=
  if i = 0 then ⟨m.answer.1, m.answer.2.1.setWidth 16, []⟩ else ⟨m.answer.1, BitVec.ofNat 16 i, ws⟩

/-- Read `n` words from word `i` of an operation on. -/
def Mach.readWords (m : Mach) (master a : Nat) (single : Bool) : Nat → Nat → List Word → Mach × AccessResult
  | 0, _, ws => (m, ⟨Err.ok, 0, ws⟩)
  | n + 1, i, ws =>
    let m := m.hostRead master (a + 4 * i) single
    if m.bad then (m, stopped m i ws) else m.readWords master a single n (i + 1) (ws ++ m.answer.2.2)

/-- The two next words of a write operation cover a code word of memory (R445). -/
def pairWrite (a : Nat) : List Word → Option (Word × Word)
  | w0 :: w1 :: _ => if inMemory a && a % 8 == 0 then some (w0, w1) else none
  | _ => none

/-- Write words from word `i` of an operation on; `done` says that this word was written with the one before. -/
def Mach.writeWords (m : Mach) (master a : Nat) : List Word → Nat → Bool → Mach × AccessResult
  | [], _, _ => (m, ⟨Err.ok, 0, []⟩)
  | w :: ws, i, done =>
    let at0 := a + 4 * i
    if done then m.writeWords master a ws (i + 1) false
    else
      let pair := pairWrite at0 (w :: ws)
      let m := match pair, m.addressRefusal at0 with
        | some (w0, w1), none => m.access at0 (·.memoryWrite2 at0 w0 w1)
        | _, _ => m.hostWrite master at0 w
      if m.bad then (m, stopped m i []) else m.writeWords master a ws (i + 1) pair.isSome

/-- One access operation. A length that is no multiple of 4, not 4 to 1024, or that brings the request's total of its kind
above 1024 bytes is answered ALIGN. -/
def Mach.accessOp (m : Mach) (master total : Nat) : AccessOp → Mach × AccessResult
  | .read a n =>
    if !assigned (a / 4 * 4) then (m, ⟨Err.badAddress, 0, []⟩)
    else if n < 4 ∨ n % 4 ≠ 0 ∨ 1024 < total + n then (m, ⟨Err.align, 0, []⟩)
    else m.readWords master a (n == 4) (n / 4) 0 []
  | .write a bs =>
    if !assigned (a / 4 * 4) then (m, ⟨Err.badAddress, 0, []⟩)
    else if bs.length < 4 ∨ bs.length % 4 ≠ 0 ∨ 1024 < total + bs.length then (m, ⟨Err.align, 0, []⟩)
    else m.writeWords master a (bytesWords bs) 0 false

/-- The bytes that an operation reads and writes. -/
def opBytes : AccessOp → Nat × Nat
  | .read _ n => (n, 0)
  | .write _ bs => (0, bs.length)

/-- The operations of a request in order; with stop_on_error those after the first failure are not executed.
DEDUCED: log entry 20. -/
def Mach.accessOps (m : Mach) (master : Nat) (stop failed : Bool) (rd wr : Nat) :
    List AccessOp → Mach × List AccessResult
  | [] => (m, [])
  | op :: rest =>
    let (r, w) := opBytes op
    let (m, x) := if stop && failed then (m, (⟨Err.notExecuted, 0, []⟩ : AccessResult))
      else m.accessOp master (match op with | .read _ _ => rd | .write _ _ => wr) op
    let (m, xs) := m.accessOps master stop (failed || x.status != 0) (rd + r) (wr + w) rest
    (m, x :: xs)

/-- Execute a new request, answer it and keep the answer; a session that it closed gets none. -/
def Mach.requestRun (m : Mach) (x : Nat) (bytes : List Byte) (q : DareriReq) : Mach :=
  let (m, rs) := m.accessOps x q.stopOnError false 0 0 q.ops
  if m.sessionOpen x then
    (m.onSession x fun z => { z with cache := ((bytes, rs) :: z.cache).take 16 }).send (.dareri x (responseMsg q.tag false rs))
  else m

/-- A REQUEST that came into the session's receive ring: one with a kept tag is not executed again (R399). -/
def Mach.requestTake (m : Mach) (x : Nat) (z : Session) (bytes : List Byte) (q : DareriReq) : Mach :=
  match z.cache.find? fun k => (dareriOf k.1).any (·.tag == q.tag) with
  | some (k, rs) =>
    if k = bytes then m.send (.dareri x (responseMsg q.tag true rs))
    else m.send (.dareri x (responseMsg q.tag false (q.ops.map fun _ => ⟨Err.duplicateTag, 0, []⟩)))
  | none => m.requestRun x bytes q

/-- A record of session `x`: one that does not authenticate is discarded (R394); an authentic one holds a REQUEST, a TELEGRAM or a
KEEPALIVE, and every other message is discarded (R396); a REQUEST that finds the receive ring full is dropped (R399).
DEDUCED: log entry 20. -/
def Mach.recordRx (m : Mach) (x : Nat) (bytes : List Byte) (authentic ringFull : Bool) : Mach :=
  match m.session x with
  | none => m
  | some z =>
    if !authentic then m.count Reg.ETH_CNT_BAD_REC
    else
      let m := m.recordSeen x
      match dareriOf bytes with
      | none => m.count Reg.ETH_CNT_BAD_MSG
      | some d =>
        if d.kind = Dareri.keepalive ∧ d.body = [] then m.keepaliveRx x
        else if d.kind = Dareri.telegram ∧ d.body.length = 32 then m.telegramFrom x d.body
        else match d.asRequest with
          | none => m.count Reg.ETH_CNT_BAD_MSG
          | some q =>
            if ringFull then (m.count Reg.ETH_CNT_REQ_DROP).when (x ≤ 8) (·.count (Reg.Q_CNT_DROP (x - 1)))
            else m.requestTake x z bytes q

/-- REQUEST (R398). -/
def execRequest (x : Nat) (bytes : List Byte) (authentic ringFull : Bool) (s : State) : Host.Outcome State Fault Refusal :=
  eff s (s.mach.when (s.mach.domOn (if x = 13 then .svc else .host)) (·.recordRx x bytes authentic ringFull))

end Sys2Proof.Machine
end

