-- ==== Sys2Proof/Machine/VectorOps.lean ====
section
/-!
DEFINITION. Vector arithmetic with vector and scalar operands (R246, R247), the table sine (R248), and integer lane
operations (R249).
-/

namespace Sys2Proof.Machine

/-- An exact result without flags. -/
def unflagged (x : Dy) : PlyRes := (x, LaneFlags.none)

/-- Division (R213): by zero gives the largest magnitude with the dividend's sign, 0 for 0 / 0, and sets dz. The largest
magnitude is the largest that a lane can hold, (2^23 − 1) × 2^127. -/
def divRes (a b : Dy) : PlyRes :=
  if b.n = 0 then
    ((if a.n = 0 then Dy.zero else if a.n < 0 then ⟨-mantMax, 127⟩ else ⟨mantMax, 127⟩), LaneFlags.dzOnly)
  else unflagged (a.div b)

/-- Square root (R213): 0 and inv for a negative value. -/
def sqrtRes (a : Dy) : PlyRes := if a.n < 0 then (Dy.zero, LaneFlags.invOnly) else unflagged a.sqrt

/-- A vector instruction of two vector operands: `f old a b` per ply. -/
def Mach.vector2 (m : Mach) (d a b : VReg) (mask : MReg) (lat : Nat) (f : Dy → Dy → Dy → PlyRes) : Mach :=
  m.relud (.mk1 [resV a, resV b, resM mask] [resV d] lat) fun m _ => m.vwrite d fun n =>
    writeArith (m.mreg mask n) (m.vreg d n) fun j => f ((m.vreg d n).val j) ((m.vreg a n).val j) ((m.vreg b n).val j)

/-- The same with no flags. -/
def Mach.vector2q (m : Mach) (d a b : VReg) (mask : MReg) (lat : Nat) (f : Dy → Dy → Dy → Dy) : Mach :=
  m.relud (.mk1 [resV a, resV b, resM mask] [resV d] lat) fun m _ => m.vwrite d fun n =>
    writeQuiet (m.mreg mask n) (m.vreg d n) fun j => f ((m.vreg d n).val j) ((m.vreg a n).val j) ((m.vreg b n).val j)

/-- A vector instruction with a scalar second operand, the BFP word S_B in every ply (R247). -/
def Mach.vectorS (m : Mach) (d a : VReg) (b : SReg) (mask : MReg) (lat : Nat) (f : Dy → Dy → Dy → PlyRes) : Mach :=
  m.relud (.mk1 [resV a, resS b, resM mask] [resV d] lat) fun m _ => m.vwrite d fun n =>
    writeArith (m.mreg mask n) (m.vreg d n) fun j => f ((m.vreg d n).val j) ((m.vreg a n).val j) (bfpVal (m.sreg b))

/-- The same with no flags. -/
def Mach.vectorSq (m : Mach) (d a : VReg) (b : SReg) (mask : MReg) (lat : Nat) (f : Dy → Dy → Dy → Dy) : Mach :=
  m.relud (.mk1 [resV a, resS b, resM mask] [resV d] lat) fun m _ => m.vwrite d fun n =>
    writeQuiet (m.mreg mask n) (m.vreg d n) fun j => f ((m.vreg d n).val j) ((m.vreg a n).val j) (bfpVal (m.sreg b))

/-- A vector instruction of one operand. -/
def Mach.vector1 (m : Mach) (d a : VReg) (mask : MReg) (lat : Nat) (f : Dy → PlyRes) : Mach :=
  m.relud (.mk1 [resV a, resM mask] [resV d] lat) fun m _ => m.vwrite d fun n =>
    writeArith (m.mreg mask n) (m.vreg d n) fun j => f ((m.vreg a n).val j)

/-- The same with no flags. -/
def Mach.vector1q (m : Mach) (d a : VReg) (mask : MReg) (lat : Nat) (f : Dy → Dy) : Mach :=
  m.relud (.mk1 [resV a, resM mask] [resV d] lat) fun m _ => m.vwrite d fun n =>
    writeQuiet (m.mreg mask n) (m.vreg d n) fun j => f ((m.vreg a n).val j)

/-- A vector instruction of one operand whose table gives it the flag ovf alone. -/
def Mach.vector1o (m : Mach) (d a : VReg) (mask : MReg) (lat : Nat) (f : Dy → Dy) : Mach :=
  m.relud (.mk1 [resV a, resM mask] [resV d] lat) fun m _ => m.vwrite d fun n =>
    let r := writeArith (m.mreg mask n) (m.vreg d n) fun j => unflagged (f ((m.vreg a n).val j))
    (r.1, { LaneFlags.none with ovf := r.2.ovf })

/-- VADD (R246). -/
def execVadd (d a b : VReg) (mask : MReg) (s : State) : Host.Outcome State Fault Refusal :=
  eff s (s.mach.vector2 d a b mask 3 fun _ a b => unflagged (a.add b))

/-- VSUB (R246). -/
def execVsub (d a b : VReg) (mask : MReg) (s : State) : Host.Outcome State Fault Refusal :=
  eff s (s.mach.vector2 d a b mask 3 fun _ a b => unflagged (a.sub b))

/-- VMUL (R246). -/
def execVmul (d a b : VReg) (mask : MReg) (s : State) : Host.Outcome State Fault Refusal :=
  eff s (s.mach.vector2 d a b mask 4 fun _ a b => unflagged (a.mul b))

/-- VMAC (R246). -/
def execVmac (d a b : VReg) (mask : MReg) (s : State) : Host.Outcome State Fault Refusal :=
  eff s (s.mach.vector2 d a b mask 4 fun d a b => unflagged (d.add (a.mul b)))

/-- VMSB (R246). -/
def execVmsb (d a b : VReg) (mask : MReg) (s : State) : Host.Outcome State Fault Refusal :=
  eff s (s.mach.vector2 d a b mask 4 fun d a b => unflagged (d.sub (a.mul b)))

/-- VDIV (R246). -/
def execVdiv (d a b : VReg) (mask : MReg) (s : State) : Host.Outcome State Fault Refusal :=
  eff s (s.mach.vector2 d a b mask 14 fun _ a b => divRes a b)

/-- VMIN (R246). -/
def execVmin (d a b : VReg) (mask : MReg) (s : State) : Host.Outcome State Fault Refusal :=
  eff s (s.mach.vector2q d a b mask 3 fun _ a b => a.min b)

/-- VMAX (R246). -/
def execVmax (d a b : VReg) (mask : MReg) (s : State) : Host.Outcome State Fault Refusal :=
  eff s (s.mach.vector2q d a b mask 3 fun _ a b => a.max b)

/-- VCLMP (R246). -/
def execVclmp (d a b : VReg) (mask : MReg) (s : State) : Host.Outcome State Fault Refusal :=
  eff s (s.mach.vector2q d a b mask 3 fun d a b => (d.max a).min b)

/-- VSQRT (R246). -/
def execVsqrt (d a : VReg) (mask : MReg) (s : State) : Host.Outcome State Fault Refusal :=
  eff s (s.mach.vector1 d a mask 14 fun a => sqrtRes a)

/-- VABS (R246). -/
def execVabs (d a : VReg) (mask : MReg) (s : State) : Host.Outcome State Fault Refusal :=
  eff s (s.mach.vector1o d a mask 3 Dy.abs)

/-- VNEG (R246). -/
def execVneg (d a : VReg) (mask : MReg) (s : State) : Host.Outcome State Fault Refusal :=
  eff s (s.mach.vector1o d a mask 3 Dy.neg)

/-- VSIN (R246). -/
def execVsin (d a : VReg) (mask : MReg) (s : State) : Host.Outcome State Fault Refusal :=
  eff s (s.mach.vector1q d a mask 8 fun a => a.sinTurns)

/-- VCOS (R246). -/
def execVcos (d a : VReg) (mask : MReg) (s : State) : Host.Outcome State Fault Refusal :=
  eff s (s.mach.vector1q d a mask 8 fun a => (a.add ⟨1, -2⟩).sinTurns)

/-- VMOV (R246, R236): a whole lane, exponent included. -/
def execVmov (d a : VReg) (mask : MReg) (s : State) : Host.Outcome State Fault Refusal :=
  eff s (s.mach.run (.mk1 [resV a, resM mask] [resV d] 2) fun m =>
    m.setV d fun n => moveLane (m.mreg mask n) (m.vreg a n) (m.vreg d n))

/-- VCVTIF (R246): the mantissa as an integer, normalised. -/
def execVcvtif (d a : VReg) (mask : MReg) (s : State) : Host.Outcome State Fault Refusal :=
  eff s (s.mach.relud (.mk1 [resV a, resM mask] [resV d] 3) fun m _ => m.vwrite d fun n =>
    writeQuiet (m.mreg mask n) (m.vreg d n) fun j => Dy.ofInt ((m.vreg a n).m[j]?.getD 0).toInt)

/-- The integer value of a ply in integer form, and whether it saturates (VCVTFI). -/
def clampedInt (x : Dy) : Mant × Bool :=
  let v := x.roundAt 0
  (BitVec.ofInt 24 (clampInt mantMax v), decide (mantMax < v.natAbs))

/-- VCVTFI (R246): integer form, ovf when it saturates. -/
def execVcvtfi (d a : VReg) (mask : MReg) (s : State) : Host.Outcome State Fault Refusal :=
  eff s (s.mach.relud (.mk1 [resV a, resM mask] [resV d] 3) fun m _ => m.vwrite d fun n =>
    let k := m.mreg mask n
    let r := fun j => clampedInt ((m.vreg a n).val j)
    (writeInt k (m.vreg d n) fun j => (r j).1,
     { LaneFlags.none with ovf := (List.range 8).any fun j => k.getLsbD j && (r j).2 }))

/-- VSCL (R246): a times 2^S_B, S_B signed. -/
def execVscl (d a : VReg) (b : SReg) (mask : MReg) (s : State) : Host.Outcome State Fault Refusal :=
  eff s (s.mach.relud (.mk1 [resV a, resS b, resM mask] [resV d] 2) fun m _ => m.vwrite d fun n =>
    writeArith (m.mreg mask n) (m.vreg d n) fun j =>
      let x := (m.vreg a n).val j
      unflagged ⟨x.n, x.k + (m.sreg b).toInt⟩)

/-- VADDS (R247). -/
def execVadds (d a : VReg) (b : SReg) (mask : MReg) (s : State) : Host.Outcome State Fault Refusal :=
  eff s (s.mach.vectorS d a b mask 3 fun _ a b => unflagged (a.add b))

/-- VSUBS (R247). -/
def execVsubs (d a : VReg) (b : SReg) (mask : MReg) (s : State) : Host.Outcome State Fault Refusal :=
  eff s (s.mach.vectorS d a b mask 3 fun _ a b => unflagged (a.sub b))

/-- VMULS (R247). -/
def execVmuls (d a : VReg) (b : SReg) (mask : MReg) (s : State) : Host.Outcome State Fault Refusal :=
  eff s (s.mach.vectorS d a b mask 4 fun _ a b => unflagged (a.mul b))

/-- VMACS (R247). -/
def execVmacs (d a : VReg) (b : SReg) (mask : MReg) (s : State) : Host.Outcome State Fault Refusal :=
  eff s (s.mach.vectorS d a b mask 4 fun d a b => unflagged (d.add (a.mul b)))

/-- VMSBS (R247). -/
def execVmsbs (d a : VReg) (b : SReg) (mask : MReg) (s : State) : Host.Outcome State Fault Refusal :=
  eff s (s.mach.vectorS d a b mask 4 fun d a b => unflagged (d.sub (a.mul b)))

/-- VDIVS (R247). -/
def execVdivs (d a : VReg) (b : SReg) (mask : MReg) (s : State) : Host.Outcome State Fault Refusal :=
  eff s (s.mach.vectorS d a b mask 14 fun _ a b => divRes a b)

/-- VMINS (R247). -/
def execVmins (d a : VReg) (b : SReg) (mask : MReg) (s : State) : Host.Outcome State Fault Refusal :=
  eff s (s.mach.vectorSq d a b mask 3 fun _ a b => a.min b)

/-- VMAXS (R247). -/
def execVmaxs (d a : VReg) (b : SReg) (mask : MReg) (s : State) : Host.Outcome State Fault Refusal :=
  eff s (s.mach.vectorSq d a b mask 3 fun _ a b => a.max b)

/-- An integer lane operation on mantissas (R215, R249). -/
def Mach.integer2 (m : Mach) (d a b : VReg) (mask : MReg) (f : Mant → Mant → Mant) : Mach :=
  m.run (.mk1 [resV a, resV b, resM mask] [resV d] 2) fun m => m.setV d fun n =>
    writeInt (m.mreg mask n) (m.vreg d n) fun j => f ((m.vreg a n).m[j]?.getD 0) ((m.vreg b n).m[j]?.getD 0)

/-- The shift amount of an integer lane operation: five bits. -/
def laneShift (b : Mant) : Nat := b.toNat % 32

/-- IADD (R249). -/
def execIadd (d a b : VReg) (mask : MReg) (s : State) : Host.Outcome State Fault Refusal :=
  eff s (s.mach.integer2 d a b mask fun a b => a + b)

/-- ISUB (R249). -/
def execIsub (d a b : VReg) (mask : MReg) (s : State) : Host.Outcome State Fault Refusal :=
  eff s (s.mach.integer2 d a b mask fun a b => a - b)

/-- IAND (R249). -/
def execIand (d a b : VReg) (mask : MReg) (s : State) : Host.Outcome State Fault Refusal :=
  eff s (s.mach.integer2 d a b mask fun a b => a &&& b)

/-- IOR (R249). -/
def execIor (d a b : VReg) (mask : MReg) (s : State) : Host.Outcome State Fault Refusal :=
  eff s (s.mach.integer2 d a b mask fun a b => a ||| b)

/-- IXOR (R249). -/
def execIxor (d a b : VReg) (mask : MReg) (s : State) : Host.Outcome State Fault Refusal :=
  eff s (s.mach.integer2 d a b mask fun a b => a ^^^ b)

/-- ISHL (R249). -/
def execIshl (d a b : VReg) (mask : MReg) (s : State) : Host.Outcome State Fault Refusal :=
  eff s (s.mach.integer2 d a b mask fun a b => a <<< laneShift b)

/-- ISHR (R249). -/
def execIshr (d a b : VReg) (mask : MReg) (s : State) : Host.Outcome State Fault Refusal :=
  eff s (s.mach.integer2 d a b mask fun a b => a >>> laneShift b)

/-- ISAR (R249). -/
def execIsar (d a b : VReg) (mask : MReg) (s : State) : Host.Outcome State Fault Refusal :=
  eff s (s.mach.integer2 d a b mask fun a b => a.sshiftRight (laneShift b))

/-- IMUL (R249). -/
def execImul (d a b : VReg) (mask : MReg) (s : State) : Host.Outcome State Fault Refusal :=
  eff s (s.mach.integer2 d a b mask fun a b => a * b)

/-- IMIN (R249). -/
def execImin (d a b : VReg) (mask : MReg) (s : State) : Host.Outcome State Fault Refusal :=
  eff s (s.mach.integer2 d a b mask fun a b => if b.slt a then b else a)

/-- IMAX (R249). -/
def execImax (d a b : VReg) (mask : MReg) (s : State) : Host.Outcome State Fault Refusal :=
  eff s (s.mach.integer2 d a b mask fun a b => if a.slt b then b else a)

end Sys2Proof.Machine
end

