-- ==== Sys2Proof/Machine/CrossLane.lean ====
section
/-!
DEFINITION. Cross-lane instructions (R252) and ply instructions (R253).
-/

namespace Sys2Proof.Machine

/-- A lane that holds `x` in ply `k` and zero in the others, normalised. -/
def plyLane (k : Nat) (x : Dy) : Lane × LaneFlags :=
  normalise ((List.range 8).map fun j => if j = k then x else Dy.zero)

/-- A lane in integer form that holds `v` in ply `k`. -/
def plyInt (k : Nat) (v : Nat) : Lane := ⟨Vector.ofFn fun j => if j.val = k then BitVec.ofNat 24 v else 0, 0⟩

/-- The keys of the lanes that take part, as (lane, key). -/
def Mach.takers (m : Mach) (a : VReg) (k : Nat) (mask : MReg) : List (Nat × Dy) :=
  ((List.range 128).filter fun n => (m.mreg mask n).getLsbD k).map fun n => (n, (m.vreg a n).val k)

/-- The rank of a lane among those that take part: the larger key first, ties to the lower lane; 128 for a lane that
takes no part. -/
def rankOf (ts : List (Nat × Dy)) (n : Nat) : Nat :=
  match ts.find? (·.1 == n) with
  | none => 128
  | some (_, key) => (ts.filter fun t => key.lt t.2 || (key.eq t.2 && decide (t.1 < n))).length

/-- The lane of rank `r`, or 255 past the count. -/
def orderOf (ts : List (Nat × Dy)) (r : Nat) : Nat := ((ts.find? fun t => rankOf ts t.1 == r).map (·.1)).getD 255

/-- A cross-lane instruction that writes the same lane everywhere, with the flags of each. -/
def Mach.cross (m : Mach) (d a : VReg) (k : PlyIx) (mask : MReg) (lat : Nat)
    (f : List (Nat × Dy) → Nat → Lane × LaneFlags) : Mach :=
  m.relud (.mk1 [resV a, resM mask] [resV d] lat) fun m _ => m.vwrite d (f (m.takers a k.toNat mask))

/-- RANK (R252). -/
def execRank (d a : VReg) (k : PlyIx) (mask : MReg) (s : State) : Host.Outcome State Fault Refusal :=
  eff s (s.mach.cross d a k mask 12 fun ts n => (plyInt k.toNat (rankOf ts n), LaneFlags.none))

/-- ORDER (R252). -/
def execOrder (d a : VReg) (k : PlyIx) (mask : MReg) (s : State) : Host.Outcome State Fault Refusal :=
  eff s (s.mach.cross d a k mask 12 fun ts n => (plyInt k.toNat (orderOf ts n), LaneFlags.none))

/-- REDSUM (R252): one exact sum, rounded once. -/
def execRedsum (d a : VReg) (k : PlyIx) (mask : MReg) (s : State) : Host.Outcome State Fault Refusal :=
  eff s (s.mach.cross d a k mask 8 fun ts _ => plyLane k.toNat (Dy.sum (ts.map (·.2))))

/-- The taker whose key no other exceeds by the order given, the lowest lane first. -/
def bestOf (better : Dy → Dy → Bool) : List (Nat × Dy) → Option (Nat × Dy)
  | [] => none
  | t :: ts => some (ts.foldl (fun b x => if better x.2 b.2 then x else b) t)

/-- The best key in every lane; canonical zero if no lane takes part. -/
def bestLane (k : Nat) (better : Dy → Dy → Bool) (ts : List (Nat × Dy)) : Lane × LaneFlags :=
  match bestOf better ts with
  | none => (Lane.zero, LaneFlags.none)
  | some t => ((plyLane k t.2).1, LaneFlags.none)

/-- The lane of the best key; 255 if none. -/
def bestIndex (k : Nat) (better : Dy → Dy → Bool) (ts : List (Nat × Dy)) : Lane × LaneFlags :=
  (plyInt k (((bestOf better ts).map (·.1)).getD 255), LaneFlags.none)

/-- REDMAX (R252). -/
def execRedmax (d a : VReg) (k : PlyIx) (mask : MReg) (s : State) : Host.Outcome State Fault Refusal :=
  eff s (s.mach.cross d a k mask 6 fun ts _ => bestLane k.toNat (fun x y => y.lt x) ts)

/-- REDMIN (R252). -/
def execRedmin (d a : VReg) (k : PlyIx) (mask : MReg) (s : State) : Host.Outcome State Fault Refusal :=
  eff s (s.mach.cross d a k mask 6 fun ts _ => bestLane k.toNat (fun x y => x.lt y) ts)

/-- ARGMAX (R252). -/
def execArgmax (d a : VReg) (k : PlyIx) (mask : MReg) (s : State) : Host.Outcome State Fault Refusal :=
  eff s (s.mach.cross d a k mask 6 fun ts _ => bestIndex k.toNat (fun x y => y.lt x) ts)

/-- ARGMIN (R252). -/
def execArgmin (d a : VReg) (k : PlyIx) (mask : MReg) (s : State) : Host.Outcome State Fault Refusal :=
  eff s (s.mach.cross d a k mask 6 fun ts _ => bestIndex k.toNat (fun x y => x.lt y) ts)

/-- PFX (R252): the exact prefix sums, each rounded once. -/
def execPfx (d a : VReg) (k : PlyIx) (mask : MReg) (s : State) : Host.Outcome State Fault Refusal :=
  eff s (s.mach.cross d a k mask 10 fun ts n => plyLane k.toNat (Dy.sum ((ts.filter fun t => t.1 ≤ n).map (·.2))))

/-- A whole-lane move: each lane takes a lane of Va, or canonical zero (R236, R252). -/
def Mach.moveLanes (m : Mach) (d a : VReg) (from' : Nat → Option Nat) : Mach :=
  m.setV d fun n => match from' n with
    | some x => m.vreg a x
    | none => Lane.zero

/-- BCAST (R252). -/
def execBcast (d a : VReg) (b : SReg) (s : State) : Host.Outcome State Fault Refusal :=
  eff s (s.mach.run (.mk1 [resV a, resS b] [resV d] 3) fun m =>
    m.moveLanes d a fun _ => if (m.sreg b).toNat < 128 then some (m.sreg b).toNat else none)

/-- A lane index if it lies in 0 to 127. -/
def laneIx (x : Int) : Option Nat := if 0 ≤ x ∧ x < 128 then some x.toNat else none

/-- NBR (R252). -/
def execNbr (d a : VReg) (b : SReg) (s : State) : Host.Outcome State Fault Refusal :=
  eff s (s.mach.run (.mk1 [resV a, resS b] [resV d] 3) fun m =>
    m.moveLanes d a fun n => laneIx (n + (m.sreg b).toInt))

/-- GATHER (R252). -/
def execGather (d a b : VReg) (k : PlyIx) (s : State) : Host.Outcome State Fault Refusal :=
  eff s (s.mach.run (.mk1 [resV a, resV b] [resV d] 5) fun m =>
    m.moveLanes d a fun n => laneIx ((m.vreg b n).val k.toNat).toInt32)

/-! ## Ply instructions (R253) -/

/-- The exact values of the ply that a mask selects. -/
def selected (mask : BitVec 8) (f : Nat → Dy) : List Dy := ((List.range 8).filter mask.getLsbD).map f

/-- PSUM (R253). -/
def execPsum (d a : VReg) (k : PlyIx) (mask : MReg) (s : State) : Host.Outcome State Fault Refusal :=
  eff s (s.mach.relud (.mk1 [resV a, resM mask] [resV d] 4) fun m _ => m.vwrite d fun n =>
    plyLane k.toNat (Dy.sum (selected (m.mreg mask n) (m.vreg a n).val)))

/-- PDOT (R253): one rounding. -/
def execPdot (d a b : VReg) (k : PlyIx) (mask : MReg) (s : State) : Host.Outcome State Fault Refusal :=
  eff s (s.mach.relud (.mk1 [resV a, resV b, resM mask] [resV d] 5) fun m _ => m.vwrite d fun n =>
    plyLane k.toNat (Dy.sum (selected (m.mreg mask n) fun j => ((m.vreg a n).val j).mul ((m.vreg b n).val j))))

/-- PBC (R253): the exponent is kept. -/
def execPbc (d a : VReg) (k : PlyIx) (s : State) : Host.Outcome State Fault Refusal :=
  eff s (s.mach.run (.mk1 [resV a] [resV d] 2) fun m => m.setV d fun n =>
    let l := m.vreg a n
    ⟨Vector.replicate 8 (l.m[k.toNat]?.getD 0), l.e⟩)

/-- The lane with ply `b` of `a` in ply `k`, to be combined with another. -/
def plyMoved (a : Lane) (k b : Nat) : Lane := { a with m := Vector.ofFn fun j => if j.val = k then a.m[b]?.getD 0 else 0 }

/-- The mask of one ply. -/
def oneBit (k : Nat) : BitVec 8 := 1 <<< k

/-- PMOV (R253, R236). -/
def execPmov (d a : VReg) (k b : PlyIx) (s : State) : Host.Outcome State Fault Refusal :=
  eff s (s.mach.relud (.mk1 [resV a, resV d] [resV d] 2) fun m _ => m.vwrite d fun n =>
    combine (oneBit k.toNat) (plyMoved (m.vreg a n) k.toNat b.toNat) (m.vreg d n))

/-- SPLF (R253). -/
def execSplf (d : VReg) (a : SReg) (k : PlyIx) (s : State) : Host.Outcome State Fault Refusal :=
  eff s (s.mach.run (.mk1 [resS a] [resV d] 2) fun m => m.setV d fun _ => (plyLane k.toNat (bfpVal (m.sreg a))).1)

/-- SPLI (R253): integer form. -/
def execSpli (d : VReg) (a : SReg) (k : PlyIx) (s : State) : Host.Outcome State Fault Refusal :=
  eff s (s.mach.run (.mk1 [resS a] [resV d] 2) fun m => m.setV d fun _ => plyInt k.toNat ((m.sreg a).toNat % 2 ^ 24))

/-- The BFP word of a scalar as the lane that VINS combines. -/
def insLane (w : Word) : Lane := ⟨Vector.replicate 8 (w.extractLsb' 8 24), w.extractLsb' 0 8⟩

/-- VINS (R253, R236): lane S_B only. -/
def execVins (d : VReg) (a b : SReg) (k : PlyIx) (s : State) : Host.Outcome State Fault Refusal :=
  eff s (s.mach.relud (.mk1 [resS a, resS b, resV d] [resV d] 2) fun m _ => m.vwrite d fun n =>
    if n = (m.sreg b).toNat then combine (oneBit k.toNat) (insLane (m.sreg a)) (m.vreg d n)
    else (m.vreg d n, LaneFlags.none))

/-- VEXT (R253): a BFP word with the lane's exponent. -/
def execVext (d : SReg) (a : VReg) (b : SReg) (k : PlyIx) (s : State) : Host.Outcome State Fault Refusal :=
  eff s (s.mach.run (.mk1 [resV a, resS b] [resS d] 3) fun m =>
    let n := (m.sreg b).toNat
    m.setS d (if n < 128 then bfpOf ((m.vreg a n).m[k.toNat]?.getD 0) (m.vreg a n).e else bfpZero))

end Sys2Proof.Machine
end

