-- ==== Sys2Proof/Machine/MaskOps.lean ====
section
/-!
DEFINITION. Compare, hysteresis and mask instructions (R250, R251).
-/

namespace Sys2Proof.Machine

/-- Eight bits from a predicate of the ply number. -/
def plyBits (f : Nat → Bool) : BitVec 8 :=
  (List.range 8).foldl (fun (w : BitVec 8) j => if f j then w ||| (1 <<< j) else w) 0

/-- A compare writes a mask: a ply whose bit in the write mask is 0 keeps its old bit (R250). -/
def Mach.writeCmp (m : Mach) (md mask : MReg) (f : Nat → Nat → Bool) : Mach :=
  m.setM md fun n => plyBits fun j =>
    if (m.mreg mask n).getLsbD j then f n j else (m.mreg md n).getLsbD j

/-- A compare of two vector operands. -/
def Mach.compare2 (m : Mach) (md : MReg) (a b : VReg) (mask : MReg) (c : Dy → Dy → Bool) : Mach :=
  m.run (.mk1 [resV a, resV b, resM mask] [resM md] 2) fun m =>
    m.writeCmp md mask fun n j => c ((m.vreg a n).val j) ((m.vreg b n).val j)

/-- A compare with the BFP word of a scalar. -/
def Mach.compareS (m : Mach) (md : MReg) (a : VReg) (b : SReg) (mask : MReg) (c : Dy → Dy → Bool) : Mach :=
  m.run (.mk1 [resV a, resS b, resM mask] [resM md] 2) fun m =>
    m.writeCmp md mask fun n j => c ((m.vreg a n).val j) (bfpVal (m.sreg b))

/-- CEQ (R250). -/
def execCeq (md : MReg) (a b : VReg) (mask : MReg) (s : State) : Host.Outcome State Fault Refusal :=
  eff s (s.mach.compare2 md a b mask fun x y => x.eq y)

/-- CNE (R250). -/
def execCne (md : MReg) (a b : VReg) (mask : MReg) (s : State) : Host.Outcome State Fault Refusal :=
  eff s (s.mach.compare2 md a b mask fun x y => !x.eq y)

/-- CLT (R250). -/
def execClt (md : MReg) (a b : VReg) (mask : MReg) (s : State) : Host.Outcome State Fault Refusal :=
  eff s (s.mach.compare2 md a b mask fun x y => x.lt y)

/-- CLE (R250). -/
def execCle (md : MReg) (a b : VReg) (mask : MReg) (s : State) : Host.Outcome State Fault Refusal :=
  eff s (s.mach.compare2 md a b mask fun x y => x.le y)

/-- CGT (R250). -/
def execCgt (md : MReg) (a b : VReg) (mask : MReg) (s : State) : Host.Outcome State Fault Refusal :=
  eff s (s.mach.compare2 md a b mask fun x y => y.lt x)

/-- CGE (R250). -/
def execCge (md : MReg) (a b : VReg) (mask : MReg) (s : State) : Host.Outcome State Fault Refusal :=
  eff s (s.mach.compare2 md a b mask fun x y => y.le x)

/-- HYS (R250): V(B) above, V(B + 1) below; B = 31 is ILLEGAL. -/
def execHys (md : MReg) (a b : VReg) (mask : MReg) (s : State) : Host.Outcome State Fault Refusal :=
  eff s (s.mach.relud (.mk1 [resV a, resV b, resV (b + 1), resM mask] [resM md] 2) fun m _ =>
    if b = 31 then .trapped m TrapCode.illegal noLane
    else .done (m.writeCmp md mask fun n j =>
      let x := (m.vreg a n).val j
      if ((m.vreg b n).val j).lt x then true
      else if x.lt ((m.vreg (b + 1) n).val j) then false
      else (m.mreg md n).getLsbD j))

/-- CEQS (R250). -/
def execCeqs (md : MReg) (a : VReg) (b : SReg) (mask : MReg) (s : State) : Host.Outcome State Fault Refusal :=
  eff s (s.mach.compareS md a b mask fun x y => x.eq y)

/-- CNES (R250). -/
def execCnes (md : MReg) (a : VReg) (b : SReg) (mask : MReg) (s : State) : Host.Outcome State Fault Refusal :=
  eff s (s.mach.compareS md a b mask fun x y => !x.eq y)

/-- CLTS (R250). -/
def execClts (md : MReg) (a : VReg) (b : SReg) (mask : MReg) (s : State) : Host.Outcome State Fault Refusal :=
  eff s (s.mach.compareS md a b mask fun x y => x.lt y)

/-- CLES (R250). -/
def execCles (md : MReg) (a : VReg) (b : SReg) (mask : MReg) (s : State) : Host.Outcome State Fault Refusal :=
  eff s (s.mach.compareS md a b mask fun x y => x.le y)

/-- CGTS (R250). -/
def execCgts (md : MReg) (a : VReg) (b : SReg) (mask : MReg) (s : State) : Host.Outcome State Fault Refusal :=
  eff s (s.mach.compareS md a b mask fun x y => y.lt x)

/-- CGES (R250). -/
def execCges (md : MReg) (a : VReg) (b : SReg) (mask : MReg) (s : State) : Host.Outcome State Fault Refusal :=
  eff s (s.mach.compareS md a b mask fun x y => y.le x)

/-- A mask operation of two masks (R251). -/
def Mach.mask2 (m : Mach) (md ma mb : MReg) (f : BitVec 8 → BitVec 8 → BitVec 8) : Mach :=
  m.run (.mk1 [resM ma, resM mb] [resM md] 1) fun m => m.setM md fun n => f (m.mreg ma n) (m.mreg mb n)

/-- MAND (R251). -/
def execMand (md ma mb : MReg) (s : State) : Host.Outcome State Fault Refusal :=
  eff s (s.mach.mask2 md ma mb fun a b => a &&& b)

/-- MOR (R251). -/
def execMor (md ma mb : MReg) (s : State) : Host.Outcome State Fault Refusal :=
  eff s (s.mach.mask2 md ma mb fun a b => a ||| b)

/-- MXOR (R251). -/
def execMxor (md ma mb : MReg) (s : State) : Host.Outcome State Fault Refusal :=
  eff s (s.mach.mask2 md ma mb fun a b => a ^^^ b)

/-- MANDN (R251). -/
def execMandn (md ma mb : MReg) (s : State) : Host.Outcome State Fault Refusal :=
  eff s (s.mach.mask2 md ma mb fun a b => a &&& ~~~b)

/-- MNOT (R251). -/
def execMnot (md ma : MReg) (s : State) : Host.Outcome State Fault Refusal :=
  eff s (s.mach.run (.mk1 [resM ma] [resM md] 1) fun m => m.setM md fun n => ~~~(m.mreg ma n))

/-- The number of 1 bits of a byte. -/
def popByte (b : BitVec 8) : Nat := ((List.range 8).filter b.getLsbD).length

/-- MPOP (R251): 1 bits over all 1024 ply. -/
def execMpop (d : SReg) (ma : MReg) (s : State) : Host.Outcome State Fault Refusal :=
  eff s (s.mach.run (.mk1 [resM ma] [resS d] 3) fun m =>
    m.setS d (BitVec.ofNat 32 ((List.range 128).map fun n => popByte (m.mreg ma n)).sum))

/-- MFLG (R251): the flags of each lane. -/
def execMflg (md : MReg) (s : State) : Host.Outcome State Fault Refusal :=
  eff s (s.mach.run (.mk1 [] [resM md] 1) fun m => m.setM md fun n =>
    BitVec.ofNat 8 (m.spin.flags[n]?.getD LaneFlags.none).bits)

/-- CLRFLG (R251): lanes whose mask bits are not all 0; SPN_AFLAG stays. -/
def execClrflg (ma : MReg) (s : State) : Host.Outcome State Fault Refusal :=
  eff s (s.mach.run (.mk1 [resM ma] [] 1) fun m => { m with spin := { m.spin with
    flags := Vector.ofFn fun n => if m.mreg ma n = 0 then m.spin.flags[n] else LaneFlags.none } })

/-- VSEL (R251, R236). -/
def execVsel (d a b : VReg) (mask : MReg) (s : State) : Host.Outcome State Fault Refusal :=
  eff s (s.mach.run (.mk1 [resV a, resV b, resM mask] [resV d] 2) fun m =>
    m.setV d fun n => (combine (m.mreg mask n) (m.vreg a n) (m.vreg b n)).1)

/-- MSET (R251). -/
def execMset (md : MReg) (bits : BitVec 8) (s : State) : Host.Outcome State Fault Refusal :=
  eff s (s.mach.run (.mk1 [] [resM md] 1) fun m => m.setM md fun _ => bits)

/-- MLANE (R251): lanes from S_A up to S_B, unsigned. -/
def execMlane (md : MReg) (a b : SReg) (s : State) : Host.Outcome State Fault Refusal :=
  eff s (s.mach.run (.mk1 [resS a, resS b] [resM md] 1) fun m => m.setM md fun n =>
    if (m.sreg a).toNat ≤ n ∧ n < (m.sreg b).toNat then 0xFF else 0)

end Sys2Proof.Machine
end

