-- ==== Sys2Proof/Machine/MemoryOps.lean ====
section
/-!
DEFINITION. Memory, frame and skein instructions of Relud (R207, R208, R219, R243 to R245, R259).
-/

namespace Sys2Proof.Machine

/-! ## Lane memory (R208, R219, R243) -/

/-- A scalar address: two lowest bits ignored. -/
def scalarAddr (w : Word) : Nat := w.toNat / 4 * 4

/-- A vector address: five lowest bits ignored. -/
def vectorAddr (w : Word) : Nat := w.toNat / 32 * 32

/-- A load meets poisoned words from `a` on: each is counted and reported (R219, R448). -/
def Mach.hitPoison (m : Mach) (a n agent : Nat) : Mach :=
  m.each (m.memi.poison.filter fun p => codeWord a ≤ p && p < a + n) fun m p => m.poisonHit p agent

/-- A scalar load from lane memory: 0 and the lane's inv flag for a poisoned word, canonical zero from a lane that is
off. -/
def Mach.ldsBody (m : Mach) (d : SReg) (addr : Word) : Issued :=
  let off := scalarAddr addr
  if 0x100000 ≤ off then .trapped m TrapCode.laneAddr noLane
  else
    let n := off / 0x2000
    let m := m.when (m.laneOn n) (·.meet (laneMemBase + off) 4 Agent.lane)
    if m.laneOn n = false then .done (m.setS d bfpZero)
    else if m.poisoned (laneMemBase + off) then
      let m := (m.poisonHit (laneMemBase + off) Agent.lane).count Reg.SPN_CNT_POISON
      .done ((m.addFlags fun k => if k = n then LaneFlags.invOnly else LaneFlags.none).setS d 0)
    else .done (m.setS d (readMemWord m.mem (laneMemBase + off)))

/-- LDS (R243). -/
def execLds (d a : SReg) (imm : Imm) (s : State) : Host.Outcome State Fault Refusal :=
  eff s (s.mach.relud ⟨[resS a], [resS d], 3, immSize imm, 0, 0⟩ fun m _ => m.ldsBody d (m.sreg a + immSigned imm))

/-- A scalar store to lane memory. -/
def Mach.stsBody (m : Mach) (addr w : Word) : Issued :=
  let off := scalarAddr addr
  if 0x100000 ≤ off then .trapped m TrapCode.laneAddr noLane
  else if m.laneOn (off / 0x2000) then .done (m.laneWord (laneMemBase + off) w) else .done m

/-- STS (R243). -/
def execSts (d a : SReg) (imm : Imm) (s : State) : Host.Outcome State Fault Refusal :=
  eff s (s.mach.relud ⟨[resS d, resS a], [], 1, immSize imm, 0, 0⟩ fun m _ =>
    m.stsBody (m.sreg a + immSigned imm) (m.sreg d))

/-- The address of an offset in a lane's memory. -/
def laneAddr (n off : Nat) : Nat := laneMemBase + n * 0x2000 + off

/-- A vector load reads `n` bytes at the offset in every lane that exists. -/
def Mach.meetLanes (m : Mach) (off n : Nat) : Mach :=
  if m.memi.upsets.isEmpty then m
  else m.each ((List.range 128).filter m.laneOn) fun m k => m.meet (laneAddr k off) n Agent.lane

/-- Lanes whose `n` bytes at the offset hold a poisoned word. -/
def Mach.poisonLanes (m : Mach) (off n : Nat) : List Nat :=
  if m.memi.poison.isEmpty then []
  else (List.range 128).filter fun k => m.laneOn k && m.anyPoison (laneAddr k off) n

/-- Lanes whose load met poison: counted once for the instruction, their inv flag set.
DEDUCED: log entry 37. -/
def Mach.loadPoison (m : Mach) (bad : List Nat) (off n : Nat) : Mach :=
  if bad.isEmpty then m
  else
    let m := m.each bad fun m k => m.hitPoison (laneAddr k off) n Agent.lane
    (m.count Reg.SPN_CNT_POISON).addFlags fun k => if k ∈ bad then LaneFlags.invOnly else LaneFlags.none

/-- A vector load from lane memory under a mask. -/
def Mach.vldBody (m : Mach) (d : VReg) (off : Nat) (mask : MReg) : Issued :=
  if 0x2000 < off + 32 then .trapped m TrapCode.laneAddr 0
  else
    let m := m.meetLanes off 32
    let bad := m.poisonLanes off 32
    let m := m.loadPoison bad off 32
    .done (m.setV d fun n =>
      let ws := if n ∈ bad then List.replicate 8 bfpZero else readMemWords m.mem (laneAddr n off) 8
      loadLane (m.mreg mask n) ws (m.vreg d n))

/-- VLD (R243). -/
def execVld (d : VReg) (a : SReg) (off : BitVec 8) (mask : MReg) (s : State) : Host.Outcome State Fault Refusal :=
  eff s (s.mach.relud (.mk1 [resS a, resM mask] [resV d] 4) fun m _ =>
    m.vldBody d (vectorAddr (m.sreg a + 32 * off.setWidth 32)) mask)

/-- The ply of a lane stored under a mask: full writes for whole code words, partial ones for single ply (R445). -/
def Mach.storeLane (m : Mach) (a : Nat) (mask : BitVec 8) (l : Lane) : Mach :=
  let ws := l.words
  if mask = 0xFF then m.laneFull a ws
  else m.each (List.range 4) fun m p =>
    let w := fun j => ws.getD j 0
    match mask.getLsbD (2 * p), mask.getLsbD (2 * p + 1) with
    | true, true => m.laneFull (a + 8 * p) [w (2 * p), w (2 * p + 1)]
    | true, false => m.laneWord (a + 8 * p) (w (2 * p))
    | false, true => m.laneWord (a + 8 * p + 4) (w (2 * p + 1))
    | false, false => m

/-- Lanes that exist. -/
def Mach.lanes (m : Mach) : List Nat := (List.range 128).filter m.laneOn

/-- A vector store to lane memory. -/
def Mach.vstBody (m : Mach) (va : VReg) (off : Nat) (mask : MReg) : Issued :=
  if 0x2000 < off + 32 then .trapped m TrapCode.laneAddr 0
  else .done (m.each m.lanes fun m n => m.storeLane (laneAddr n off) (m.mreg mask n) (m.vreg va n))

/-- VST (R243). -/
def execVst (va : VReg) (b : SReg) (off : BitVec 8) (mask : MReg) (s : State) : Host.Outcome State Fault Refusal :=
  eff s (s.mach.relud (.mk1 [resS b, resM mask, resV va] [] 1) fun m _ =>
    m.vstBody va (vectorAddr (m.sreg b + 32 * off.setWidth 32)) mask)

/-! ## Parameter bank (R243) -/

/-- A read of `n` bytes of the bank in force meets a poisoned word: BANK_POISON. -/
def Mach.bankPoison (m : Mach) (off n lane : Nat) : Option Issued :=
  if m.anyPoison (m.bankBase + off) n then
    some (.trapped (m.hitPoison (m.bankBase + off) n Agent.bank) TrapCode.bankPoison lane)
  else none

/-- The array reads `n` bytes of the bank in force. -/
def Mach.meetBank (m : Mach) (off n : Nat) : Mach := m.meet (m.bankBase + off) n Agent.bank

/-- A scalar load from the bank. -/
def Mach.ldpsBody (m : Mach) (d : SReg) (addr : Word) : Issued :=
  let off := scalarAddr addr
  if 0x10000 ≤ off then .trapped m TrapCode.bankAddr noLane
  else
    let m := m.meetBank off 4
    (m.bankPoison off 4 noLane).getD (.done (m.setS d (m.bankWord off)))

/-- LDPS (R243). -/
def execLdps (d a : SReg) (imm : Imm) (s : State) : Host.Outcome State Fault Refusal :=
  eff s (s.mach.relud ⟨[resS a], [resS d], 3, immSize imm, 0, 0⟩ fun m _ => m.ldpsBody d (m.sreg a + immSigned imm))

/-- The eight words at a bank offset. -/
def Mach.bankWords (m : Mach) (off : Nat) : List Word := readMemWords m.mem (m.bankBase + off) 8

/-- A vector load from the bank, the same for every lane. -/
def Mach.vldpBody (m : Mach) (d : VReg) (off : Nat) (mask : MReg) : Issued :=
  if 0x10000 < off + 32 then .trapped m TrapCode.bankAddr noLane
  else
    let m := m.meetBank off 32
    (m.bankPoison off 32 noLane).getD
    (.done (m.setV d fun n => loadLane (m.mreg mask n) (m.bankWords off) (m.vreg d n)))

/-- VLDP (R243). -/
def execVldp (d : VReg) (a : SReg) (off : BitVec 8) (mask : MReg) (s : State) : Host.Outcome State Fault Refusal :=
  eff s (s.mach.relud (.mk1 [resS a, resM mask] [resV d] 4) fun m _ =>
    m.vldpBody d (vectorAddr (m.sreg a + 32 * off.setWidth 32)) mask)

/-- A vector load from the bank, strided by lane: a stride that is no multiple of 32 is ILLEGAL, the highest lane's
address is checked. -/
def Mach.vldpxBody (m : Mach) (d : VReg) (off stride : Nat) (mask : MReg) : Issued :=
  let at' := fun n => off + n * stride
  if stride % 32 ≠ 0 then .trapped m TrapCode.illegal noLane
  else if 0x10000 < at' 127 + 32 then
    .trapped m TrapCode.bankAddr (((List.range 128).find? fun n => decide (0x10000 < at' n + 32)).getD 127)
  else
    let m := if m.memi.upsets.isEmpty then m else m.each (List.range 128) fun m n => m.meetBank (at' n) 32
    match (List.range 128).find? fun n => m.anyPoison (m.bankBase + at' n) 32 with
    | some n => .trapped (m.hitPoison (m.bankBase + at' n) 32 Agent.bank) TrapCode.bankPoison n
    | none => .done (m.setV d fun n => loadLane (m.mreg mask n) (m.bankWords (at' n)) (m.vreg d n))

/-- VLDPX (R243). -/
def execVldpx (d : VReg) (a b : SReg) (off : BitVec 8) (mask : MReg) (s : State) : Host.Outcome State Fault Refusal :=
  eff s (s.mach.relud (.mk1 [resS a, resS b, resM mask] [resV d] 4) fun m _ =>
    m.vldpxBody d (vectorAddr (m.sreg a + 32 * off.setWidth 32)) (m.sreg b).toNat mask)

/-! ## Frames (R201, R205, R207, R244, R245) -/

/-- The frame read: of the present cycle, or of the one before. -/
def Mach.frame (m : Mach) (prev : Bool) : Nat := frameAddr (if prev then m.cycle - 1 else m.cycle)

/-- The readable point: none for frame k − 1; for frame k section cycle 40 of the estimation section, and 440 of the
fast section for the sense part. -/
def Mach.readable (m : Mach) (prev sense : Bool) : Nat :=
  if prev then 0 else if m.inEst then 40 else if sense then 440 else 0

/-- A read of the node part of frame k in the fast section, with det_enforce: FRAME_EARLY (R245). -/
def Mach.frameEarly (m : Mach) (prev sense : Bool) : Bool :=
  !prev && !sense && m.inFast && m.flag F.SPN_CTRL_det_enforce

/-- Bit `p` of a 16-byte mask at `a`: position 127 in bit 7 of the first byte (R205). -/
def maskBit (mem : List Host.Cell) (a p : Nat) : Bool := (readByte mem (a + (15 - p / 8))).getLsbD (p % 8)

/-- A byte as a ply, unsigned. -/
def byteMant (b : Byte) : Mant := b.setWidth 24

/-- A two-byte field as a ply, unsigned. -/
def halfAt (mem : List Host.Cell) (a : Nat) : BitVec 16 := readByte mem a ++ readByte mem (a + 1)

/-- A Bool as a ply. -/
def boolMant (b : Bool) : Mant := if b then 1 else 0

/-- The first byte and the length of an item of lane `n` in a frame at `fr`. -/
def itemSpan (item : FrldItem) (fr n : Nat) : Nat × Nat :=
  match item with
  | .uplink => (fr + 0x80 + 4 * n, 4)
  | .flyrec => (fr + 0x280 + 4 * n, 4)
  | .cellv => (fr + 0x600 + 24 * n, 24)
  | .cellt => (fr + 0x600 + 24 * n, 24)
  | .marks => (fr + 0x500, 64)
  | .toggle => (fr + 0x480, 8)

/-- The ply of an item for lane `n` (R244). -/
def frameItem (mem : List Host.Cell) (item : FrldItem) (fr n : Nat) : List Mant :=
  let w := readMemWord mem (fr + 0x80 + 4 * n)
  let f := readMemWord mem (fr + 0x280 + 4 * n)
  let r := fr + 0x600 + 24 * n
  let new := boolMant (maskBit mem (fr + 0x510) n)
  let miss := boolMant (maskBit mem (fr + 0x520) n)
  match item with
  | .uplink => [(w.extractLsb' 16 16).setWidth 24, (w.extractLsb' 12 4).setWidth 24, (w.extractLsb' 10 2).setWidth 24,
                (w.extractLsb' 9 1).setWidth 24, boolMant (!maskBit mem (fr + 0x500) n), 0, 0, 0]
  | .flyrec => [(f.extractLsb' 24 8).setWidth 24, (f.extractLsb' 16 8).setWidth 24, (f.extractLsb' 8 8).setWidth 24,
                (f.extractLsb' 3 1).setWidth 24, (f.extractLsb' 2 1).setWidth 24, (f.extractLsb' 0 2).setWidth 24, 0, 0]
  | .cellv => ((List.range 6).map fun c => (halfAt mem (r + 2 + 2 * c)).setWidth 24) ++ [new, miss]
  | .cellt => [(halfAt mem (r + 14)).signExtend 24, (halfAt mem (r + 16)).signExtend 24,
               (readByte mem (r + 18)).signExtend 24, byteMant (readByte mem (r + 19)), byteMant (readByte mem (r + 20)),
               byteMant (readByte mem (r + 1)), new, miss]
  | .marks => [boolMant (maskBit mem (fr + 0x500) n), new, miss, boolMant (maskBit mem (fr + 0x530) n), 0, 0, 0, 0]
  | .toggle => [(halfAt mem (fr + 0x480)).setWidth 24, (halfAt mem (fr + 0x482)).setWidth 24,
                (halfAt mem (fr + 0x484)).setWidth 24, byteMant (readByte mem (fr + 0x486)), 0, 0, 0, 0]

/-- FRLD's body: integer-form lanes; a lane whose item meets poison reads 0 and sets inv (R448). -/
def Mach.frldBody (m : Mach) (d : VReg) (item : FrldItem) (prev : Bool) (mask : MReg) : Issued :=
  if m.frameEarly prev false then .trapped m TrapCode.frameEarly noLane
  else
    let fr := m.frame prev
    let span := fun n => itemSpan item fr n
    let m := if m.memi.upsets.isEmpty then m
      else m.each m.lanes fun m n => m.meet (span n).1 (span n).2 Agent.arrayFs
    let bad := if m.memi.poison.isEmpty then []
      else m.lanes.filter fun n => m.anyPoison (span n).1 (span n).2
    let m := m.each bad fun m n => m.hitPoison (span n).1 (span n).2 Agent.arrayFs
    let m := if bad.isEmpty then m
      else m.addFlags fun n => if n ∈ bad then LaneFlags.invOnly else LaneFlags.none
    .done (m.setV d fun n =>
      let p := if n ∈ bad then [] else frameItem m.mem item fr n
      writeInt (m.mreg mask n) (m.vreg d n) fun j => p.getD j 0)

/-- FRLD (R244). -/
def execFrld (d : VReg) (item : FrldItem) (prev : Bool) (mask : MReg) (s : State) : Host.Outcome State Fault Refusal :=
  eff s (s.mach.relud ⟨[resM mask], [resV d], 6, 1, s.mach.readable prev false, 0⟩ fun m _ =>
    m.frldBody d item prev mask)

/-- A frame word read by the sequencer: ILLEGAL at 0x1200 and above, FRAME_EARLY, or the word and whether it was
poisoned. -/
def Mach.frameWord (m : Mach) (off : Nat) (prev : Bool) (k : Mach → Word → Bool → Issued) : Issued :=
  let o := off / 4 * 4
  if 0x1200 ≤ off then .trapped m TrapCode.illegal noLane
  else if m.frameEarly prev (decide (off < 0x80)) then .trapped m TrapCode.frameEarly noLane
  else
    let a := m.frame prev + o
    let m := m.meet a 4 Agent.arrayFs
    if m.poisoned a then k (m.poisonHit a Agent.arrayFs) 0 true else k m (readMemWord m.mem a) false

/-- FRLS (R244). -/
def execFrls (d : SReg) (off : BitVec 13) (prev : Bool) (s : State) : Host.Outcome State Fault Refusal :=
  eff s (s.mach.relud ⟨[], [resS d], 4, 1, s.mach.readable prev (decide (off.toNat < 0x80)), 0⟩ fun m _ =>
    m.frameWord off.toNat prev fun m w _ => .done (m.setS d w))

/-- FRLB (R244): ply 0 of every lane; a poisoned word reads as canonical zero and sets inv in every lane. -/
def execFrlb (d : VReg) (off : BitVec 13) (prev : Bool) (s : State) : Host.Outcome State Fault Refusal :=
  eff s (s.mach.relud ⟨[], [resV d], 5, 1, s.mach.readable prev (decide (off.toNat < 0x80)), 0⟩ fun m _ =>
    m.frameWord off.toNat prev fun m w bad =>
      let l := if bad then Lane.zero
        else (normalise (bfpVal w :: List.replicate 7 Dy.zero)).1
      let m := if bad then m.addFlags fun _ => LaneFlags.invOnly else m
      .done (m.setV d fun _ => l))

/-- The frame offset of a TSAMP field (R205). -/
def tsampOffset : TsampField → Nat
  | .secLo => 0x0C | .secHi => 0x08 | .ns => 0x10

/-- TSAMP (R244). -/
def execTsamp (d : SReg) (f : TsampField) (s : State) : Host.Outcome State Fault Refusal :=
  eff s (s.mach.relud ⟨[], [resS d], 4, 1, s.mach.readable false true, 0⟩ fun m _ =>
    m.frameWord (tsampOffset f) false fun m w _ => .done (m.setS d w))

/-! ## Skein (R259) -/

/-- The free area of the skein buffer (R191). -/
def freeArea : Nat := 0x2280000

/-- SKW (R259): a poisoned word stays poisoned (R447). -/
def execSkw (a b : SReg) (s : State) : Host.Outcome State Fault Refusal :=
  eff s (s.mach.run (.mk1 [resS a, resS b] [] 1) fun m =>
    m.storeAs Agent.arrayFs (freeArea + (m.sreg a).toNat % 0x40000 / 4 * 4) (m.sreg b))

/-- SKRD (R259, R260): NONDET while det_enforce is 1; a poisoned word reads 0. -/
def execSkrd (d a : SReg) (s : State) : Host.Outcome State Fault Refusal :=
  eff s (s.mach.relud (.mk1 [resS a] [resS d] 6) fun m _ =>
    let at' := freeArea + (m.sreg a).toNat % 0x40000 / 4 * 4
    let m := m.when (!m.flag F.SPN_CTRL_det_enforce) (·.meet at' 4 Agent.arrayFs)
    if m.flag F.SPN_CTRL_det_enforce then .trapped m TrapCode.nondet noLane
    else if m.poisoned at' then .done ((m.poisonHit at' Agent.arrayFs).setS d 0)
    else .done (m.setS d (readMemWord m.mem at')))

end Sys2Proof.Machine
end

