-- ==== Sys2Proof/Machine/Matrix.lean ====
section
/-!
DEFINITION. Matrix instructions (R254).
-/

namespace Sys2Proof.Machine

/-- A row of a matrix buffer. -/
def rowOf (x : Vector Lane 8) (i : Nat) : Lane := x[i]?.getD Lane.zero

/-- MXLD's body: eight rows of 32 bytes from lane memory; a row that meets poison reads canonical zero. -/
def Mach.mxldBody (m : Mach) (x : XReg) (off : Nat) : Issued :=
  if 0x2000 < off + 256 then .trapped m TrapCode.laneAddr 0
  else
    let m := m.meetLanes off 256
    let bad := m.poisonLanes off 256
    let m := m.loadPoison bad off 256
    .done (m.setMx x fun n => Vector.ofFn fun i =>
      let a := laneAddr n (off + 32 * i.val)
      if m.anyPoison a 32 then Lane.zero else loadLane 0xFF (readMemWords m.mem a 8) Lane.zero)

/-- MXLD (R254). -/
def execMxld (x : XReg) (a : SReg) (s : State) : Host.Outcome State Fault Refusal :=
  eff s (s.mach.relud (.mk1 [resS a] [resX x] 8) fun m _ => m.mxldBody x (vectorAddr (m.sreg a)))

/-- MXST (R254): 256 bytes in full writes. -/
def execMxst (x : XReg) (a : SReg) (s : State) : Host.Outcome State Fault Refusal :=
  eff s (s.mach.relud (.mk1 [resS a, resX x] [] 1) fun m _ =>
    let off := vectorAddr (m.sreg a)
    if 0x2000 < off + 256 then .trapped m TrapCode.laneAddr 0
    else .done (m.each m.lanes fun m n =>
      m.laneFull (laneAddr n off) ((List.range 8).flatMap fun i => (rowOf (m.mxreg x n) i).words)))

/-- MXROW (R254): a row takes Va's lane. -/
def execMxrow (x : XReg) (a : VReg) (r : PlyIx) (s : State) : Host.Outcome State Fault Refusal :=
  eff s (s.mach.run (.mk1 [resV a, resX x] [resX x] 2) fun m => m.setMx x fun n =>
    (m.mxreg x n).set r.toNat (m.vreg a n))

/-- MXGET (R254). -/
def execMxget (d : VReg) (x : XReg) (r : PlyIx) (s : State) : Host.Outcome State Fault Refusal :=
  eff s (s.mach.run (.mk1 [resX x] [resV d] 2) fun m => m.setV d fun n => rowOf (m.mxreg x n) r.toNat)

/-- An entry of a matrix buffer's lane. -/
def entryOf (x : Vector Lane 8) (i j : Nat) : Dy := (rowOf x i).val j

/-- The exact product of row `i` of a matrix, or of its transpose, with a lane. -/
def rowDot (x : Vector Lane 8) (t : Bool) (b : Lane) (i : Nat) : Dy :=
  Dy.sum ((List.range 8).map fun j => (if t then entryOf x j i else entryOf x i j).mul (b.val j))

/-- A matrix-vector instruction: one rounding per ply. -/
def Mach.matVec (m : Mach) (d : VReg) (x : XReg) (b : VReg) (mask : MReg) (t acc : Bool) : Mach :=
  m.relud (.mk1 [resX x, resV b, resM mask] [resV d] 10) fun m _ => m.vwrite d fun n =>
    writeArith (m.mreg mask n) (m.vreg d n) fun i =>
      let p := rowDot (m.mxreg x n) t (m.vreg b n) i
      unflagged (if acc then ((m.vreg d n).val i).add p else p)

/-- MXMUL (R254). -/
def execMxmul (d : VReg) (x : XReg) (b : VReg) (mask : MReg) (s : State) : Host.Outcome State Fault Refusal :=
  eff s (s.mach.matVec d x b mask false false)

/-- MXMAC (R254). -/
def execMxmac (d : VReg) (x : XReg) (b : VReg) (mask : MReg) (s : State) : Host.Outcome State Fault Refusal :=
  eff s (s.mach.matVec d x b mask false true)

/-- MXMULT (R254). -/
def execMxmult (d : VReg) (x : XReg) (b : VReg) (mask : MReg) (s : State) : Host.Outcome State Fault Refusal :=
  eff s (s.mach.matVec d x b mask true false)

/-- Write a matrix buffer with lane results; flags and the ovf trap as for a vector (R213). -/
def Mach.mxwrite (m : Mach) (x : XReg) (res : Nat → Vector (Lane × LaneFlags) 8) : Issued :=
  let rs : Vector (Vector (Lane × LaneFlags) 8) 128 := Vector.ofFn fun n => res n
  let fl := fun n => ((rs[n]?.map (·.toList)).getD []).foldl (fun f r => LaneFlags.or f r.2) LaneFlags.none
  let m := m.addFlags fl
  match (List.range 128).find? fun n => m.laneOn n && (fl n).ovf && m.flag F.SPN_CTRL_ovf_trap with
  | some n => .trapped m TrapCode.arith n
  | none => .done (m.setMx x fun n => Vector.ofFn fun i => (rs[n]?.map fun r => r[i].1).getD Lane.zero)

/-- MXR1 (R254): the rank-one update of the rows that the mask selects. -/
def execMxr1 (x : XReg) (a b : VReg) (mask : MReg) (s : State) : Host.Outcome State Fault Refusal :=
  eff s (s.mach.relud (.mk1 [resV a, resV b, resM mask, resX x] [resX x] 10) fun m _ => m.mxwrite x fun n =>
    Vector.ofFn fun i =>
      let row := rowOf (m.mxreg x n) i.val
      if (m.mreg mask n).getLsbD i.val then
        normalise ((List.range 8).map fun j => (row.val j).add (((m.vreg a n).val i.val).mul ((m.vreg b n).val j)))
      else (row, LaneFlags.none))

end Sys2Proof.Machine
end

