-- ==== Sys2Proof/Machine/ScalarOps.lean ====
section
/-!
DEFINITION. Scalar and control instructions of Relud (R238 to R242).
-/

namespace Sys2Proof.Machine

/-- A scalar operation of two registers (R238). -/
def Mach.scalar2 (m : Mach) (d a b : SReg) (lat : Nat) (f : Word → Word → Word) : Mach :=
  m.run (.mk1 [resS a, resS b] [resS d] lat) fun m => m.setS d (f (m.sreg a) (m.sreg b))

/-- A scalar operation with an immediate (R239). -/
def Mach.scalarI (m : Mach) (d a : SReg) (size : Nat) (f : Word → Word) : Mach :=
  m.run ⟨[resS a], [resS d], 1, size, 0, 0⟩ fun m => m.setS d (f (m.sreg a))

/-- The word 1 or 0 of a condition. -/
def boolWord (b : Bool) : Word := if b then 1 else 0

/-- Shift amounts take five bits. -/
def shAmt (w : Word) : Nat := w.toNat % 32

/-- The signed minimum and maximum. -/
def sminWord (a b : Word) : Word := if b.slt a then b else a

def smaxWord (a b : Word) : Word := if a.slt b then b else a

/-- The high word of the signed 64-bit product. -/
def mulHigh (a b : Word) : Word := BitVec.ofInt 32 (a.toInt * b.toInt / 2 ^ 32)

/-- ADD (R238). -/
def execAdd (d a b : SReg) (s : State) : Host.Outcome State Fault Refusal :=
  eff s (s.mach.scalar2 d a b 1 fun a b => a + b)

/-- SUB (R238). -/
def execSub (d a b : SReg) (s : State) : Host.Outcome State Fault Refusal :=
  eff s (s.mach.scalar2 d a b 1 fun a b => a - b)

/-- AND (R238). -/
def execAnd (d a b : SReg) (s : State) : Host.Outcome State Fault Refusal :=
  eff s (s.mach.scalar2 d a b 1 fun a b => a &&& b)

/-- OR (R238). -/
def execOr (d a b : SReg) (s : State) : Host.Outcome State Fault Refusal :=
  eff s (s.mach.scalar2 d a b 1 fun a b => a ||| b)

/-- XOR (R238). -/
def execXor (d a b : SReg) (s : State) : Host.Outcome State Fault Refusal :=
  eff s (s.mach.scalar2 d a b 1 fun a b => a ^^^ b)

/-- SLL (R238). -/
def execSll (d a b : SReg) (s : State) : Host.Outcome State Fault Refusal :=
  eff s (s.mach.scalar2 d a b 1 fun a b => a <<< shAmt b)

/-- SRL (R238). -/
def execSrl (d a b : SReg) (s : State) : Host.Outcome State Fault Refusal :=
  eff s (s.mach.scalar2 d a b 1 fun a b => a >>> shAmt b)

/-- SRA (R238). -/
def execSra (d a b : SReg) (s : State) : Host.Outcome State Fault Refusal :=
  eff s (s.mach.scalar2 d a b 1 fun a b => a.sshiftRight (shAmt b))

/-- MUL (R238). -/
def execMul (d a b : SReg) (s : State) : Host.Outcome State Fault Refusal :=
  eff s (s.mach.scalar2 d a b 2 fun a b => a * b)

/-- MULH (R238). -/
def execMulh (d a b : SReg) (s : State) : Host.Outcome State Fault Refusal :=
  eff s (s.mach.scalar2 d a b 2 fun a b => mulHigh a b)

/-- SLT (R238). -/
def execSlt (d a b : SReg) (s : State) : Host.Outcome State Fault Refusal :=
  eff s (s.mach.scalar2 d a b 1 fun a b => boolWord (a.slt b))

/-- SLTU (R238). -/
def execSltu (d a b : SReg) (s : State) : Host.Outcome State Fault Refusal :=
  eff s (s.mach.scalar2 d a b 1 fun a b => boolWord (a.ult b))

/-- MIN (R238). -/
def execMin (d a b : SReg) (s : State) : Host.Outcome State Fault Refusal :=
  eff s (s.mach.scalar2 d a b 1 fun a b => sminWord a b)

/-- MAX (R238). -/
def execMax (d a b : SReg) (s : State) : Host.Outcome State Fault Refusal :=
  eff s (s.mach.scalar2 d a b 1 fun a b => smaxWord a b)

/-- JALR (R238): the link is the next index, the jump goes to the register's address. -/
def execJalr (d a : SReg) (s : State) : Host.Outcome State Fault Refusal :=
  eff s (s.mach.relud (.mk1 [resS a] [resS d] 1)
    (fun m _ => .done (m.setS d (BitVec.ofNat 32 (m.spin.pc + 1)))) fun m => some (m.sreg a).toNat)

/-- RDSC (R238): the section cycle of its issue. -/
def execRdsc (d : SReg) (s : State) : Host.Outcome State Fault Refusal :=
  eff s (s.mach.relud (.mk1 [] [resS d] 1) fun m t => .done (m.setS d (BitVec.ofNat 32 t)))

/-- RDTB (R238): the nanoseconds of the live time base; NONDET while det_enforce is 1 (R260). -/
def execRdtb (d : SReg) (s : State) : Host.Outcome State Fault Refusal :=
  eff s (s.mach.relud (.mk1 [] [resS d] 4) fun m _ =>
    if m.flag F.SPN_CTRL_det_enforce then .trapped m TrapCode.nondet noLane
    else .done (m.setS d (BitVec.ofNat 32 m.time.ns)))

/-- SECEND (R238, R242): issues once no result is outstanding; the section ends with the cycle after it. -/
def execSecend (s : State) : Host.Outcome State Fault Refusal :=
  let all := s.mach.spin.ready.map (·.1)
  eff s (s.mach.relud (.mk1 all [] 0) fun m t => .done (m.endSection (t + 2)))

/-- NOP (R238). -/
def execNop (s : State) : Host.Outcome State Fault Refusal := eff s (s.mach.run (.mk1 [] [] 1) id)

/-- ADDI (R239). -/
def execAddi (d a : SReg) (imm : Imm) (s : State) : Host.Outcome State Fault Refusal :=
  eff s (s.mach.scalarI d a (immSize imm) fun x => x + immSigned imm)

/-- ANDI (R239). -/
def execAndi (d a : SReg) (imm : Imm) (s : State) : Host.Outcome State Fault Refusal :=
  eff s (s.mach.scalarI d a (immSize imm) fun x => x &&& immUnsigned imm)

/-- ORI (R239). -/
def execOri (d a : SReg) (imm : Imm) (s : State) : Host.Outcome State Fault Refusal :=
  eff s (s.mach.scalarI d a (immSize imm) fun x => x ||| immUnsigned imm)

/-- XORI (R239). -/
def execXori (d a : SReg) (imm : Imm) (s : State) : Host.Outcome State Fault Refusal :=
  eff s (s.mach.scalarI d a (immSize imm) fun x => x ^^^ immUnsigned imm)

/-- SLTI (R239). -/
def execSlti (d a : SReg) (imm : Imm) (s : State) : Host.Outcome State Fault Refusal :=
  eff s (s.mach.scalarI d a (immSize imm) fun x => boolWord (x.slt (immSigned imm)))

/-- LUI (R239). -/
def execLui (d : SReg) (imm : BitVec 16) (s : State) : Host.Outcome State Fault Refusal :=
  eff s (s.mach.run (.mk1 [] [resS d] 1) fun m => m.setS d (imm ++ (0 : BitVec 16)))

/-- SHI (R239): the code 0b11 is ILLEGAL. -/
def execShi (d a : SReg) (kind : ShiKind) (sh : BitVec 5) (s : State) : Host.Outcome State Fault Refusal :=
  eff s (s.mach.relud (.mk1 [resS a] [resS d] 1) fun m _ =>
    match kind with
    | .sll => .done (m.setS d (m.sreg a <<< sh.toNat))
    | .srl => .done (m.setS d (m.sreg a >>> sh.toNat))
    | .sra => .done (m.setS d ((m.sreg a).sshiftRight sh.toNat))
    | .illegal => .trapped m TrapCode.illegal noLane)

/-- A branch on the comparison of S_D with S_A (R240): the target counts from the next instruction. -/
def Mach.branch (m : Mach) (d a : SReg) (imm : Imm) (c : Word → Word → Bool) : Mach :=
  m.relud ⟨[resS d, resS a], [], 0, immSize imm, 0, 0⟩ (fun m _ => .done m) fun m =>
    if c (m.sreg d) (m.sreg a) then some (BitVec.ofNat 32 (m.spin.pc + immSize imm) + immSigned imm).toNat else none

/-- BEQ (R240). -/
def execBeq (d a : SReg) (imm : Imm) (s : State) : Host.Outcome State Fault Refusal :=
  eff s (s.mach.branch d a imm fun x y => x == y)

/-- BNE (R240). -/
def execBne (d a : SReg) (imm : Imm) (s : State) : Host.Outcome State Fault Refusal :=
  eff s (s.mach.branch d a imm fun x y => x != y)

/-- BLT (R240). -/
def execBlt (d a : SReg) (imm : Imm) (s : State) : Host.Outcome State Fault Refusal :=
  eff s (s.mach.branch d a imm fun x y => x.slt y)

/-- BGE (R240). -/
def execBge (d a : SReg) (imm : Imm) (s : State) : Host.Outcome State Fault Refusal :=
  eff s (s.mach.branch d a imm fun x y => !x.slt y)

/-- JAL (R240). -/
def execJal (d : SReg) (imm : Imm) (s : State) : Host.Outcome State Fault Refusal :=
  eff s (s.mach.relud ⟨[], [resS d], 1, immSize imm, 0, 0⟩
    (fun m _ => .done (m.setS d (BitVec.ofNat 32 (m.spin.pc + immSize imm))))
    fun m => some (BitVec.ofNat 32 (m.spin.pc + immSize imm) + immSigned imm).toNat)

/-- The body of LOOP (R241): a length of 0 is ILLEGAL, a fifth level traps; with a count of 0 the body is skipped. -/
def Mach.loopBody (m : Mach) (count : Word) (len : Nat) : Issued :=
  if len = 0 then .trapped m TrapCode.illegal noLane
  else if count = 0 then .done m
  else if m.spin.loops.length = 4 then .trapped m TrapCode.loopDepth noLane
  else .done { m with spin := { m.spin with
    loops := ⟨m.spin.pc + 1, m.spin.pc + len, count.toNat⟩ :: m.spin.loops } }

/-- LOOP (R241). -/
def execLoop (a : SReg) (len : BitVec 16) (s : State) : Host.Outcome State Fault Refusal :=
  let skip := if s.mach.sreg a = 0 then len.toNat else 0
  eff s (s.mach.relud ⟨[resS a], [], 1, 1, 0, skip⟩ fun m _ => m.loopBody (m.sreg a) len.toNat)

/-- WAITCYC (R242): holds issue until the section cycle S_A + imm. -/
def execWaitcyc (a : SReg) (imm : Imm) (s : State) : Host.Outcome State Fault Refusal :=
  eff s (s.mach.run ⟨[resS a], [], 1, immSize imm, (s.mach.sreg a + immSigned imm).toNat, 0⟩ id)

end Sys2Proof.Machine
end

