-- ==== Sys2Proof/Machine/Profile.lean ====
section
/-!
DEFINITION. The profile generator (R257): the time-shortest profile from a state to rest at a target within limits of
velocity, acceleration and jerk, evaluated at the end of a period. Quantities are fixed-point numbers with 256
fractional bits, times in milliseconds. What lies within the margin of that arithmetic's own error counts as met, and a result
within it of a multiple of 2^-110 is that multiple: an exact result with a tie, or at rest at the target, comes out exactly.
-/

namespace Sys2Proof.Machine

/-- One in fixed point. -/
def fxOne : Int := 2 ^ 256

def fxMul (x y : Int) : Int := x * y / fxOne

def fxDiv (x y : Int) : Int := x * fxOne / y

def fxSqrt (x : Int) : Int := (isqrt ((max x 0).toNat * 2 ^ 256) : Nat)

/-- A dyadic value in fixed point; every BFP value is exact. -/
def Dy.fx (x : Dy) : Int := if -256 ≤ x.k then x.n * 2 ^ (x.k + 256).toNat else x.n / 2 ^ (-256 - x.k).toNat

/-- The margin below which a difference counts as the fixed point's own error: 2^-120. -/
def fxMargin : Int := 2 ^ 136

/-- A fixed-point number as an exact value: the multiple of 2^-110 that lies within the margin, or itself.
DEDUCED: log entry 37. -/
def fxDy (x : Int) : Dy :=
  let y := roundHalfEven x (2 ^ 146)
  if (x - y * 2 ^ 146).natAbs ≤ 2 ^ 136 then ⟨y, -110⟩ else ⟨x, -256⟩

/-- Position, velocity and acceleration. -/
structure Motion where
  p : Int
  v : Int
  a : Int
  deriving DecidableEq, Repr

/-- The motion after time `t` under a constant jerk. -/
def Motion.after (s : Motion) (j t : Int) : Motion :=
  let t2 := fxMul t t
  let t3 := fxMul t2 t
  { p := s.p + fxMul s.v t + fxMul s.a t2 / 2 + fxMul j t3 / 6
    v := s.v + fxMul s.a t + fxMul j t2 / 2
    a := s.a + fxMul j t }

/-- A path of constant-jerk segments, as (jerk, duration); after the last one the acceleration is 0. -/
abbrev Path := List (Int × Int)

/-- The motion after time `t` on a path. -/
def follow (s : Motion) : Path → Int → Motion
  | [], t => ({ s with a := 0 } : Motion).after 0 t
  | (j, d) :: rest, t => if t ≤ d then s.after j t else follow (s.after j d) rest (t - d)

/-- The duration of a path. -/
def Path.time (p : Path) : Int := (p.map (·.2)).sum

/-- The fastest path to velocity `vt` without acceleration: raise the acceleration to a peak, hold it at the limit, and
bring it back to 0. -/
def velocityPath (s : Motion) (vt am jm : Int) : Path :=
  let direct := s.v + (if 0 ≤ s.a then 1 else -1) * (fxDiv (fxMul s.a s.a) jm / 2)
  let d : Int := if direct < vt then 1 else -1
  let a := d * s.a
  let dv := d * (vt - s.v)
  let peak := fxSqrt (fxMul jm dv + fxMul a a / 2)
  let top := if am < peak then am else peak
  let t1 := fxDiv (if a ≤ top then top - a else a - top) jm
  let up : Int := if a ≤ top then d * jm else -(d * jm)
  let gained := (if a ≤ top then fxDiv (2 * fxMul top top - fxMul a a) jm else fxDiv (fxMul a a) jm) / 2
  let hold := if top = am ∧ 0 < am then max 0 (fxDiv (dv - gained) am) else 0
  [(up, t1), (0, hold), (-(d * jm), fxDiv top jm)]

/-- Where the fastest stop from a motion ends. -/
def stopEnd (s : Motion) (am jm : Int) : Int :=
  let p := velocityPath s 0 am jm
  (follow s p p.time).p

/-- The latest time on the path `u` from which the fastest stop still does not pass `g`, by halving `lo` to `hi`. -/
def switchTime (s : Motion) (u : Path) (d g am jm : Int) : Nat → Int → Int → Int
  | 0, lo, _ => lo
  | n + 1, lo, hi =>
    let mid := (lo + hi) / 2
    if d * (g - stopEnd (follow s u mid) am jm) < 0 then switchTime s u d g am jm n lo mid
    else switchTime s u d g am jm n mid hi

/-- The generator after a period `t`: motion, at target, overshoot planned (R257). The profile moves towards the velocity
limit on the target's side as fast as it may, and stops as fast as it may from the moment when that stop ends at the
target. -/
def profileStep (s : Motion) (g vl am jm t : Int) : Motion × Bool × Bool :=
  let e := stopEnd s am jm
  let beyond := (decide (s.p ≤ g) && decide (g + fxMargin < e)) || (decide (g ≤ s.p) && decide (e + fxMargin < g))
  let d : Int := if e + fxMargin < g then 1 else if g + fxMargin < e then -1 else 0
  let u := velocityPath s (d * vl) am jm
  if d ≠ 0 ∧ fxMargin < d * (g - stopEnd (follow s u t) am jm) then (follow s u t, false, beyond)
  else
    let ts := if d = 0 then 0 else switchTime s u d g am jm 260 0 t
    let m := follow s u ts
    let w := velocityPath m 0 am jm
    if ts + w.time ≤ t + fxMargin then (⟨g, 0, 0⟩, true, beyond) else (follow m w (t - ts), false, beyond)

/-- A generator with values as exact numbers and the period in microseconds: nothing when its limits are not valid.
DEDUCED: log entry 37. -/
def profile (p v a g vl am jm : Dy) (periodUs : Nat) : Option (Dy × Dy × Dy × Bool × Bool) :=
  if am.n ≤ 0 ∨ jm.n ≤ 0 ∨ vl.n < 0 then none
  else
    let r := profileStep ⟨p.fx, v.fx, a.fx⟩ g.fx vl.fx am.fx jm.fx (fxOne * periodUs / 1000)
    some (fxDy r.1.p, fxDy r.1.v, fxDy r.1.a, r.2.1, r.2.2)

end Sys2Proof.Machine
end

