-- ==== Sys2Proof/Machine/StringOps.lean ====
section
/-!
DEFINITION. String instructions (R255 to R259): EMIT, TRIM, PROF, the test signals, the control record.
-/

namespace Sys2Proof.Machine

/-- An instruction of the fast section only, before its EMIT (R237). -/
def Mach.beforeEmit (m : Mach) (f : Mach → Issued) : Issued :=
  if m.inEst || m.spin.emitted then .trapped m TrapCode.illegal noLane else f m

/-- Entry of EMIT: the integer value of ply 0 modulo 2^16, bits [5:0] as 0 (R255). -/
def emitEntry (l : Lane) : BitVec 16 := BitVec.ofInt 16 (l.val 0).toInt32 &&& 0xFFC0

/-- The header without a TRIM (R255). -/
def BandHeader.none : BandHeader := ⟨false, false, 0, 0, 0⟩

/-- EMIT (R255). -/
def execEmit (a : VReg) (s : State) : Host.Outcome State Fault Refusal :=
  eff s (s.mach.relud (.mk1 [resV a] [] 2) fun m _ => m.beforeEmit fun m =>
    let h := m.spin.trim.getD BandHeader.none
    let e : EmitVec := { entries := Vector.ofFn fun n => emitEntry (m.vreg a n), bandValid := h.valid, bandLsb := h.lsb
                         iLo := h.lo, iMid := h.mid, iHi := h.hi }
    .done { m with fly := { m.fly with emit := some e }, spin := { m.spin with emitted := true } })

/-- TRIM (R256): a later one replaces the staged header. -/
def execTrim (lo mid hi : SReg) (valid lsb : Bool) (s : State) : Host.Outcome State Fault Refusal :=
  eff s (s.mach.relud (.mk1 [resS lo, resS mid, resS hi] [] 1) fun m _ => m.beforeEmit fun m =>
    let h : BandHeader :=
      { valid := valid, lsb := lsb, lo := (m.sreg lo).setWidth 16, mid := (m.sreg mid).setWidth 16
        hi := (m.sreg hi).setWidth 16 }
    .done { m with spin := { m.spin with trim := some h } })

/-! ## PROF (R257) -/

/-- One generator: ply `j` of a matrix buffer's rows. -/
def plyProfile (x : Vector Lane 8) (j periodUs : Nat) : Option (Dy × Dy × Dy × Bool × Bool) :=
  let e := fun i => entryOf x i j
  profile (e 0) (e 1) (e 2) (e 3) (e 4) (e 5) (e 6) periodUs

/-- The rows of a buffer after PROF: rows 0 to 2 normalised, row 7 in integer form, rows 3 to 6 as they were. -/
def profRows (x : Vector Lane 8) (mask : BitVec 8) (periodUs : Nat) : Vector (Lane × LaneFlags) 8 :=
  let rs := (List.range 8).map fun j => if mask.getLsbD j then plyProfile x j periodUs else none
  let r := fun j => (rs[j]?).getD none
  let bad : LaneFlags := if (List.range 8).any fun j => mask.getLsbD j && (r j).isNone then .invOnly else .none
  Vector.ofFn fun i =>
    let row := rowOf x i.val
    let num := fun (f : Dy × Dy × Dy × Bool × Bool → Dy) =>
      writeArith mask row fun j => unflagged (((r j).map f).getD (row.val j))
    if i.val = 0 then ((num (·.1)).1, (num (·.1)).2.or bad)
    else if i.val = 1 then num (·.2.1)
    else if i.val = 2 then num (·.2.2.1)
    else if i.val = 7 then
      (writeInt mask row fun j => BitVec.ofNat 24
        (((r j).map fun y => y.2.2.2.1.toNat + 2 * y.2.2.2.2.toNat).getD 0), LaneFlags.none)
    else (row, LaneFlags.none)

/-- PROF (R257). -/
def execProf (x : XReg) (mask : MReg) (s : State) : Host.Outcome State Fault Refusal :=
  eff s (s.mach.relud (.mk1 [resX x, resM mask] [resX x] 48) fun m _ => m.mxwrite x fun n =>
    profRows (m.mxreg x n) (m.mreg mask n) (m.get F.FLY_CYCLE_period))

/-! ## Test signals (R188, R258) -/

/-- One shift of the Fibonacci register of an order, stage 1 in bit 0 and the last stage in the top bit. -/
def lfsrStep (order tap st : Nat) : Nat :=
  (st * 2 + (if st.testBit (order - 1) != st.testBit (tap - 1) then 1 else 0)) % 2 ^ order

/-- The register's output after `k` shifts from all ones; the sequence repeats after 2^order − 1 shifts. -/
def prbsBit (order tap k : Nat) : Bool :=
  (Nat.repeat (lfsrStep order tap) (k % (2 ^ order - 1)) (2 ^ order - 1)).testBit (order - 1)

/-- The second tap of an order (R188). -/
def prbsTap (order : Nat) : Option Nat :=
  if order = 7 then some 6 else if order = 9 then some 5 else if order = 11 then some 9 else none

/-- The sine of an exact phase `x / den` in turns, normalised. -/
def phaseSin (x : Dy) (den : Nat) : Dy :=
  if 0 ≤ x.k then sinT (x.n * 2 ^ x.k.toNat) den else sinT x.n (den * 2 ^ (-x.k).toNat)

/-- The value of a signal in chip or cycle `i` of `len` with T in microseconds (R188, R258); none for a code or an order
that does not exist; `odd` stands for the value where a period of 0 leaves it open.
DEDUCED: log entry 37. -/
def signalVal (signal order period : Nat) (amp f0 f1 odd : Dy) (i len periodUs : Nat) : Option Dy :=
  if signal = 0 then some .zero
  else if signal = 1 then some amp
  else if signal = 2 then
    some (if period = 0 then odd else if i % (2 * period) < period then amp else amp.neg)
  else if signal = 3 then (prbsTap order).map fun tap =>
    if period = 0 then odd else if prbsBit order tap (i / period) then amp else amp.neg
  else if signal = 4 then
    let lin := f0.mul (Dy.ofInt (2 * len * i * periodUs))
    let quad := (f1.sub f0).mul (Dy.ofInt (i * i * periodUs))
    some (amp.mul (phaseSin (lin.add quad) (2 * len * 1000000)))
  else none

/-- INJ's result lane: ply 0 the signal, ply 1 whether it is active. -/
def injLane (v : Dy) (active : Bool) : Lane × LaneFlags :=
  normalise (v :: Dy.ofInt active.toNat :: List.replicate 6 Dy.zero)

/-- Write an INJ result into every lane. -/
def Mach.injWrite (m : Mach) (d : VReg) (v : Option Dy) (active : Bool) : Issued :=
  let r := injLane (if active then v.getD .zero else .zero) active
  m.vwrite d fun _ => (r.1, if v.isNone then r.2.or .invOnly else r.2)

/-- INJ with a descriptor (R258). -/
def Mach.injBody (m : Mach) (d : VReg) (off cyc : Word) : Issued :=
  let o := scalarAddr off
  if 0x10000 < o + 28 then .trapped m TrapCode.bankAddr noLane
  else
    let m := m.meetBank o 28
    let w := fun k => m.bankWord (o + 4 * k)
    let i := (cyc - w 1).toNat
    let len := (w 2).toNat
    let v := signalVal (fieldOf (w 0) 0 4) (fieldOf (w 0) 24 8) (w 4).toNat (bfpVal (w 3)) (bfpVal (w 5)) (bfpVal (w 6))
      (bfpVal (Config.injOpen ((List.range 7).map w) i)) i len (m.get F.FLY_CYCLE_period)
    (m.bankPoison o 28 noLane).getD (m.injWrite d v (decide (i < len)))

/-- INJ (R258), func 0x00. -/
def execInj (d : VReg) (a b : SReg) (s : State) : Host.Outcome State Fault Refusal :=
  eff s (s.mach.relud (.mk1 [resS a, resS b] [resV d] 24) fun m _ => m.injBody d (m.sreg a) (m.sreg b))

/-- INJ with a tone table (R258). -/
def Mach.multisineBody (m : Mach) (d : VReg) (off cyc : Word) : Issued :=
  let o := scalarAddr off
  if 0x10000 < o + 12 then .trapped m TrapCode.bankAddr noLane
  else
    let w := fun k => m.bankWord (o + 4 * k)
    let n := fieldOf (w 0) 0 4
    let ok := decide (1 ≤ n ∧ n ≤ 8)
    let size := if ok then 12 + 12 * n else 12
    if 0x10000 < o + size then .trapped m TrapCode.bankAddr noLane
    else
      let m := m.meetBank o size
      let i := (cyc - w 1).toNat
      let v := if ok then some (Dy.sum ((List.range n).map fun k =>
          let x := (bfpVal (w (3 + 3 * k))).mul (Dy.ofInt (i * m.get F.FLY_CYCLE_period))
          let ph := (bfpVal (w (5 + 3 * k))).mul (Dy.ofInt 1000000)
          (bfpVal (w (4 + 3 * k))).mul (phaseSin (x.add ph) 1000000)))
        else none
      (m.bankPoison o size noLane).getD (m.injWrite d v (decide (i < (w 2).toNat)))

/-- INJ (R258), func 0x01. -/
def execInjMultisine (d : VReg) (a b : SReg) (s : State) : Host.Outcome State Fault Refusal :=
  eff s (s.mach.relud (.mk1 [resS a, resS b] [resV d] 24) fun m _ => m.multisineBody d (m.sreg a) (m.sreg b))

/-! ## The control record (R162, R259) -/

/-- The word of a channel: the BFP word, or for channel 15 the mantissa sign-extended. -/
def recordWord (c : Nat) (l : Lane) : Word := if c = 15 then l.m[0].signExtend 32 else bfpOf l.m[0] l.e

/-- SKREC (R259): the channels whose bit 0 of the mask in their lane is 1. -/
def execSkrec (a : VReg) (mask : MReg) (s : State) : Host.Outcome State Fault Refusal :=
  eff s (s.mach.relud (.mk1 [resV a, resM mask] [] 2) fun m _ => m.beforeEmit fun m =>
    let r : Vector (Option Word) 16 := Vector.ofFn fun c =>
      if (m.mreg mask c).getLsbD 0 then some (recordWord c (m.vreg a c)) else m.spin.ctlRec[c]
    .done { m with spin := { m.spin with ctlRec := r } })

end Sys2Proof.Machine
end

