-- ==== Sys2Proof/Machine/RefValues.lean ====
section
/-!
DEFINITION. The reference control program's numbers and parameters: exact values and their BFP words, the three sections of
the parameter bank with their defaults and checks (R194, R267, R276, R279, R286, R299, R319), and the copies it keeps.
-/

namespace Sys2Proof.Machine

/-! ## Numbers -/

/-- The power of 2 of an exponent. -/
def ratPow (e : Int) : Rat := if 0 ≤ e then ((2 ^ e.toNat : Nat) : Rat) else mkRat 1 (2 ^ (-e).toNat)

/-- The magnitude of a number. -/
def ratAbs (x : Rat) : Rat := if x < 0 then -x else x

/-- The smaller and the larger of two numbers. -/
def ratMin (x y : Rat) : Rat := if y < x then y else x

def ratMax (x y : Rat) : Rat := if x < y then y else x

/-- A number within limits. -/
def ratClamp (lo hi x : Rat) : Rat := ratMax lo (ratMin hi x)

/-- The exponent of the leading bit of a non-zero number. -/
def ratLead (x : Rat) : Int :=
  let e : Int := x.num.natAbs.log2 - x.den.log2
  if ratAbs x < ratPow e then e - 1 else e

/-- A number as a BFP word: itself where it is one, else the next larger or the next smaller one, as quantity `k` leaves
it open.
DESIGN CHOICE: log entry 51. -/
def refWord (k : Nat) (x : Rat) : Word :=
  if x.num = 0 then bfpZero
  else
    let e := ratLead x - 22
    let n := if 0 ≤ e then x.num else x.num * 2 ^ (-e).toNat
    let d : Int := if 0 ≤ e then (x.den : Int) * 2 ^ e.toNat else x.den
    if n % d = 0 then toBfp ⟨n / d, e⟩ else toBfp ⟨if Config.refUp k x then n / d + 1 else n / d, e⟩

/-- A number rounded half to even to an integer.
DESIGN CHOICE: log entry 51. -/
def ratRound (x : Rat) : Int := roundHalfEven x.num x.den

/-- A number as the nearest BFP value: the limits and defaults of the parameters are held so.
DEDUCED: log entry 52. -/
def near (x : Rat) : Rat := ratOf (toBfp (Dy.ratio x.num x.den))

/-- The sum of a list of numbers. -/
def ratSum (xs : List Rat) : Rat := xs.foldl (· + ·) 0

/-- A value lies within limits. -/
def between (x lo hi : Rat) : Bool := decide (near lo ≤ x) && decide (x ≤ near hi)

/-! ## The sections' copies -/

/-- The defaults of R194.
DEDUCED: log entry 52. -/
def ctlDefaults : List (Nat × Rat) :=
  [(0x00, 1 / 5000), (0x04, 11 / 1000), (0x08, 320), (0x0C, 5), (0x10, 1 / 2), (0x14, 2), (0x18, 1 / 2), (0x1C, 0),
   (0x20, 100), (0x24, 50), (0x28, 100), (0x2C, 1250), (0x30, 25), (0x34, 2), (0x38, 320), (0x3C, 3 / 2), (0x40, 6),
   (0x44, 1 / 5), (0x48, 20), (0x4C, 2), (0x50, 1), (0x54, 4 / 5), (0x58, 4), (0x5C, 1 / 50), (0x60, 1 / 2), (0x94, 1),
   (0x98, 1000)]

/-- The defaults of R267.
DEDUCED: log entry 52. -/
def estDefaults : List (Nat × Rat) :=
  [(0x100, 305), (0x104, 1 / 4000), (0x108, 3 / 20000), (0x10C, 30), (0x110, 1 / 1000), (0x114, 1 / 100000000),
   (0x118, 1 / 100000000), (0x11C, 100), (0x128, 3 / 10), (0x12C, 1), (0x130, 20), (0x134, 1 / 10), (0x144, 14400),
   (0x148, 1 / 20), (0x14C, 3 / 20), (0x150, 3 / 100), (0x154, 1 / 20), (0x158, 1 / 100), (0x15C, 2500),
   (0x160, 1 / 3125)]

/-- The defaults of R319.
DEDUCED: log entry 52. -/
def protDefaults : List (Nat × Rat) :=
  [(0x6000, 15 / 4), (0x6004, 5 / 2), (0x6008, 37 / 10), (0x600C, 14 / 5), (0x6010, 73 / 20), (0x6014, 71 / 20),
   (0x6018, 29 / 10), (0x601C, 3), (0x6020, 0), (0x6024, 45), (0x6028, 1), (0x602C, 2), (0x6030, 5), (0x6034, 10),
   (0x6038, 65), (0x603C, 60), (0x6040, 1 / 2), (0x6044, 600), (0x6048, 10), (0x604C, 1 / 2)]

/-- The default of an offset: the nearest BFP value. -/
def defaultOf (l : List (Nat × Rat)) (o : Nat) : Rat := ((l.find? (·.1 == o)).map fun x => near x.2).getD 0

/-- A word of a copy that begins at bank offset `base`. -/
def copyWord (ws : List Word) (base o : Nat) : Word := ws.getD ((o - base) / 4) 0

/-- A control parameter in use. -/
def RefProgState.ctl (p : RefProgState) (o : Nat) : Rat :=
  if p.params.isEmpty then defaultOf ctlDefaults o else ratOf (copyWord p.params 0 o)

/-- An integer of the injection section in use (R194): by default 0, and inj_period 1. -/
def RefProgState.inj (p : RefProgState) (o : Nat) : Nat :=
  if p.params.isEmpty then (if o = 0x90 then 1 else 0) else (copyWord p.params 0 o).toNat

/-- An estimation parameter in use. -/
def RefProgState.estv (p : RefProgState) (o : Nat) : Rat :=
  if p.est.isEmpty then defaultOf estDefaults o else ratOf (copyWord p.est 0x100 o)

/-- An integer of the estimation section in use: bal_en 1, meas_mode 0, lea_cycles 3 000 000, t_tone 5, r_tone 7, and
empty tables, by default. -/
def RefProgState.esti (p : RefProgState) (o : Nat) : Nat :=
  if p.est.isEmpty then
    if o = 0x120 then 1 else if o = 0x138 then 3000000 else if o = 0x13C then 5 else if o = 0x140 then 7 else 0
  else (copyWord p.est 0x100 o).toNat

/-- A protection parameter in use. -/
def RefProgState.protv (p : RefProgState) (o : Nat) : Rat :=
  if p.prot.isEmpty then defaultOf protDefaults o else ratOf (copyWord p.prot 0x6000 o)

/-- An integer of the protection section in use: ow_max_nodes and tlost_max are 2 by default. -/
def RefProgState.proti (p : RefProgState) (o : Nat) : Nat :=
  if p.prot.isEmpty then 2 else (copyWord p.prot 0x6000 o).toNat

/-- The points of a curve (R305). -/
def RefProgState.curve (p : RefProgState) (charge : Bool) : List (Rat × Rat) :=
  if p.prot.isEmpty then
    (if charge then [(0, 1 / 10), (10, 1 / 2), (15, 1), (40, 1), (45, 1 / 4)]
     else [(-20, 1 / 4), (-10, 1 / 2), (0, 1), (50, 1), (55, 1 / 4)]).map fun x => (near x.1, near x.2)
  else
    let b := if charge then 0x6060 else 0x60B0
    (List.range (p.proti b)).map fun i => (p.protv (b + 4 + 8 * i), p.protv (b + 8 + 8 * i))

/-- The tones of the multi-sine: frequency, amplitude, phase (R258). -/
def RefProgState.tones (p : RefProgState) : List (Word × Word × Word) :=
  if p.est.isEmpty then []
  else (List.range (p.esti 0x200 % 16)).map fun k =>
    let w := fun i => copyWord p.est 0x100 (0x20C + 12 * k + 4 * i)
    (w 0, w 1, w 2)

/-! ## Checks -/

/-- Every word of a range is 0. -/
def allZero (w : Nat → Word) (lo hi : Nat) : Bool := (List.range ((hi - lo) / 4)).all fun i => w (lo + 4 * i) == 0

/-- A list rises strictly; with `strict` false it does not fall. -/
def rises (strict : Bool) : List Rat → Bool
  | x :: y :: rest => (if strict then decide (x < y) else decide (x ≤ y)) && rises strict (y :: rest)
  | _ => true

/-- Values within the ranges of a table.
DEDUCED: log entry 52. -/
def rangesOk (w : Nat → Word) (l : List (Nat × Rat × Rat)) : Bool := l.all fun x => between (ratOf (w x.1)) x.2.1 x.2.2

/-- The largest amplitude at an injection point (R189). -/
def ampLimit (point : Nat) : Rat := if point = 0 then 32 else if point = 1 then 50 else 20

/-- The control section is in range (R188, R189, R194). -/
def controlOk (w : Nat → Word) (tUs : Nat) : Bool :=
  let v := fun o => ratOf (w o)
  let ctrl := w 0x80
  let sig := fieldOf ctrl 0 4
  let point := fieldOf ctrl 4 2
  let top : Rat := mkRat 500000 tUs
  rangesOk w
    [(0x00, 1 / 100000, 1 / 100), (0x04, 0, 1), (0x08, 1, 2000), (0x0C, 0, v 0 * 1000000 / tUs), (0x10, 0, 1),
     (0x14, 0, 10), (0x18, 0, 1), (0x1C, 0, 100), (0x20, 1, 1500), (0x24, 1, 10000), (0x28, 1, 100000),
     (0x2C, 100, 1800), (0x30, 0, 200), (0x34, 0, 50), (0x38, 0, v 8), (0x3C, 1 / 100, 10), (0x40, 1 / 2, 50),
     (0x44, 0, 2), (0x4C, 1 / 2, 8), (0x50, 1 / 2, 4), (0x54, 1 / 10, 10), (0x58, 1, 50), (0x5C, 1 / 200, 1 / 5),
     (0x60, 0, 5), (0x8C, 0, ampLimit point), (0x94, 1 / 20, top), (0x98, v 0x94, top)]
  && (v 0x48 == 0 || between (v 0x48) 2 100)
  && decide (sig ≤ 5) && decide (point ≤ 2) && (sig != 3 || (prbsTap (fieldOf ctrl 24 8)).isSome)
  && (sig != 5 || point == 0) && decide ((w 0x88).toNat ≤ 2 ^ 24) && decide (1 ≤ (w 0x90).toNat)
  && decide ((w 0x90).toNat ≤ 65535) && allZero w 0x64 0x80 && allZero w 0x9C 0x100

/-- A tone: its frequency is that of a whole number of periods in a lea, as a BFP word (R276).
DEDUCED: log entry 52. -/
def toneOk (f : Rat) (lea tUs d : Nat) : Bool :=
  let k := ratRound (f * lea * tUs / 1000000)
  between f (1 / 20) 2000 && decide (f ≤ near (mkRat 400000 (d * tUs))) && decide (3 ≤ k)
    && decide (near (k * 1000000 / (lea * tUs : Nat)) = f)

/-- The Schroeder phase of tone `k` of `n`, within 2^-16 turn (R276). -/
def phaseOk (ph : Rat) (k n : Nat) : Bool :=
  let x := ph + mkRat (k * (k + 1)) (2 * n)
  decide (ratAbs (x - ratRound x) ≤ mkRat 1 65536)

/-- The multi-sine table (R258, R276).
DEDUCED: log entry 52. -/
def multisineOk (w : Nat → Word) (tUs d : Nat) : Bool :=
  let n := fieldOf (w 0x200) 0 4
  let lea := (w 0x138).toNat
  let t := fun k i => ratOf (w (0x20C + 12 * k + 4 * i))
  let ks := List.range n
  if n = 0 then fieldOf (w 0x80) 0 4 != 5
  else
    decide (n ≤ 8) && ks.all (fun k => toneOk (t k 0) lea tUs d && between (t k 1) (1 / 2) 4 && phaseOk (t k 2) k n)
    && decide (ratSum (ks.map fun k => t k 1) ≤ 32)
    && ks.all (fun k => ks.all fun j => j == k || t j 0 != t k 0)
    && lea % d == 0 && (w 0x204).toNat % d == 0

/-- The temperature table (R279): x rises strictly, the temperature falls strictly. -/
def tempTableOk (w : Nat → Word) : Bool :=
  let n := (w 0x300).toNat
  n == 0 || (decide (2 ≤ n) && decide (n ≤ 16)
    && rises true ((List.range n).map fun i => ratOf (w (0x304 + 8 * i)))
    && rises true ((List.range n).map fun i => -ratOf (w (0x308 + 8 * i))))

/-- The OCV table (R267, R268): with fewer than 8 points the program runs without state of charge.
DEDUCED: log entry 52. -/
def ocvTableOk (w : Nat → Word) : Bool :=
  let n := (w 0x400).toNat
  decide (n ≤ 32) && (decide (n < 8)
    || (rises true ((List.range n).map fun i => ratOf (w (0x404 + 12 * i)))
      && rises false ((List.range n).map fun i => ratOf (w (0x408 + 12 * i)))))

/-- The per-node arrays (R267), and in quiet mode the wire drops (R286). -/
def arraysOk (w : Nat → Word) : Bool :=
  let v := fun o => ratOf (w o)
  let rated := v 0x100
  (List.range 128).all fun n => (List.range 6).all fun j =>
    let cap := v (0x4000 + 32 * n + 4 * j)
    (cap == 0 || (decide (rated ≤ 2 * cap) && decide (5 * cap ≤ 6 * rated)))
      && between (v (0x5000 + 32 * n + 4 * j)) 0 100
      && (w 0x124 != 0
        || decide (534 * (v (0x1000 + 64 * n + 4 * j) + v (0x1020 + 64 * n + 4 * j)) ≤ 1 / 2))

/-- The estimation section is in range (R267). -/
def estimationOk (w : Nat → Word) (tUs d : Nat) : Bool :=
  let v := fun o => ratOf (w o)
  let n := fieldOf (w 0x200) 0 4
  let tone := fun o => decide ((w o).toNat ≤ 7) && (n == 0 || decide ((w o).toNat < n))
  rangesOk w
    [(0x100, 1, 2000), (0x104, 1 / 100000, 1 / 10), (0x108, 0, 1 / 10), (0x10C, 1, 3600), (0x110, 1 / 10000, 1 / 20),
     (0x114, 0, 1 / 100), (0x118, 0, 1 / 100), (0x11C, 1, 2500), (0x128, 1 / 20, 10), (0x12C, 1 / 10, 5),
     (0x130, 5, 90), (0x134, 1 / 100, 1), (0x144, 600, 86400), (0x148, 1 / 200, 1), (0x14C, v 0x148, 5),
     (0x150, 1 / 200, 1 / 2), (0x154, 1 / 50, 1), (0x158, 1 / 1000, v 0x154), (0x15C, 2450, 2550),
     (0x160, 1 / 10000, 1 / 100)]
  && decide ((w 0x120).toNat ≤ 1) && decide ((w 0x124).toNat ≤ 1) && tone 0x13C && tone 0x140
  && multisineOk w tUs d && tempTableOk w && ocvTableOk w && arraysOk w
  && allZero w 0x164 0x200 && allZero w 0x26C 0x300 && allZero w 0x384 0x400 && allZero w 0x584 0x1000

/-- A curve (R305, R319): points strictly rising within the window, fractions from 0 to 1. -/
def curveOk (w : Nat → Word) (b : Nat) (lo hi : Rat) : Bool :=
  let n := (w b).toNat
  let pts := (List.range (min n 8)).map fun i => (ratOf (w (b + 4 + 8 * i)), ratOf (w (b + 8 + 8 * i)))
  decide (2 ≤ n) && decide (n ≤ 8) && rises true (pts.map (·.1))
    && pts.all fun x => decide (lo ≤ x.1) && decide (x.1 ≤ hi) && decide (0 ≤ x.2) && decide (x.2 ≤ 1)

/-- The protection section is in range and in order (R319). -/
def protectionOk (w : Nat → Word) : Bool :=
  let v := fun o => ratOf (w o)
  rangesOk w
    [(0x6000, 18 / 5, 9 / 2), (0x6004, 3 / 2, 3), (0x6008, 71 / 20, 89 / 20), (0x600C, 8 / 5, 31 / 10),
     (0x6010, 17 / 5, 22 / 5), (0x6014, 33 / 10, 87 / 20), (0x6018, 17 / 10, 16 / 5), (0x601C, 9 / 5, 33 / 10),
     (0x6020, 0, 50), (0x6024, 5, 55), (0x6028, 1 / 5, 5), (0x602C, 1 / 2, 8), (0x6030, 1, 10), (0x6034, 2, 20),
     (0x6038, 50, 80), (0x603C, 45, 75), (0x6040, 0, 9 / 10), (0x6044, 60, 3600), (0x6048, 1, 1000), (0x604C, 0, 1)]
  && rises true ([0x6004, 0x600C, 0x6018, 0x601C, 0x6014, 0x6010, 0x6008, 0x6000].map v)
  && rises true ([0x6028, 0x602C, 0x6030, 0x6034].map v) && decide (v 0x603C < v 0x6038)
  && decide ((w 0x6050).toNat ≤ 16) && decide ((w 0x6054).toNat ≤ 16)
  && curveOk w 0x6060 (v 0x6020) (v 0x6024) && curveOk w 0x60B0 (-20) 55
  && allZero w 0x6058 0x6060 && allZero w 0x60A4 0x60B0 && allZero w 0x60F4 0x6100

/-- The comparator thresholds of the bank in force are those that the nodes have (R299); in OFF others may follow.
DEDUCED: log entry 52. -/
def Mach.thresholdsOk (m : Mach) : Bool :=
  m.runState == .off || m.positions.all fun n =>
    let x := m.chain.nodes.toList.getD n .init
    x.rom || (m.bankMv 0x6000 == x.ovMv.toNat && m.bankMv 0x6004 == x.uvMv.toNat)

/-- The three sections of the bank in force are accepted together. -/
def Mach.bankOk (m : Mach) : Bool :=
  let t := m.get F.FLY_CYCLE_period
  let w := m.bankWord
  controlOk w t && estimationOk w t m.cellDiv && protectionOk w && m.thresholdsOk

/-- The check of the bank in force (R194): accepted, the copies are its sections; else they stay.
DEDUCED: log entry 52. -/
def Mach.bankTake (m : Mach) : Mach × Bool :=
  if m.bankOk then
    ({ m with prog := { m.prog with
        params := (List.range 64).map fun i => m.bankWord (4 * i)
        est := (List.range 6080).map fun i => m.bankWord (0x100 + 4 * i)
        prot := (List.range 64).map fun i => m.bankWord (0x6000 + 4 * i) } }, true)
  else (m, false)

end Sys2Proof.Machine
end

