-- ==== Sys2Proof/Machine/RefFast.lean ====
section
/-!
DEFINITION. The fast section of the reference control program (R161 to R190, R148, R462): its sources and the loss ladder, the
references, the two laws with their hand-over, injection, modulation, and what it hands to the Flyer and the capture unit.
-/

namespace Sys2Proof.Machine

/-! ## What it reads -/

/-- A word of this cycle's frame. -/
def Mach.frameNow (m : Mach) (o : Nat) : Word := readMemWord m.mem (frameAddr m.cycle + o)

/-- A sense flag (R205). -/
def Mach.senseFlag (m : Mach) (i : Nat) : Bool := (m.frameNow 0x60).getLsbD i

/-- The run state in the requests word (R462). -/
def Mach.frameRun (m : Mach) : Nat := fieldOf (m.frameNow 0x64) 24 3

/-- Cycles since the start cycle. -/
def Mach.sinceStart (m : Mach) : Nat := (m.cycle - m.rd Reg.SPN_START_CYC).toNat

/-- The program's first cycle.
DEDUCED: log entry 53. -/
def Mach.startCycle (m : Mach) : Bool := m.sinceStart == 0

/-- T in seconds. -/
def Mach.periodRat (m : Mach) : Rat := mkRat (m.get F.FLY_CYCLE_period) 1000000

/-- The word of a source's current: 0 shunt, 1 fluxgate, 2 partner. -/
def Mach.sourceWord (m : Mach) (s : Nat) : Word := m.frameNow (0x40 + 4 * s)

/-- A source is hardware-healthy (R179). -/
def Mach.sourceOk (m : Mach) (s : Nat) : Bool := m.senseFlag (5 + s)

/-- The bus voltage; in a cycle without a sample it follows from the one before.
DEDUCED: log entry 54. -/
def Mach.refBusWord (m : Mach) : Word :=
  if m.senseFlag 4 then Config.refBus m.prog.loop.vBus else m.frameNow 0x50

/-- The stop request that stands in the string summary (R310, R311). -/
def Mach.stopStands (m : Mach) : Nat := (intForm (m.summary 6)).toNat

/-- The reference is being brought to 0: STOPPING, or an orderly stop decided (R310, R462). -/
def Mach.refStopping (m : Mach) : Bool := m.frameRun == 4 || (m.stopStands == 1 && m.frameRun == 3)

/-! ## Node voltages (R148) -/

/-- Cycles without a valid slot or record since the program started. -/
def Mach.ageSince (m : Mach) (ages : Vector Nat 128) (n : Nat) : Nat := min (ages.toList.getD n 0) m.sinceStart

/-- v[n] by the newest data; nothing before the first valid v_term or record. -/
def Mach.nodeVolt (m : Mach) (n : Nat) : Option Rat :=
  let ch := m.chain
  let sAge := m.ageSince ch.slotAge n
  let term := if sAge < m.sinceStart then (m.lastSlot n).map fun w => mkRat (slotMv w) 1000 else none
  let cells := if m.ageSince ch.recAge n < m.sinceStart then
      (ch.lastRec.toList.getD n none).map fun ws =>
        let bs := recordBytes ws
        mkRat ((List.range (min 6 (m.cellsOf n))).map fun j => (recHalf bs (2 + 2 * j)).toNat).sum 10000
    else none
  if sAge ≤ 2 ∧ term.isSome then term else if cells.isSome then cells else term

/-- v[n] is unavailable, or the node counts as one without it: temperature-lost, or a hard short (R148, R282, R303). -/
def Mach.nodeGone (m : Mach) (n : Nat) : Bool :=
  let x := m.prog.nodes.toList.getD n .init
  (decide (50 ≤ m.ageSince m.chain.slotAge n) && decide (max 50 (2 * m.cellDiv + 2) ≤ m.ageSince m.chain.recAge n))
    || x.lost || x.hard

/-- The stack voltages of the nodes. -/
def Mach.nodeVolts (m : Mach) : List (Nat × Rat) := m.positions.filterMap fun n => (m.nodeVolt n).map fun v => (n, v)

/-- The nodes available to modulation, with their voltages. -/
def Mach.availVolts (m : Mach) : List (Nat × Rat) :=
  m.nodeVolts.filter fun x => !(m.fly.lanes.toList.getD x.1 .init).forced && !m.nodeGone x.1

/-- u_a: the voltage that the commands launched for this cycle apply (R161). -/
def Mach.appliedVolt (m : Mach) : Rat :=
  ratSum (m.nodeVolts.map fun x =>
    let l := m.fly.lanes.toList.getD x.1 .init
    if l.last.cmd = .insert then x.2 else if l.last.cmd = .trim then x.2 * l.last.duty.toNat / 128 else 0)

/-! ## The current sources (R179 to R182) -/

/-- The sign of the proof dither in a cycle (R180).
DEDUCED: log entry 55. -/
def ditherSign (k : Word) : Rat := if k.toNat % 8 < 4 then 1 else -1

/-- a_d of a source in cycle `k`. -/
def ditherSeen (values nd : List Word) (k : Word) : Rat :=
  ratSum ((List.range 8).map fun j =>
    ditherSign (k - 1 - BitVec.ofNat 32 j) * (ratOf (values.getD j 0) - ratOf (nd.getD j 0))) / 8

/-- One cycle of a source: its values while it is hardware-healthy, the runs that show it frozen (R180). `dither` says that the
first test is made. -/
def RefWatch.look (w : RefWatch) (ok : Bool) (x : Word) (nd : List Word) (k : Word) (dither : Bool) (amp : Rat) : RefWatch :=
  if ok then
    let values := (x :: w.values).take 8
    let low := dither && values.length == 8 && nd.length == 8 && decide (4 * ditherSeen values nd k < amp)
    let same := if w.values.head? = some x then min 8 (w.same + 1) else 1
    let lowRun := if low then min 8 (w.lowRun + 1) else 0
    { w with values := values, same := same, lowRun := lowRun, frozen := same == 8 || lowRun == 8 }
  else { w with values := [], same := 0, lowRun := 0, frozen := false }

/-- Whether a source is healthy after this cycle (R182).
DEDUCED: log entry 54. -/
def RefWatch.judge (w : RefWatch) (would : Bool) : RefWatch :=
  let run := if would then min 1000 (w.okRun + 1) else 0
  { w with okRun := run, healthy := would && (w.healthy || run == 1000) }

/-- A difference to the shunt is kept (R184). -/
def RefWatch.keepDiff (w : RefWatch) (both : Bool) (x sh : Word) : RefWatch :=
  if both then { w with diffs := (refWord 19 (ratOf sh - ratOf x) :: w.diffs).take 64 } else w

/-- The tolerance of R181. -/
def Mach.agreeWithin (m : Mach) : Rat :=
  ratMax (m.prog.ctl 0x58) (m.prog.ctl 0x5C * ratAbs (ratOf (m.sourceWord 0)))

/-- The supervision of the sources in one cycle, with ev_frozen and ev_disagree.
DEDUCED: log entry 54. -/
def Mach.refWatch (m : Mach) : Mach × Bool × Bool :=
  let p := m.prog
  let k := m.cycle
  let dither := m.brkClosed && (m.frameRun == 3 || m.frameRun == 4)
  let ws : Vector RefWatch 3 := Vector.ofFn fun s =>
    p.watch[s].look (m.sourceOk s.val) (m.sourceWord s.val) p.loop.nd k dither (p.ctl 0x50)
  let both := m.sourceOk 0 && m.sourceOk 1
  let apart := both && decide (m.agreeWithin < ratAbs (ratOf (m.sourceWord 0) - ratOf (m.sourceWord 1)))
  let run := if apart then min 50 (p.disagree + 1) else 0
  let low := if ditherSeen ws[0].values p.loop.nd k < ditherSeen ws[1].values p.loop.nd k then 0 else 1
  let found := run == 50 && p.disputed.isNone
  let disputed := if run = 50 then some (p.disputed.getD low) else none
  let froze := (List.range 3).any fun s =>
    (ws.toList.getD s .init).frozen && !(p.watch.toList.getD s .init).frozen
  let ws : Vector RefWatch 3 := Vector.ofFn fun s =>
    (ws[s].judge (m.sourceOk s.val && !ws[s].frozen && disputed != some s.val)).keepDiff
      (m.sourceOk 0 && m.sourceOk s.val) (m.sourceWord s.val) (m.sourceWord 0)
  ({ m with prog := { p with watch := ws, disagree := run, disputed := disputed } }, froze, found)

/-! ## The loss ladder (R183, R184) -/

/-- The offset to a source: the mean difference of 64 cycles, or 0 with fewer; 0 to the shunt itself. -/
def Mach.offsetTo (m : Mach) (s : Nat) : Word :=
  let d := (m.prog.watch.toList.getD s .init).diffs
  if s = 0 ∨ d.length < 64 then bfpZero else refWord 16 (ratSum (d.map ratOf) / 64)

/-- A switch decided in the cycle before applies.
DEDUCED: log entry 54. -/
def Mach.switchTake (m : Mach) (l : RefLoop) : RefLoop × Bool :=
  match l.next with
  | none => (l, false)
  | some s =>
    ({ l with next := none, src := s, offset := m.offsetTo s, ladder := if s = 0 then 0 else 1, predict := 0 }, true)

/-- BLOCKED ends when the run state enters OFF or STARTING: PRIMARY again. -/
def RefLoop.unblock (l : RefLoop) (run : Nat) : RefLoop :=
  if l.ladder = 3 ∧ run ≤ 1 ∧ 1 < l.runWas then { l with ladder := 0, src := 0, predict := 0, next := none, offset := bfpZero }
  else l

/-- PREDICT has lasted 10 cycles, or current and reference have come below 2 A. -/
def RefLoop.worn (l : RefLoop) : Bool :=
  l.ladder == 2 && (decide (10 ≤ l.predict) || (decide (ratAbs (ratOf l.iP1) < 2) && decide (ratAbs (ratOf l.r2) < 2)))

/-- The ladder in one cycle, and whether the source changed in it. `agrees` says that the shunt agrees with the current in
use. -/
def RefLoop.climb (l : RefLoop) (healthy : Nat → Bool) (agrees : Bool) : RefLoop × Bool :=
  if l.ladder = 3 then (l, false)
  else if l.src < 3 && healthy l.src then
    if l.src ≠ 0 && healthy 0 && agrees then
      ({ l with src := 0, offset := bfpZero, ladder := 0, predict := 0 }, true)
    else ({ l with ladder := if l.src = 0 then 0 else 1, predict := 0 }, false)
  else match [0, 1, 2].find? healthy with
    | some s => ({ l with next := some s, ladder := if l.src = 3 then l.ladder else if s = 0 then 0 else 1 }, false)
    | none => ({ l with src := 3, ladder := if l.worn then 3 else 2, predict := l.predict + 1 }, false)

/-- The value of the source in use with its offset. -/
def Mach.currentInUse (m : Mach) (l : RefLoop) : Rat := ratOf (m.sourceWord l.src) + ratOf l.offset

/-- The ladder of this cycle, with ev_fb_switch and ev_fb_trip.
DEDUCED: log entry 54. -/
def Mach.refLadder (m : Mach) : RefLoop × Bool × Bool :=
  let l0 := m.prog.loop.unblock m.frameRun
  let a := m.switchTake l0
  let agrees := decide (ratAbs (ratOf (m.sourceWord 0) - m.currentInUse a.1) ≤ m.agreeWithin)
  let b := a.1.climb (fun s => (m.prog.watch.toList.getD s .init).healthy) agrees
  (b.1, a.2 || b.2, b.1.ladder == 3 && l0.ladder != 3)

/-- The law uses the prediction in this cycle: no source, or its data are missing (R183, R184).
DEDUCED: log entry 54. -/
def Mach.predicts (m : Mach) (l : RefLoop) : Bool := decide (3 ≤ l.src) || m.senseFlag l.src

/-! ## Injection (R188 to R190) -/

/-- Start and length of the injection set in the copies: the table's for the multi-sine (R276). -/
def RefProgState.injSpan (p : RefProgState) : Word × Nat :=
  if p.inj 0x80 % 16 = 5 then (BitVec.ofNat 32 (p.esti 0x204), p.esti 0x208)
  else (BitVec.ofNat 32 (p.inj 0x84), p.inj 0x88)

/-- Whether the injection runs in cycle `k`, as far as the ladder and run state let it. -/
def RefProgState.injRuns (p : RefProgState) (k : Word) : Bool :=
  let s := p.injSpan
  let on := p.inj 0x80 % 16 != 0 && decide ((k - s.1).toNat < s.2)
  if p.loop.injOn then on && p.loop.injUsed == some s.1 else on && k == s.1 && p.loop.injUsed != some s.1

/-- The signal of cycle `k` (R258). -/
def RefProgState.injSignal (p : RefProgState) (k : Word) (tUs : Nat) : Word :=
  let s := p.injSpan
  let i := (k - s.1).toNat
  let c := BitVec.ofNat 32 (p.inj 0x80)
  if fieldOf c 0 4 = 5 then
    toBfp (Dy.sum (p.tones.map fun t =>
      let x := (bfpVal t.1).mul (Dy.ofInt (i * tUs))
      (bfpVal t.2.1).mul (phaseSin (x.add ((bfpVal t.2.2).mul (Dy.ofInt 1000000))) 1000000)))
  else
    let w := fun o => bfpVal (copyWord p.params 0 o)
    toBfp ((signalVal (fieldOf c 0 4) (fieldOf c 24 8) (p.inj 0x90) (w 0x8C) (w 0x94) (w 0x98) .zero i s.2 tUs).getD .zero)

/-! ## References (R166 to R172) -/

/-- Towards 0 by at most a step. -/
def towardsZero (x step : Rat) : Rat := if 0 < x then ratMax 0 (x - step) else ratMin 0 (x + step)

/-- The limits of R167: of charge and of discharge. -/
def Mach.refLimits (m : Mach) : Rat × Rat :=
  let p := m.prog
  let w := m.frameNow 0x58
  let least := fun (host : Nat) (perm : Word) => ratMin (ratMin (mkRat host 10) (p.ctl 0x08)) (ratOf perm)
  (least (fieldOf w 0 16) p.glob.iChg, least (fieldOf w 16 16) p.glob.iDis)

/-- A reference within the limits. -/
def Mach.refLimit (m : Mach) (x : Rat) : Rat := ratClamp (-m.refLimits.1) m.refLimits.2 x

/-- The target of the host: 0 when the set-point has expired (R166).
DEDUCED: log entry 55. -/
def Mach.hostTarget (m : Mach) : Rat := if m.senseFlag 11 then 0 else mkRat (m.frameNow 0x54).toInt 1000

/-- The droop target from the bus voltage (R168). -/
def RefProgState.droopTarget (p : RefProgState) (vBus : Rat) : Rat :=
  let x := p.ctl 0x2C - vBus
  let db := p.ctl 0x34
  let y := if x < 0 then p.ctl 0x30 * ratMin 0 (x + db) else p.ctl 0x30 * ratMax 0 (x - db)
  ratClamp (-p.ctl 0x38) (p.ctl 0x38) y

/-- The droop path's next output. -/
def Mach.droopStep (m : Mach) (q vBus : Rat) : Rat :=
  let t := m.prog.droopTarget vBus
  let s := m.prog.ctl 0x3C * m.get F.FLY_CYCLE_period
  ratClamp (q - s) (q + s) t

/-- Seeds of generator and droop path at a change of the reference source (R170); r1 is `l.r2`. -/
def RefLoop.seed (l : RefLoop) (src : RefSource) : RefLoop :=
  if src = l.refSrc then l
  else
    let l' := { l with refSrc := src }
    match l.refSrc, src with
    | .hostSetpoint, .combined => { l' with q := bfpZero }
    | .combined, .hostSetpoint => { l' with p := l.r2 }
    | _, .busDroop => { l' with q := l.r2 }
    | .busDroop, .hostSetpoint => { l' with p := l.r2, v := bfpZero, a := bfpZero }
    | .busDroop, .combined => { l' with p := l.r2, v := bfpZero, a := bfpZero, q := bfpZero }
    | _, _ => l'

/-- The profile moves, or is about to move, towards higher current. -/
def RefLoop.movesUp (l : RefLoop) : Bool :=
  if 0 < ratOf l.v then true else if ratOf l.v < 0 then false else decide (ratOf l.p < ratOf l.target)

/-- The velocity limit by the direction of motion (R172). -/
def Mach.speedLimit (m : Mach) (l : RefLoop) (vBus uAvail : Rat) : Rat :=
  let p := m.prog
  let drop := p.ctl 0x04 * ratOf l.p
  let room := if l.movesUp then uAvail - p.ctl 0x1C - vBus - drop else vBus + drop
  ratMin (p.ctl 0x20) (ratMax 0 (room / p.ctl 0 / 1000))

/-- The generator advances by one cycle (R171, R257); a clamp holds it (R172). -/
def Mach.generatorStep (m : Mach) (l : RefLoop) (vBus uAvail : Rat) : RefLoop :=
  if l.held then { l with v := bfpZero, a := bfpZero }
  else
    let w := fun o => bfpVal (toBfp (Dy.ratio (m.prog.ctl o).num (m.prog.ctl o).den))
    let vl := bfpVal (refWord 18 (m.speedLimit l vBus uAvail))
    match profile (bfpVal l.p) (bfpVal l.v) (bfpVal l.a) (bfpVal l.target) vl (w 0x24) (w 0x28) (m.get F.FLY_CYCLE_period) with
    | some y => { l with p := toBfp y.1, v := toBfp y.2.1, a := toBfp y.2.2.1 }
    | none => l

/-- The reference for the instant after the next, without dither and signal, in RUN on a source (R169).
DEDUCED: log entry 55. -/
def Mach.refMove (m : Mach) (l : RefLoop) (vBus vDroop uAvail : Rat) : RefLoop :=
  let l := l.seed (RefSource.ofCode (fieldOf (m.frameNow 0x64) 3 2))
  let l := { l with q := refWord 10 (m.droopStep (ratOf l.q) vDroop) }
  let l := if l.refSrc = .busDroop then l else m.generatorStep l vBus uAvail
  let r := match l.refSrc with
    | .hostSetpoint => ratOf l.p
    | .busDroop => ratOf l.q
    | .combined => ratOf l.p + ratOf l.q
  { l with r2nd := refWord 17 (m.refLimit r), target := refWord 20 (m.refLimit m.hostTarget) }

/-- The reference on its way to 0 in a stop or without a source (R183, R310, R462): the generator rests there.
DEDUCED: log entry 55. -/
def Mach.refToZero (m : Mach) (l : RefLoop) : RefLoop :=
  let t : Rat := m.get F.FLY_CYCLE_period
  let ramp := m.prog.protv 0x6048
  let ramp := if fieldOf (m.frameNow 0x64) 27 2 = 2 then ratMax ramp 100 else ramp
  let stop := if m.refStopping then ramp / 1000 else 0
  let loss := if 2 ≤ l.ladder then m.prog.ctl 0x54 else 0
  let r := refWord 17 (m.refLimit (towardsZero (ratOf l.r2nd) (ratMax stop loss * t)))
  { l with r2nd := r, p := r, v := bfpZero, a := bfpZero, q := bfpZero, target := bfpZero, held := false }

/-- The reference in one cycle by run state; outside RUN and STOPPING it is 0.
DEDUCED: log entry 55. -/
def Mach.refShape (m : Mach) (l : RefLoop) (vBus vDroop uAvail : Rat) : RefLoop :=
  if m.refStopping ∨ (m.frameRun = 3 ∧ 2 ≤ l.ladder) then m.refToZero l
  else if m.frameRun = 3 then m.refMove l vBus vDroop uAvail
  else
    { l with r2nd := bfpZero, p := bfpZero, v := bfpZero, a := bfpZero, q := bfpZero, target := bfpZero, held := false
             refSrc := RefSource.ofCode (fieldOf (m.frameNow 0x64) 3 2) }

/-- The reference with dither and signal.
DEDUCED: log entry 55. -/
def Mach.refFinal (m : Mach) (l : RefLoop) (sig : Rat) : Word :=
  if m.frameRun = 3 ∨ m.frameRun = 4 then
    refWord 5 (ratOf l.r2nd + ditherSign (m.cycle + 1) * m.prog.ctl 0x50 + sig)
  else bfpZero

/-- The reference with the signal and without the dither, as the frozen test sees it (R180).
DEDUCED: log entry 55. -/
def Mach.refPlain (m : Mach) (l : RefLoop) (sig : Rat) : Word :=
  if m.frameRun = 3 ∨ m.frameRun = 4 then refWord 22 (ratOf l.r2nd + sig) else bfpZero

/-! ## The laws (R173 to R178) -/

/-- What the laws work from: currents, voltages and references. -/
structure LawIn where
  iM      : Rat
  uA      : Rat
  vBus    : Rat
  vPrev   : Rat
  r1      : Rat
  r2      : Rat
  noError : Bool
  meanV   : Rat
  deriving DecidableEq, Repr

/-- The feed-forward that both laws share: bus, resistance and commanded di/dt.
DEDUCED: log entry 56. -/
def Mach.lawForward (m : Mach) (x : LawIn) : Rat :=
  let p := m.prog
  x.vBus + p.ctl 0x18 * (x.vBus - x.vPrev) + p.ctl 0x04 * x.r1 + p.ctl 0 / m.periodRat * (x.r2 - x.r1)

/-- d_h from the measured state (R178). -/
def Mach.measuredDist (m : Mach) (x : LawIn) (iPrev : Rat) : Rat :=
  x.uA - x.vBus - m.prog.ctl 0x04 * x.iM - m.prog.ctl 0 / m.periodRat * (x.iM - iPrev)

/-- The observer's step (R173): i_f, d_h and i_p1, from the prediction and d_h before.
DEDUCED: log entry 56. -/
def Mach.observe (m : Mach) (l : RefLoop) (x : LawIn) (fresh : Bool) : RefLoop × Word :=
  let p := m.prog
  let pred := if fresh then x.iM else ratOf l.iP1
  let d0 := if fresh then m.measuredDist x (ratOf l.iM) else ratOf l.dH
  let e := if x.noError then 0 else x.iM - pred
  let iF := refWord 1 (pred + p.ctl 0x10 * e)
  let dH := refWord 3 (d0 + p.ctl 0x14 * e)
  let b := m.periodRat / p.ctl 0
  let iP1 := (1 - p.ctl 0x04 * b) * ratOf iF + b * (x.uA - x.vBus + ratOf dH)
  ({ l with dH := dH, iP1 := refWord 2 iP1 }, iF)

/-- The output of STATE_FEEDBACK. -/
def Mach.stateFeedback (m : Mach) (l : RefLoop) (x : LawIn) : Rat :=
  m.lawForward x - ratOf l.dH + m.prog.ctl 0x0C * (x.r1 - ratOf l.iP1)

/-- The slow correction of HYSTERETIC (R176), or its start from the last output (R178). -/
def Mach.slowStep (m : Mach) (l : RefLoop) (x : LawIn) (fresh : Bool) : RefLoop :=
  { l with cH := if fresh then refWord 21 (ratOf l.u - m.lawForward x)
                 else refWord 21 (ratClamp (-50) 50 (ratOf l.cH + m.prog.ctl 0x44 * (x.r1 - x.iM))) }

/-- The law to come in this cycle (R176, R177): the one that the run starts with, a new request, or the forced return to
STATE_FEEDBACK. A request is held while a blend runs and outside RUN.
DEDUCED: log entry 56. -/
def Mach.lawChange (m : Mach) (l : RefLoop) : Option Bool :=
  let req := (m.frameNow 0x64).getLsbD 0
  if m.frameRun ≠ 3 ∨ m.refStopping ∨ l.blend ≠ 0 then none
  else if l.runWas ≠ 3 then some req
  else if req ≠ l.lawTaken ∧ req ≠ l.law then some req
  else if l.law = true ∧ 2 ≤ l.bandBad then some false else none

/-- The laws in one cycle: the loop with the voltage reference, and i_f. Entering RUN the law named is initialised and acts at
once; else a hand-over is at once or blended over 16 cycles (R178).
DEDUCED: log entry 56. -/
def Mach.lawStep (m : Mach) (l : RefLoop) (x : LawIn) : RefLoop × Word :=
  let entry := m.frameRun = 3 ∧ l.runWas ≠ 3
  let change := m.lawChange l
  let req := (m.frameNow 0x64).getLsbD 0
  let ob := m.observe l x (change == some false || decide entry)
  let old := l
  let l := m.slowStep ob.1 x (change == some true)
  let uF := m.stateFeedback l x
  let uH := m.lawForward x + ratOf l.cH
  let l := if m.frameRun = 3 ∧ old.blend = 0 then { l with lawTaken := req } else l
  let done := fun (l : RefLoop) (u : Rat) => ({ l with u := refWord 6 u }, ob.2)
  match change with
  | some new =>
    let uNew := if new then uH else uF
    let uOld := if new then uF else uH
    let l := { l with law := new, bandBad := 0 }
    if entry ∨ ratAbs (uNew - ratOf old.u) ≤ m.prog.ctl 0x4C * x.meanV then done { l with blend := 0 } uNew
    else done { l with blend := 15 } (uOld + (uNew - uOld) / 16)
  | none =>
    let uNew := if l.law then uH else uF
    let uOld := if l.law then uF else uH
    if l.blend = 0 then done l uNew
    else
      let j : Nat := 17 - l.blend
      done { l with blend := l.blend - 1 } (uOld + (uNew - uOld) * j / 16)

/-! ## The band (R174, R176, R187) -/

/-- The band of the law, quantised, when its condition holds.
DEDUCED: log entry 56. -/
def Mach.refBand (m : Mach) (l : RefLoop) (r1 r2 : Rat) : BandHeader :=
  let half := if l.law then m.prog.ctl 0x40 else m.prog.ctl 0x48
  let set := l.law || (m.flag F.FLY_CTRL_hyst_en && half != 0)
  let c := (r1 + r2) / 2
  let lims := [c - half, c, c + half]
  let inside := fun (x : Rat) => lims.all fun y => decide (ratAbs y ≤ x)
  let fine := inside (mkRat 65534 100)
  let stream := (l.src == 0 && m.senseFlag 8) || (l.src == 1 && m.senseFlag 9)
  let runs := m.frameRun == 3 || m.frameRun == 4
  if set && runs && decide (l.ladder ≤ 1) && stream && inside (mkRat 262136 100) then
    let q := fun (x : Rat) => BitVec.ofInt 16 (ratRound (x * (if fine then 50 else mkRat 25 2)))
    ⟨true, !fine, q (c - half), q c, q (c + half)⟩
  else .none

/-! ## Modulation (R148, R273) -/

/-- A node as modulation sees it: lane, voltage, ranking key, whether it stays, and its last launch. -/
structure ModNode where
  n    : Nat
  v    : Rat
  key  : Rat
  stay : Bool
  lane : FlyerLane
  deriving DecidableEq, Repr

/-- Insert into a list that falls by key; equal keys stay in the order of lanes. -/
def rankInsert (x : ModNode) : List ModNode → List ModNode
  | [] => [x]
  | y :: rest => if y.key < x.key then x :: y :: rest else y :: rankInsert x rest

/-- The available nodes by key, falling, ties by lane. -/
def Mach.ranked (m : Mach) (avail : List (Nat × Rat)) (r1 : Rat) : List ModNode :=
  let charge := decide (r1 < 0)
  let xs := avail.map fun x =>
    let l := m.fly.lanes.toList.getD x.1 .init
    let s := ratOf (m.laneGet x.1 (if charge then 0x101C else 0x1018))
    let key := (if charge then -s else s) + (if l.last.cmd = .insert then m.prog.ctl 0x60 else 0)
    { n := x.1, v := x.2, key := key, stay := decide (0 < l.dwellLeft) || l.credit == 0, lane := l : ModNode }
  xs.foldl (fun acc x => rankInsert x acc) []

/-- A position lies within 16 of a port that sends TRIM symbols: in a PAIR ring the claim holder's, also as the STANDBY computes it
(R147).
DEDUCED: log entry 57. -/
def Mach.nearTrimPort (m : Mach) (n : Nat) : Bool :=
  let low := decide (n < 16)
  let high := decide (m.nodeCount ≤ n + 16)
  if m.pairRing then (if m.posZero == (m.role == .standby) then high else low) else low || high

/-- trim_node (R148).
DEDUCED: log entry 57. -/
def Mach.trimNode (m : Mach) (xs : List ModNode) (now : Option Nat) : Option ModNode :=
  let kept := now.bind fun t => xs.find? fun x =>
    x.n == t && decide (x.lane.trimCount + 1 < m.get F.FLY_TRIM_trim_run)
  let eight := (xs.filter fun x => !x.stay && x.lane.last.cmd == .bypass && x.lane.restLeft == 0).take 8
  match kept with
  | some x => some x
  | none => match eight.find? fun x => m.nearTrimPort x.n with
    | some x => some x
    | none => eight.head?

/-- What a node that stays keeps: INSERT, TRIM with its duty, else BYPASS; with the voltage that it counts. -/
def ModNode.keeps (x : ModNode) : Command × Rat :=
  if x.lane.last.cmd = .insert then (⟨.insert, 0, false⟩, x.v)
  else if x.lane.last.cmd = .trim then (⟨.trim, x.lane.lastDuty, false⟩, x.v * x.lane.lastDuty.toNat / 128)
  else (.bypass, 0)

/-- The greedy insertion of the free nodes in order.
DEDUCED: log entry 57. -/
def greedy (u : Rat) : Rat → List ModNode → List (Nat × Command) × Rat
  | sum, [] => ([], sum)
  | sum, x :: rest =>
    if sum + x.v ≤ u then
      let r := greedy u (sum + x.v) rest
      ((x.n, ⟨.insert, 0, false⟩) :: r.1, r.2)
    else
      let r := greedy u sum rest
      ((x.n, .bypass) :: r.1, r.2)

/-- The duty of the trim node in 128ths; a voltage above 0 with a node of 0 V takes all of it.
DEDUCED: log entry 57. -/
def trimDuty (rest v : Rat) : Int :=
  if v = 0 then (if 0 < rest then 128 else 0) else ratRound (128 * rest / v)

/-- Nearest-level modulation: the commands, by lane, and the trim node.
DEDUCED: log entry 57. -/
def Mach.modulate (m : Mach) (avail : List (Nat × Rat)) (u r1 : Rat) (now : Option Nat) : List (Nat × Command) × Option Nat :=
  let xs := m.ranked avail r1
  let t := m.trimNode xs now
  let others := xs.filter fun x => some x.n != t.map (·.n)
  let stays := others.filter (·.stay)
  let free := others.filter fun x => !x.stay
  let kept := stays.map fun x => (x.n, x.keeps.1)
  let g := greedy u (ratSum (stays.map fun x => x.keeps.2)) free
  let trim := match t with
    | none => []
    | some x =>
      let d := trimDuty (u - g.2) x.v
      [(x.n, if 128 ≤ d then ⟨.insert, 0, false⟩ else if 1 ≤ d then ⟨.trim, BitVec.ofInt 7 d, false⟩ else .bypass)]
  let low := (g.1.filter fun c => c.2.cmd == .insert).getLast?
  let high := (g.1.filter fun c => c.2.cmd == .bypass).head?
  let armed := (t.map (·.n)).toList ++ (low.map (·.1)).toList ++ (high.map (·.1)).toList
  ((kept ++ g.1 ++ trim).map fun c => (c.1, { c.2 with arm := decide (c.1 ∈ armed) }), t.map (·.n))

/-- EMIT entry of a command. -/
def Command.entry (c : Command) : BitVec 16 :=
  BitVec.ofNat 16 (c.cmd.code * 2 ^ 14 + (if c.cmd = .trim then c.duty.toNat else 0) * 2 ^ 7 + c.arm.toNat * 2 ^ 6)

/-! ## Starting (R272) -/

/-- The initial capacity of a cell: its entry, or q_rated (R267). -/
def Mach.firstCap (m : Mach) (n j : Nat) : Rat :=
  let q := m.prog.estv (0x4000 + 32 * n + 4 * j)
  if q = 0 then m.prog.estv 0x100 else q

/-- A cell at the start cycle or a lane reinitialisation. -/
def Mach.freshCell (m : Mach) (n j : Nat) : CellEst :=
  let known := ratOf (copyWord m.prog.est 0x100 (0x5018 + 32 * n)) = 1 ∧ m.prog.est ≠ []
  let soc := m.prog.estv (0x5000 + 32 * n + 4 * j)
  let rRef := m.prog.estv (0x3000 + 32 * n + 4 * j)
  { CellEst.init with
    soc := if known then refWord 30 soc else bfpZero
    p00 := if known then toBfp (Dy.ofInt 4) else refWord 31 (m.prog.estv 0x11C)
    ready := decide known, cap := refWord 32 (m.firstCap n j)
    leakSoc := if known then refWord 30 soc else bfpZero
    rRef := if rRef = 0 then none else some (refWord 33 rRef) }

/-- The cells of a node anew. -/
def Mach.freshCells (m : Mach) (n : Nat) : Vector CellEst 6 := Vector.ofFn fun j => m.freshCell n j.val

/-! ## The section -/

/-- The program's memory at its start cycle: BLOCKED and hard shorts stand, everything else begins anew.
DEDUCED: log entry 53. -/
def RefProgState.begin (p : RefProgState) (run : Nat) : RefProgState :=
  let l := RefLoop.init
  { p with loop := if p.loop.ladder = 3 ∧ 1 < run then { l with ladder := 3, src := 3, runWas := p.loop.runWas } else l
           watch := RefProgState.init.watch, disagree := 0, disputed := none, glob := EstGlobal.init }

/-- The nodes at the start cycle, with the parameters then in use; R_bol stays (R275), and the request's sequence counts the change
to an empty request (R265).
DEDUCED: log entry 53. -/
def Mach.beginNodes (m : Mach) : Mach :=
  let nodes : Vector NodeEst 128 := Vector.ofFn fun n =>
    let x := m.prog.nodes[n]
    let cell := fun (j : Fin 6) => { m.freshCell n.val j.val with short := x.cells[j].short, rBol := x.cells[j].rBol }
    { NodeEst.init with hard := x.hard, cells := Vector.ofFn cell, seq := if x.mask ≠ 0 ∨ x.owReq then x.seq + 1 else x.seq }
  { m with prog := { m.prog with nodes := nodes, glob := { m.prog.glob with leakNs := m.nowNs } } }

/-- A swap is recorded in this cycle's frame (R205, R211).
DEDUCED: log entry 53. -/
def Mach.swapInFrame (m : Mach) : Bool := fieldOf (m.frameNow 0x1C) 0 31 == m.cycle.toNat % 2 ^ 31

/-- An accepted bank that sets a cell's initial capacity to 0 marks a new cell: its R_bol begins anew (R275).
DEDUCED: log entry 61. -/
def Mach.bolRestart (m : Mach) (old : RefProgState) : Mach :=
  let cap := fun (p : RefProgState) (n j : Nat) => p.estv (0x4000 + 32 * n + 4 * j)
  let nodes : Vector NodeEst 128 := Vector.ofFn fun n =>
    let x := m.prog.nodes[n]
    { x with cells := Vector.ofFn fun j =>
        let c := x.cells[j]
        if cap old n.val j.val ≠ 0 ∧ cap m.prog n.val j.val = 0 then { c with rBol := none } else c }
  { m with prog := { m.prog with nodes := nodes } }

/-- A swap that names a node's state of charge valid clears its hard short (R282); without a temperature table the cells have no
impedance temperature (R279); meas_mode changed is noted (R285).
DEDUCED: log entry 53. -/
def Mach.swapEffects (m : Mach) (mode : Nat) : Mach :=
  let noTable := m.prog.esti 0x300 == 0
  let nodes : Vector NodeEst 128 := Vector.ofFn fun n =>
    let x := m.prog.nodes[n]
    let x := if noTable then { x with cells := x.cells.map fun c => { c with temp := none } } else x
    if ratOf (copyWord m.prog.est 0x100 (0x5018 + 32 * n.val)) = 1 then
      { x with hard := false, cells := x.cells.map fun c => { c with short := false } }
    else x
  let glob := if m.prog.esti 0x124 ≠ mode then { m.prog.glob with modeAt := some m.cycle } else m.prog.glob
  { m with prog := { m.prog with nodes := nodes, glob := glob } }

/-- The bank is checked in the start cycle and at a swap (R194): ev_param_reject. -/
def Mach.refCheck (m : Mach) : Mach × Bool :=
  if m.startCycle then
    let r := ({ m with prog := m.prog.begin m.frameRun } : Mach).bankTake
    ((r.1.bolRestart m.prog).beginNodes, !r.2)
  else if m.swapInFrame then
    let mode := m.prog.esti 0x124
    let r := m.bankTake
    (if r.2 then (r.1.bolRestart m.prog).swapEffects mode else r.1, !r.2)
  else (m, false)

/-- The status word of R163. `ev` are bits [23:16]. -/
def refStatus (l : RefLoop) (ev : List (Bool × Nat)) (inj low high : Bool) : Word :=
  BitVec.ofNat 32 ((ev.map fun x => x.1.toNat * 2 ^ x.2).sum + inj.toNat * 2 ^ 15 + low.toNat * 2 ^ 14
    + high.toNat * 2 ^ 13 + l.blend * 2 ^ 8 + l.refSrc.code * 2 ^ 6 + l.law.toNat * 2 ^ 5 + l.src * 2 ^ 3 + l.ladder)

/-- References and laws of one cycle under a signal at a point.
DEDUCED: log entry 56. -/
def Mach.refControl (m : Mach) (l : RefLoop) (x : LawIn) (uAvail : Rat) (sig : Rat) (point : Nat) : RefLoop × Word :=
  let at' := fun (n : Nat) => if point = n then sig else 0
  let l1 := m.refShape l x.vBus (x.vBus + at' 2) uAvail
  let r2 := m.refFinal l1 (at' 0)
  m.lawStep { l1 with r2 := r2, r2plain := m.refPlain l1 (at' 0) } { x with r2 := ratOf r2 }

/-- The voltage reference by run state, before injection and clamp: the bus in PRECHARGE (R152), the law in RUN and STOPPING. -/
def Mach.refVolt (m : Mach) (l : RefLoop) (vBus : Rat) : Rat :=
  if m.frameRun = 2 then vBus else if m.frameRun = 3 ∨ m.frameRun = 4 then ratOf l.u else 0

/-- EMIT: BLOCK under an immediate stop or in BLOCKED, BYPASS in the resting run states, else modulation (R311, R462). -/
def Mach.refEmit (m : Mach) (l : RefLoop) (avail : List (Nat × Rat)) (u : Rat) : Vector (BitVec 16) 128 × Option Nat :=
  let all := fun (c : Command) => (Vector.replicate 128 c.entry, none)
  if m.stopStands = 2 ∨ l.ladder = 3 then all .block
  else if m.frameRun < 2 ∨ 4 < m.frameRun then all .bypass
  else
    let r := m.modulate avail u (ratOf m.prog.loop.r2) l.trimNode
    (Vector.ofFn fun n => ((r.1.find? (·.1 == n.val)).map fun c => c.2.entry).getD Command.bypass.entry, r.2)

/-- The fast section of the reference program: EMIT, the control record, its memory. -/
def Mach.refFast (m : Mach) : Mach :=
  let c := m.refCheck
  let w := c.1.refWatch
  let m := w.1
  let k := m.cycle
  let run := m.frameRun
  let ld := m.refLadder
  let l := ld.1
  let avail := m.availVolts
  let uAvail := ratSum (avail.map (·.2))
  let bus := m.refBusWord
  let vBus := ratOf bus
  let pred := m.predicts l
  let iM := if pred then (if m.startCycle then bfpZero else l.iP1) else refWord 0 (m.currentInUse l)
  let l := if m.startCycle then { l with iP1 := iM, iM := iM, vBus := bus } else l
  let l := if run = 3 ∨ run = 4 then l else { l with blend := 0 }
  let x : LawIn :=
    { iM := ratOf iM, uA := m.appliedVolt, vBus := vBus, vPrev := ratOf l.vBus, r1 := ratOf l.r2, r2 := 0
      noError := pred, meanV := if avail.isEmpty then 0 else uAvail / avail.length }
  let point := m.prog.inj 0x80 / 16 % 4
  let may := run == 3 && l.ladder == 0 && l.blend == 0 && !m.refStopping && m.prog.injRuns k
    && (m.refControl l x uAvail 0 point).1.blend == 0
  let sig := if may then m.prog.injSignal k (m.get F.FLY_CYCLE_period) else bfpZero
  let lr := m.refControl l x uAvail (ratOf sig) point
  let r1 := l.r2
  let up := lr.1.movesUp
  let l := lr.1
  let uLaw := m.refVolt l vBus
  let uWant := if point = 1 ∧ may then uLaw + ratOf sig else uLaw
  let top := ratMax 0 (uAvail - m.prog.ctl 0x1C)
  let acts := decide (2 ≤ run) && decide (run ≤ 4)
  let high := acts && decide (top < uWant)
  let low := acts && decide (uWant < 0)
  let u := if acts then ratClamp 0 top uWant else 0
  let em := m.refEmit l avail u
  let band := m.refBand l (ratOf r1) (ratOf l.r2)
  let gone := acts && !decide (m.stopStands = 2 ∨ l.ladder = 3) && m.positions.any m.nodeGone
  let st := refStatus l
    [(high || low, 23), (gone, 22), (ld.2.2, 21), (ld.2.1, 20), (w.2.1, 19), (w.2.2, 18), (m.senseFlag 11, 17), (c.2, 16)]
    may low high
  let chans : List Word :=
    [iM, lr.2, l.iP1, l.dH, r1, l.r2, refWord 6 u, refWord 7 x.uA, bus, m.frameNow 0x4C, l.q, l.v, sig,
     if m.flag F.SNS_CTRL_fg_en then m.sourceWord 1 else bfpZero, refWord 14 uAvail, st]
  let e : EmitVec := { entries := em.1, bandValid := band.valid, bandLsb := band.lsb, iLo := band.lo, iMid := band.mid, iHi := band.hi }
  let l := { l with
    runWas := run, iM := iM, vBus := bus, u := refWord 6 uLaw, trimNode := em.2
    nd := (m.prog.loop.r2plain :: m.prog.loop.nd).take 8
    held := run == 3 && !m.refStopping && ((high && up) || (low && !up))
    bandBad := if l.law && run == 3 && !band.valid then l.bandBad + 1 else 0
    injOn := may, injUsed := if may then some m.prog.injSpan.1 else l.injUsed }
  { m with prog := { m.prog with loop := l }
           fly := { m.fly with emit := some e }
           spin := { m.spin with emitted := true, ctlRec := Vector.ofFn fun i => some (chans.getD i.val 0) } }

end Sys2Proof.Machine
end

