-- ==== Sys2Proof/Machine/RefEstimate.lean ====
section
/-!
DEFINITION. The reference program's estimation of the cells (ch. 08): currents, corrected and settled readings, the filter of
R271, open wires, hard shorts, anchors, bleeding, leas and leakage, and the result vectors of R264.
-/

namespace Sys2Proof.Machine

/-- Set or clear a cell flag (R265).
DEDUCED: log entry 63. -/
def putFlag (f : BitVec 10) (i : Nat) (b : Bool) : BitVec 10 :=
  BitVec.ofNat 10 (f.toNat % 2 ^ i + b.toNat * 2 ^ i + f.toNat / 2 ^ (i + 1) * 2 ^ (i + 1))

/-! ## Parameters of a node -/

/-- D × T in microseconds: the time between two cell samples of a node. -/
def Mach.sampleUs (m : Mach) : Nat := m.cellDiv * m.get F.FLY_CYCLE_period

/-- Quiet mode (R267). -/
def Mach.estQuiet (m : Mach) : Bool := m.prog.esti 0x124 == 0

/-- v_comm of a node: its wire-drop entry, or 3.2 V (R270). -/
def Mach.vComm (m : Mach) (n : Nat) : Rat :=
  let v := m.prog.estv (0x1018 + 64 * n)
  if v = 0 then near (16 / 5) else v

/-- L_j and U_j (R287). -/
def Mach.dropL (m : Mach) (n j : Nat) : Rat := m.prog.estv (0x1000 + 64 * n + 4 * j)

def Mach.dropU (m : Mach) (n j : Nat) : Rat := m.prog.estv (0x1020 + 64 * n + 4 * j)

/-- die_lim (R283). -/
def NodeEst.dieLimit (x : NodeEst) : Rat := ratClamp 0 1 (mkRat (105 - x.die) 35)

/-- duty_eff of a bleeding cell (R283). -/
def Mach.bleedDuty (m : Mach) (x : NodeEst) : Rat :=
  if m.estQuiet then
    if m.sampleUs ≤ 50 then 0 else ratMin x.dieLimit (1 - mkRat 50 m.sampleUs)
  else x.dieLimit

/-- b_j while the bleed is on, in quiet mode times duty_eff (R270). -/
def Mach.bleedAmps (m : Mach) (n : Nat) (x : NodeEst) (c : CellEst) : Rat :=
  let i := mkRat (((m.chain.ids[n]?).map (·.bleedMa)).getD 0) 1000
  i * ratOf c.corr / m.vComm n * (if m.estQuiet then m.bleedDuty x else 1)

/-- The number of cells of a node. -/
def Mach.cellNum (m : Mach) (n : Nat) : Nat := min 6 (m.cellsOf n)

/-! ## The OCV table (R268) -/

/-- The points of the OCV table: state of charge, voltage at 25 °C, temperature coefficient; none with fewer than 8. -/
def RefProgState.ocvPoints (p : RefProgState) : List (Rat × Rat × Rat) :=
  let n := p.esti 0x400
  if n < 8 then []
  else (List.range n).map fun i => (p.estv (0x404 + 12 * i), p.estv (0x408 + 12 * i), p.estv (0x40C + 12 * i))

/-- Linear interpolation in rising points, clamped to the ends, with the slope of the segment. -/
def interpolate : List (Rat × Rat) → Rat → Rat × Rat
  | [], _ => (0, 0)
  | [a], _ => (a.2, 0)
  | [a, b], x =>
    let k := (b.2 - a.2) / (b.1 - a.1)
    (if x ≤ a.1 then a.2 else if b.1 ≤ x then b.2 else a.2 + k * (x - a.1), k)
  | a :: b :: rest, x =>
    if b.1 < x then interpolate (b :: rest) x
    else
      let k := (b.2 - a.2) / (b.1 - a.1)
      (if x ≤ a.1 then a.2 else a.2 + k * (x - a.1), k)

/-- The voltage of a state of charge at a temperature, and its slope. -/
def RefProgState.ocv (p : RefProgState) (soc temp : Rat) : Rat × Rat :=
  interpolate (p.ocvPoints.map fun x => (x.1, x.2.1 + x.2.2 * (temp - 25))) soc

/-- The inverse in points that do not fall: clamped to the ends, the lower end of a flat segment. -/
def inverseOf : List (Rat × Rat) → Rat → Rat
  | [], _ => 0
  | [a], _ => a.1
  | a :: b :: rest, y =>
    if y ≤ a.2 then a.1
    else if y < b.2 then a.1 + (b.1 - a.1) * (y - a.2) / (b.2 - a.2)
    else inverseOf (b :: rest) y

/-- The state of charge of a voltage at a temperature (R272).
DEDUCED: log entry 59. -/
def RefProgState.ocvInverse (p : RefProgState) (v temp : Rat) : Rat :=
  inverseOf (p.ocvPoints.map fun x => (x.1, x.2.1 + x.2.2 * (temp - 25))) v

/-! ## A lane reinitialised (R294) -/

/-- A lane reinitialised (R294): what the rule does not name stays, R_bol too, which belongs to the cell (R275). The lea in progress
gives the lane no result. -/
def Mach.reinitNode (m : Mach) (n : Nat) (x : NodeEst) : NodeEst :=
  let cell := fun (j : Fin 6) =>
    { m.freshCell n j.val with leakBad := true, rBol := x.cells[j].rBol, flags := putFlag 0 9 true }
  { x with cells := Vector.ofFn cell, wires := Vector.replicate 7 0, signs := Vector.replicate 7 0, owBase := none
           owTest := none, owReq := false, lea := .init, leaN := 0, hank := [], reinit := 1000 }

/-! ## Cell current (R269) -/

/-- The insertion fraction of a node in this cycle: by the applied field of its slot, else by its last launch. -/
def Mach.insertion (m : Mach) (n : Nat) (charging : Bool) : Rat :=
  let l := m.fly.lanes.toList.getD n .init
  let cmd := if m.chain.slotAge.toList.getD n 1 = 0 then
      ((m.lastSlot n).map fun w => NodeCmd.ofCode (fieldOf w 10 2)).getD l.last.cmd
    else l.last.cmd
  match cmd with
  | .insert => 1
  | .bypass => 0
  | .block => if charging then 1 else 0
  | .trim => mkRat l.lastDuty.toNat 128

/-- α of the anti-alias response. -/
def Mach.alpha (m : Mach) : Rat :=
  1 - ratOf (Config.refExp (-(mkRat (2 * piScaled) (2 ^ 128)) * m.prog.estv 0x15C * m.periodRat))

/-- One cycle of a node's current: charge, filtered current, and its value at a cell-sample instant. -/
def Mach.nodeCurrent (m : Mach) (iM alpha : Rat) (n : Nat) (x : NodeEst) : NodeEst :=
  let c := iM * m.insertion n (decide (iM < 0))
  let y := ratOf x.y
  { x with charge := refWord 34 (ratOf x.charge + c * m.periodRat)
           y := refWord 35 (y + alpha * (c - y))
           yAt := if m.cycle.toNat % m.cellDiv = 0 then ((m.cycle, x.y) :: x.yAt).take 4 else x.yAt }

/-! ## A record (R271, R285, R287) -/

/-- A cell record: the raw readings in 100 µV, the thermistors in 0.01 °C, the die in °C, the flags and the wire in test. -/
structure CellRecord where
  volts  : List Int
  th     : Int × Int
  die    : Int
  flags  : Byte
  owWire : Byte
  deriving DecidableEq, Repr

/-- The record of a position that entered this cycle's frame.
DEDUCED: log entry 59. -/
def Mach.newRecord (m : Mach) (n : Nat) : Option CellRecord :=
  if m.frameHasRec m.cycle n then
    let bs := readBytes m.mem (frameAddr m.cycle + 0x600 + 24 * n) 24
    some { volts := (List.range 6).map fun j => ((recHalf bs (2 + 2 * j)).toNat : Int)
           th := ((recHalf bs 14).toInt, (recHalf bs 16).toInt), die := (bs.getD 18 0).toInt
           flags := bs.getD 19 0, owWire := bs.getD 20 0 }
  else none

/-- The test current flows (cflags[6]). -/
def CellRecord.testing (r : CellRecord) : Bool := r.flags.getLsbD 6

/-- The test current flows on a wire of cell `j`. -/
def CellRecord.onWire (r : CellRecord) (j : Nat) : Bool :=
  r.testing && (r.owWire.toNat == j || r.owWire.toNat == j + 1)

/-- A raw reading in volts. -/
def CellRecord.volt (r : CellRecord) (j : Nat) : Rat := mkRat (r.volts.getD j 0) 10000

/-- The bleed bits of a cell and of its neighbours. -/
def CellRecord.bits (r : CellRecord) (j : Nat) : Nat :=
  let b := fun i => (r.flags.getLsbD i && decide (i < 6)).toNat
  b j + 2 * (if j = 0 then 0 else b (j - 1)) + 4 * b (j + 1)

/-- The error that bleeding makes in a reading (R287); none in quiet mode (R286). -/
def Mach.bleedError (m : Mach) (n : Nat) (x : NodeEst) (r : CellRecord) (j : Nat) : Rat :=
  if m.estQuiet then 0
  else
    let c := m.cellNum n
    let beta := fun k =>
      (if k < c ∧ r.flags.getLsbD k then ratOf (x.cells.toList.getD k .init).corr / m.vComm n else 0)
    let own := beta j * (m.dropL n j + m.dropU n j)
    let below := if j = 0 then 0 else beta (j - 1) * m.dropU n (j - 1)
    below + beta (j + 1) * m.dropL n (j + 1) - own

/-- The corrected readings of a record. -/
def Mach.correctedVolts (m : Mach) (n : Nat) (x : NodeEst) (r : CellRecord) : List Rat :=
  (List.range (m.cellNum n)).map fun j => r.volt j - m.bleedError n x r j

/-- The records that must agree with this one (R285). -/
def Mach.settleRecords (m : Mach) : Nat :=
  let q := m.prog.estv 0x160 * 1000000 / m.sampleUs
  (Rat.ceil q).toNat

/-- The filtered current that a reading of a sample sees: y before the update of the sample's cycle (R269). -/
def NodeEst.seenAt (x : NodeEst) (s : Word) : Rat := ((x.yAt.find? (·.1 == s)).map fun a => ratOf a.2).getD (ratOf x.y)

/-- A swap that changed meas_mode took effect within the last 20 ms. -/
def Mach.modeFresh (m : Mach) : Bool :=
  match m.prog.glob.modeAt with
  | none => false
  | some c => decide ((m.cycle - c).toNat * m.get F.FLY_CYCLE_period ≤ 20000)

/-- The run of records fit for a settled reading. -/
def CellEst.calmStep (c : CellEst) (r : CellRecord) (j : Nat) (follows : Bool) : CellEst :=
  let bits := r.bits j
  let calm := if r.onWire j then 0 else if follows && bits == c.bits then c.calm + 1 else 1
  { c with bits := bits, calm := min 100000 calm }

/-- Prediction (R271): `dt` since the record before, the node's charge since, the bleed that was on. The prediction of the
reading is for the filtered current `y`, with the bleed `on` at the sample.
DEDUCED: log entry 59. -/
def Mach.predict (m : Mach) (n : Nat) (x : NodeEst) (c : CellEst) (dt temp y : Rat) (on : Bool) : CellEst :=
  let p := m.prog
  let amps := m.bleedAmps n x c
  let b := if c.bleed then amps else 0
  let q := ratOf x.charge + b * dt
  let g := if dt = 0 then 1 else ratOf (Config.refExp (-dt / p.estv 0x10C))
  let soc := ratClamp (-5) 105 (ratOf c.soc - 100 * q / (3600 * ratOf c.cap))
  let v1 := if dt = 0 then ratOf c.v1 else g * ratOf c.v1 + (1 - g) * p.estv 0x108 * q / dt
  let r0 := (c.r0.map ratOf).getD (p.estv 0x104)
  { c with soc := refWord 30 soc, v1 := refWord 36 v1
           p00 := refWord 31 (ratOf c.p00 + p.estv 0x114 * dt), p01 := refWord 37 (g * ratOf c.p01)
           p11 := refWord 38 (g * g * ratOf c.p11 + p.estv 0x118 * dt)
           pred := refWord 39 ((p.ocv soc temp).1 - r0 * (y + if on then amps else 0) - v1)
           anchor := c.anchor.map fun a => (a.1, refWord 40 (ratOf a.2 + q / 3600))
           leakQ := refWord 41 (ratOf c.leakQ + q) }

/-- P × H' for H = [slope, -1]. -/
def CellEst.gain (c : CellEst) (slope : Rat) : Rat × Rat :=
  (ratOf c.p00 * slope - ratOf c.p01, ratOf c.p01 * slope - ratOf c.p11)

/-- H × P × H'. -/
def CellEst.spread (c : CellEst) (slope : Rat) : Rat := slope * (c.gain slope).1 - (c.gain slope).2

/-- The update of a cell by an innovation with its variance.
DEDUCED: log entry 59. -/
def CellEst.correct (c : CellEst) (slope e s : Rat) : CellEst :=
  let g := c.gain slope
  let k := (g.1 / s, g.2 / s)
  { c with soc := refWord 30 (ratClamp (-5) 105 (ratOf c.soc + k.1 * e)), v1 := refWord 36 (ratOf c.v1 + k.2 * e)
           p00 := refWord 31 (ratOf c.p00 - k.1 * g.1), p01 := refWord 37 (ratOf c.p01 - k.1 * g.2)
           p11 := refWord 38 (ratOf c.p11 - k.2 * g.2), gates := 0, flags := putFlag c.flags 8 false }

/-- A reading that the gate turned away: after 50 in a row the variance starts again, with the flag.
DEDUCED: log entry 59. -/
def RefProgState.gated (p : RefProgState) (c : CellEst) : CellEst :=
  if 50 ≤ c.gates + 1 then
    { c with gates := 0, p00 := refWord 31 (p.estv 0x11C), flags := putFlag c.flags 8 true }
  else { c with gates := c.gates + 1 }

/-- An anchor (R274). -/
def RefProgState.anchorAt (p : RefProgState) (c : CellEst) : CellEst :=
  if ratOf c.p00 ≤ p.estv 0x12C * p.estv 0x12C then
    match c.anchor with
    | none => { c with anchor := some (c.soc, bfpZero) }
    | some a =>
      let d := ratOf a.1 - ratOf c.soc
      if p.estv 0x130 ≤ ratAbs d then
        let q := 100 * ratOf a.2 / d
        let r := p.estv 0x100
        let cap := if r ≤ 2 * q ∧ 5 * q ≤ 6 * r then ratOf c.cap + p.estv 0x134 * (q - ratOf c.cap) else ratOf c.cap
        { c with anchor := some (c.soc, bfpZero), cap := refWord 32 cap }
      else c
  else c

/-- The measurement of one cell by a settled reading `z` (R271); the first one starts a cell without a known state (R272). -/
def RefProgState.measure (p : RefProgState) (c : CellEst) (z temp start : Rat) : CellEst :=
  if c.ready then
    let slope := (p.ocv (ratOf c.soc) temp).2
    let s := c.spread slope + p.estv 0x110 * p.estv 0x110
    let e := z - ratOf c.pred
    if e * e ≤ 25 * s then p.anchorAt (c.correct slope e s) else p.gated c
  else
    let soc := refWord 30 (p.ocvInverse z start)
    { c with ready := true, soc := soc, v1 := bfpZero, p00 := refWord 31 (p.estv 0x11C), p01 := bfpZero, p11 := bfpZero
             pred := refWord 39 z, leakSoc := soc }

/-- The update of one cell of a pair: H takes its state of charge alone (R293). The prediction follows, for a second pair that the
cell belongs to.
DEDUCED: log entry 59. -/
def CellEst.correctSoc (c : CellEst) (slope e s : Rat) : CellEst :=
  let g := (ratOf c.p00 * slope, ratOf c.p01 * slope)
  let k := (g.1 / s, g.2 / s)
  let soc := refWord 30 (ratClamp (-5) 105 (ratOf c.soc + k.1 * e))
  let v1 := refWord 36 (ratOf c.v1 + k.2 * e)
  { c with soc := soc, v1 := v1, p00 := refWord 31 (ratOf c.p00 - k.1 * g.1), p01 := refWord 37 (ratOf c.p01 - k.1 * g.2)
           p11 := refWord 38 (ratOf c.p11 - k.2 * g.2), gates := 0, flags := putFlag c.flags 8 false
           pred := refWord 39 (ratOf c.pred + slope * (ratOf soc - ratOf c.soc) - (ratOf v1 - ratOf c.v1)) }

/-- The joint measurement of two cells beside a broken inner wire by their sum, H = [OCV' of one, OCV' of the other] (R293).
DEDUCED: log entry 59. -/
def RefProgState.measurePair (p : RefProgState) (a b : CellEst) (z temp : Rat) : CellEst × CellEst :=
  if a.ready && b.ready then
    let sa := (p.ocv (ratOf a.soc) temp).2
    let sb := (p.ocv (ratOf b.soc) temp).2
    let s := ratOf a.p00 * sa * sa + ratOf b.p00 * sb * sb + p.estv 0x110 * p.estv 0x110
    let e := z - ratOf a.pred - ratOf b.pred
    if e * e ≤ 25 * s then (p.anchorAt (a.correctSoc sa e s), p.anchorAt (b.correctSoc sb e s)) else (p.gated a, p.gated b)
  else (a, b)

/-! ## Open wires (R290 to R293) -/

/-- The bits of a wire's state: none for an intact wire (R290). -/
def Wire.suspected : Nat := 0
def Wire.isOpen : Nat := 1
def Wire.unclear : Nat := 2

/-- A bit of the state of a wire of a node. -/
def NodeEst.wire (x : NodeEst) (w b : Nat) : Bool := (x.wires.toList.getD w 0).testBit b

/-- A wire is suspected or open: its cells are estimated as R293 says. -/
def NodeEst.wireBad (x : NodeEst) (w : Nat) : Bool := x.wire w Wire.suspected || x.wire w Wire.isOpen

/-- Some wire of a node is confirmed open. -/
def NodeEst.anyOpen (x : NodeEst) : Bool := x.wires.toList.any (·.testBit Wire.isOpen)

/-- Some wire is suspected or open. -/
def NodeEst.anyBad (x : NodeEst) : Bool := (List.range 7).any x.wireBad

/-- A cell lies beside a wire with a bit of its state. -/
def NodeEst.beside (x : NodeEst) (j b : Nat) : Bool := x.wire j b || x.wire (j + 1) b

/-- A cell lies beside a suspected or open wire. -/
def NodeEst.cellBad (x : NodeEst) (j : Nat) : Bool := x.wireBad j || x.wireBad (j + 1)

/-- The signature of R291 on a wire: readings `r` with predictions `y`, and v_term. -/
def wireSign (c w : Nat) (r y : List Rat) (vTerm : Rat) : Bool :=
  let eps := ratSum r - vTerm
  if w = 0 ∨ w = c then decide (mkRat 20 1000 < ratAbs eps)
  else
    let d := fun j => r.getD j 0 - y.getD j 0
    decide (d w * d (w - 1) < 0) && decide (mkRat 20 1000 < ratAbs (d w)) && decide (mkRat 20 1000 < ratAbs (d (w - 1)))
      && decide (ratAbs eps ≤ mkRat 10 1000)

/-- The runs of the signatures; 10 records make a wire suspected that is not yet known open, and a test is asked for.
DEDUCED: log entry 60. -/
def NodeEst.suspect (x : NodeEst) (c : Nat) (sign : Nat → Bool) : NodeEst :=
  let signs : Vector Nat 7 := Vector.ofFn fun w => if w.val ≤ c ∧ sign w.val then min 10 (x.signs[w] + 1) else 0
  let fresh := fun w => signs.toList.getD w 0 == 10 && !x.wireBad w
  { x with signs := signs
           wires := Vector.ofFn fun w => if fresh w.val then x.wires[w] ||| 2 ^ Wire.suspected else x.wires[w]
           owReq := x.owReq || (List.range 7).any fresh }

/-- The raw readings with v_term behind them, in volts: what a wire test compares. -/
def testReading (r : CellRecord) (vTermMv : Int) : List Int := r.volts ++ [vTermMv * 10]

/-- The step of a wire in a test (R290), in 100 µV, doubled.
DEDUCED: log entry 60. -/
def wireStep (c w : Nat) (base test : List Int) : Int :=
  let d := fun j => test.getD j 0 - base.getD j 0
  let sum := ((List.range c).map d).sum
  if w = 0 ∨ w = c then 2 * (sum - d 6) else d w - d (w - 1)

/-- A wire test is over: its result (R290). Only an intact wire loses what was set for it. The request ends when no suspected wire is
left to be confirmed.
DEDUCED: log entry 60. -/
def RefProgState.wireResult (p : RefProgState) (x : NodeEst) (w : Nat) (step : Int) : NodeEst :=
  let d := mkRat step.natAbs 20000
  let intact := decide (d < p.estv 0x158)
  let was := x.wires.toList.getD w 0
  let st := if p.estv 0x154 < d then was ||| 2 ^ Wire.isOpen else if intact then 0 else was ||| 2 ^ Wire.unclear
  let wires := x.wires.setIfInBounds w st
  let waits := fun (b : Nat) => b.testBit Wire.suspected && !b.testBit Wire.isOpen
  { x with wires := wires, signs := if intact then x.signs.setIfInBounds w 0 else x.signs
           owReq := x.owReq && wires.toList.any waits, owTest := none }

/-- The record's part in a wire test: a test begins, goes on or ends; the wire tested with its step. -/
def Mach.wireWatch (m : Mach) (c : Nat) (x : NodeEst) (r : CellRecord) (vTermMv : Int) (settled : Bool) :
    NodeEst × Option (Nat × Int) :=
  let same := r.testing && x.owTest.map (·.1) == some r.owWire.toNat
  let ended := match x.owTest, x.owBase with
    | some t, some b => if same then none else some (t.1, wireStep c t.1 b t.2)
    | _, _ => none
  let x := match ended with
    | some e => m.prog.wireResult x e.1 e.2
    | none => if same then x else { x with owTest := none }
  let x := if r.testing then { x with owTest := some (r.owWire.toNat, testReading r vTermMv) } else x
  (if settled && !r.testing then { x with owBase := some (testReading r vTermMv) } else x, ended)

/-! ## A record of a node -/

/-- Temperature for the filter (R271): the impedance temperature when valid, else the mean of the thermistors. -/
def CellEst.tempNow (c : CellEst) (valid : Bool) (th : Rat) : Rat := if valid then ((c.temp.map fun t => ratOf t.1).getD th) else th

/-- The impedance temperature of a cell is valid (R302). -/
def Mach.tempValid (m : Mach) (c : CellEst) : Bool :=
  match c.temp with
  | none => false
  | some t => decide ((m.cycle - t.2).toNat ≤ 3 * m.prog.esti 0x138) && !c.flags.getLsbD 7

/-- The temperature for a cell's filter. -/
def Mach.tempFor (m : Mach) (c : CellEst) (th : Rat) : Rat := c.tempNow (m.tempValid c) th

/-- The readings beside inner wire `w` have moved in opposite directions with their sum unchanged, and Σ r_j equals v_term (R292):
unchanged and equal within the 10 mV of R291.
DEDUCED: log entry 60. -/
def NodeEst.swapSign (x : NodeEst) (c w : Nat) (r : List Rat) (vTerm : Rat) : Bool :=
  let d := fun j => r.getD j 0 - ratOf (x.cells.toList.getD j .init).corr
  let small := fun (y : Rat) => decide (ratAbs y ≤ mkRat 10 1000)
  decide (0 < w ∧ w < c) && decide (d w * d (w - 1) < 0) && small (d w + d (w - 1)) && small (ratSum r - vTerm)
    && !(small (d w) && small (d (w - 1)))

/-- The impedances beside inner wire `w` have departed in opposite directions from those of the lea before, and their sum holds
within 5 % (R292).
DEDUCED: log entry 60. -/
def NodeEst.impSign (x : NodeEst) (c w : Nat) : Bool :=
  let get := fun j =>
    let e := x.cells.toList.getD j .init
    match e.r0, e.r0Was with
    | some a, some b => some (ratOf a, ratOf b)
    | _, _ => none
  match get (w - 1), get w with
  | some a, some b =>
    let far := fun (y : Rat × Rat) => decide (ratAbs y.2 < 20 * ratAbs (y.1 - y.2))
    decide (0 < w ∧ w < c) && far a && far b && decide ((a.1 - a.2) * (b.1 - b.2) < 0)
      && decide (20 * ratAbs (a.1 + b.1 - a.2 - b.2) ≤ ratAbs (a.2 + b.2))
  | _, _ => false

/-- A signature of R291 or R292 shows on a wire. -/
def NodeEst.wireShows (x : NodeEst) (c w : Nat) (r : List Rat) (vTerm : Rat) : Bool :=
  x.signs.toList.getD w 0 != 0 || x.wireBad w || x.swapSign c w r vTerm || x.impSign c w

/-- A hard short shows at cell `j` of `c`, with the readings `r` (R282). -/
def Mach.hardShort (m : Mach) (x : NodeEst) (c j : Nat) (r : List Rat) (vTerm : Option Rat) : Bool :=
  let step := m.prog.estv 0x150
  let d := x.cells.toList.getD j .init
  match vTerm, x.vTerm with
  | some v, some w =>
    d.ready && decide (step < ratOf d.pred - r.getD j 0) && decide (step - mkRat 15 1000 ≤ ratOf w - v)
      && !x.wireShows c j r v && !x.wireShows c (j + 1) r v
  | _, _ => false

/-- The flags of a cell that follow from its node (R265): excluded, the states of the wires beside it, reinit. -/
def NodeEst.cellFlags (x : NodeEst) (j : Nat) (f : BitVec 10) (settled : Bool) : BitVec 10 :=
  putFlag (putFlag (putFlag (putFlag (putFlag f 0 (!settled)) 1 (x.beside j Wire.suspected)) 2 (x.beside j Wire.isOpen))
    3 (x.beside j Wire.unclear)) 9 (decide (0 < x.reinit))

/-- Readings against the software limits (R300): runs of records. -/
def RefProgState.limitRuns (p : RefProgState) (c : CellEst) (v : Rat) : CellEst :=
  { c with hiRun := if p.protv 0x6008 < v then min 5 (c.hiRun + 1) else 0
           loRun := if v < p.protv 0x600C then min 5 (c.loRun + 1) else 0 }

/-- The reading that a cell is estimated by: beside a broken end wire v_term less the others (R293). -/
def NodeEst.readingOf (x : NodeEst) (c : Nat) (r : List Rat) (vTerm : Option Rat) (j : Nat) : Rat :=
  let raw := r.getD j 0
  let ends := (j = 0 ∧ x.wireBad 0) ∨ (j + 1 = c ∧ x.wireBad c)
  match vTerm with
  | some v => if ends then v - (ratSum r - raw) else raw
  | none => raw

/-- The inner wires that are suspected or open: the readings beside each are replaced by their sum (R293). -/
def NodeEst.pairWires (x : NodeEst) (c : Nat) : List Nat := (List.range c).filter fun w => decide (0 < w) && x.wireBad w

/-- The measurements of one record: pairs by their sums, wire by wire, other cells alone; only settled readings count (R285). -/
def RefProgState.measureAll (p : RefProgState) (x : NodeEst) (c : Nat) (z : List Rat) (settled : Nat → Bool)
    (temp : Nat → Rat) (th : Rat) : Vector CellEst 6 :=
  if p.ocvPoints.isEmpty then x.cells
  else
    let ws := x.pairWires c
    let alone : Vector CellEst 6 := Vector.ofFn fun i =>
      let j := i.val
      if c ≤ j ∨ j ∈ ws ∨ j + 1 ∈ ws ∨ settled j = false then x.cells[i] else p.measure x.cells[i] (z.getD j 0) (temp j) th
    ws.foldl (fun (cs : Vector CellEst 6) w =>
      if settled (w - 1) && settled w then
        let r := p.measurePair (cs.toList.getD (w - 1) .init) (cs.toList.getD w .init) (z.getD (w - 1) 0 + z.getD w 0) (temp w)
        (cs.setIfInBounds (w - 1) r.1).setIfInBounds w r.2
      else cs) alone

/-- The value by which the limits take a cell (R300): half the sum beside an open inner wire. -/
def NodeEst.limitVolt (x : NodeEst) (c : Nat) (z : List Rat) (j : Nat) : Rat × Bool :=
  let half := fun w => (z.getD (w - 1) 0 + z.getD w 0) / 2
  if 0 < j ∧ x.wire j Wire.isOpen then (half j, true)
  else if j + 1 < c ∧ x.wire (j + 1) Wire.isOpen then (half (j + 1), true)
  else (z.getD j 0, false)

/-- Prediction of every cell of a node up to the sample `s`, with the filtered current that its reading sees. In quiet mode a bleed is
on from the first record after the mask named it until the first after it no longer did (R270). -/
def Mach.predictNode (m : Mach) (n : Nat) (x : NodeEst) (s : Word) (th : Rat) (r : Option CellRecord) : NodeEst :=
  let dt := match x.lastAt with
    | none => 0
    | some s' => ((s - s').toNat : Rat) * m.periodRat
  let y := x.seenAt s
  { x with cells := Vector.ofFn fun j =>
             let c := x.cells[j]
             let on := match r with
               | some r => if m.estQuiet then x.mask.getLsbD j.val else r.flags.getLsbD j.val
               | none => c.bleed
             if c.ready then m.predict n x c dt (m.tempFor c th) y on else c
           charge := bfpZero, lastAt := some s }

/-- The mean of a node's thermistors, from a record or by the last seconds. -/
def thermMean (x : NodeEst) (r : Option CellRecord) : Rat :=
  match r with
  | some r => mkRat (r.th.1 + r.th.2) 200
  | none => match x.thA.means.head?, x.thB.means.head? with
    | some a, some b => (ratOf a + ratOf b) / 2
    | some a, none => ratOf a
    | none, some b => ratOf b
    | none, none => 25

/-! ## Leas (R276, R277) -/

/-- The multi-sine runs in this cycle. -/
def Mach.sineRuns (m : Mach) : Bool := m.prog.loop.injOn && m.prog.inj 0x80 % 16 == 5

/-- Cycles since the table's start. -/
def Mach.sineIndex (m : Mach) (c : Word) : Nat := (c - BitVec.ofNat 32 (m.prog.esti 0x204)).toNat

/-- cos and -sin of a tone at a sample. -/
def Mach.toneAt (m : Mach) (f : Word) (s : Word) : Rat × Rat :=
  let x := (bfpVal f).mul (Dy.ofInt (m.sineIndex s * m.get F.FLY_CYCLE_period))
  ((phaseSin (x.add (Dy.ofInt 250000)) 1000000).rat, -(phaseSin x 1000000).rat)

/-- A value added to sums, tone by tone. -/
def leaAdd (acc : List (Word × Word)) (z : Rat) (e : List (Rat × Rat)) : List (Word × Word) :=
  ((List.range e.length).zip e).map fun (k, w) =>
    let a := acc.getD k (bfpZero, bfpZero)
    (refWord 50 (ratOf a.1 + z * w.1), refWord 51 (ratOf a.2 + z * w.2))

/-- A reading joins a sum: it begins a hank, or counts relative to the hank's first reading (R277). -/
def LeaSum.take (s : LeaSum) (begins : Bool) (z : Rat) (e : List (Rat × Rat)) : LeaSum :=
  if begins then { s with first := refWord 49 z, part := e.map fun _ => (bfpZero, bfpZero) }
  else { s with part := leaAdd s.part (z - ratOf s.first) e }

/-- A hank is over: its sums, with the first reading's share by the tones' own sums, are added into the totals. -/
def LeaSum.close (s : LeaSum) (hank : List (Word × Word)) : LeaSum :=
  let own := leaAdd s.total 1 (s.part.map fun x => (ratOf x.1, ratOf x.2))
  { total := leaAdd own (ratOf s.first) (hank.map fun x => (ratOf x.1, ratOf x.2)), first := bfpZero, part := [] }

/-- The hank in progress is over for a node and its cells. -/
def NodeEst.closeHank (x : NodeEst) : NodeEst :=
  if x.hank.isEmpty then x
  else
    { x with lea := x.lea.close x.hank, cells := x.cells.map fun c => { c with lea := c.lea.close x.hank }, hank := [] }

/-- The sums of a node go on by one due record: readings that are settled, else predictions.
DEDUCED: log entry 61. -/
def Mach.leaStep (m : Mach) (c : Nat) (x : NodeEst) (s : Word) (z : List Rat) (settled : Nat → Bool) : NodeEst :=
  if m.prog.glob.leaCount = 0 ∧ m.prog.glob.leaOn = false then x
  else
    let e := m.prog.tones.map fun t => m.toneAt t.1 s
    let begins := x.leaN % 1000 == 0
    let x := if begins then x.closeHank else x
    { x with lea := x.lea.take begins (x.seenAt s) e, leaN := x.leaN + 1, hank := leaAdd x.hank 1 e
             cells := Vector.ofFn fun j =>
               let d := x.cells[j]
               if c ≤ j.val then d
               else
                 let v := if settled j.val then z.getD j.val 0 else ratOf d.pred
                 { d with lea := d.lea.take begins v e, leaRep := if settled j.val then d.leaRep else d.leaRep + 1 } }

/-! ## The record of a node, whole -/

/-- A due record that is missing: prediction only (R271), and predictions in the lea. -/
def Mach.nodeMissing (m : Mach) (n : Nat) (x : NodeEst) (s : Word) : NodeEst :=
  let x := m.predictNode n x s (thermMean x none) none
  let x := { x with cells := x.cells.map fun c => { c with calm := 0, flags := putFlag c.flags 0 true } }
  m.leaStep (m.cellNum n) x s [] fun _ => false

/-- v_term of this frame, or the last valid one. -/
def Mach.termNow (m : Mach) (n : Nat) : Option Rat := (m.lastSlot n).map fun w => mkRat (slotMv w) 1000

/-- A new record of a node: the node after it, and the wire tested with its step. -/
def Mach.nodeRecord (m : Mach) (n : Nat) (x : NodeEst) (s : Word) (r : CellRecord) : NodeEst × Option (Nat × Int) :=
  let p := m.prog
  let c := m.cellNum n
  let th := thermMean x (some r)
  let vt := m.termNow n
  let follows := match x.lastAt with
    | some s' => (s - s').toNat == m.cellDiv
    | none => false
  let volts := m.correctedVolts n x r
  let x := m.predictNode n { x with die := r.die } s th (some r)
  let x := { x with cells := Vector.ofFn fun j => x.cells[j].calmStep r j.val follows, reinit := x.reinit - 1 }
  let need := m.settleRecords + 1
  let settled := fun j => decide (need ≤ (x.cells.toList.getD j .init).calm) && !m.modeFresh
  let all := (List.range c).all settled
  let w := m.wireWatch c x r (((m.lastSlot n).map fun w => (slotMv w : Int)).getD 0) all
  let y := w.1.cells.toList.map fun d => ratOf d.pred
  let x := match vt with
    | some v => if r.testing then w.1 else w.1.suspect c fun i => wireSign c i volts y v
    | none => w.1
  let z := (List.range c).map fun j => x.readingOf c volts vt j
  let hard := (List.range c).filter fun j => settled j && m.hardShort x c j volts vt
  let temp := fun j => m.tempFor (x.cells.toList.getD j .init) th
  let x := m.leaStep c x s z fun j => settled j && !x.cellBad j
  let cells := p.measureAll x c z settled temp th
  let x := { x with cells := Vector.ofFn fun j =>
    let d := cells[j]
    if c ≤ j.val then d
    else
      let lim := x.limitVolt c z j.val
      let d := if r.onWire j.val then d else p.limitRuns d lim.1
      { d with corr := refWord 42 (z.getD j.val 0), tap := if r.onWire j.val then d.tap else some (refWord 42 (z.getD j.val 0))
               short := d.short || decide (j.val ∈ hard)
               bleed := if m.estQuiet then x.mask.getLsbD j.val else r.flags.getLsbD j.val
               flags := x.cellFlags j.val d.flags (settled j.val && !p.ocvPoints.isEmpty) } }
  let mean := fun (t : ThermEst) (v : Int) => { t with sum := t.sum + v, count := t.count + 1 }
  ({ x with vTerm := vt.map (refWord 43), hard := x.hard || !hard.isEmpty, thNow := refWord 48 th
            thA := mean x.thA r.th.1, thB := mean x.thB r.th.2 }, w.2)

/-! ## Bleeding (R283) -/

/-- The lowest and the highest state of charge of a node, of the cells that have one. -/
def NodeEst.socEnds (x : NodeEst) (c : Nat) : Rat × Rat :=
  match ((x.cells.toList.take c).filter (·.ready)).map fun d => ratOf d.soc with
  | [] => (0, 0)
  | v :: rest => rest.foldl (fun a y => (ratMin a.1 y, ratMax a.2 y)) (v, v)

/-- The mask that the node should have. -/
def Mach.maskWanted (m : Mach) (c : Nat) (x : NodeEst) : BitVec 6 :=
  if m.prog.esti 0x120 = 0 ∨ x.hard ∨ x.lost ∨ x.anyBad ∨ x.owTest.isSome ∨ (m.estQuiet ∧ m.sampleUs ≤ 50) then 0
  else
    let low := (x.socEnds c).1
    let bit := fun j =>
      let d := x.cells.toList.getD j .init
      let gap := ratOf d.soc - low
      d.ready && decide (j < c) && (if x.mask.getLsbD j then decide (mkRat 5 100 < gap) else decide (m.prog.estv 0x128 < gap))
    BitVec.ofNat 6 ((List.range 6).map fun j => (bit j).toNat * 2 ^ j).sum

/-- The mask must go at once. -/
def NodeEst.maskAtOnce (x : NodeEst) : Bool := x.hard || x.lost || x.anyBad || x.owTest.isSome

/-- The mask of a node: changed at most once a second, but cleared at once where that is due; the sequence counts the changes
of mask and request. -/
def Mach.maskStep (m : Mach) (c : Nat) (x : NodeEst) (reqWas : Bool) : NodeEst :=
  let want := m.maskWanted c x
  let may := x.maskAtOnce || decide (x.maskNs + 1000000000 ≤ m.nowNs)
  let set := may && want != x.mask
  let x := if set then { x with mask := want, maskNs := m.nowNs } else x
  if set ∨ x.owReq ≠ reqWas then { x with seq := x.seq + 1 } else x

/-- The request word (R265). -/
def NodeEst.request (x : NodeEst) : Int := x.seq.toNat * 2 ^ 16 + x.owReq.toNat * 2 ^ 11 + x.mask.toNat

/-! ## Result vectors (R264, R266) -/

/-- Values as a vector of 8 words with one exponent (R208, R212). -/
def vectorWords (k : Nat) (xs : List Rat) : List Word :=
  (normalise ((List.range 8).map fun j => bfpVal (refWord k (xs.getD j 0)))).1.words

/-- Integers as a vector in integer form. -/
def integerWords (xs : List Int) : List Word := (List.range 8).map fun j => toIntForm (xs.getD j 0)

/-- One VST of a lane; a lane that is off takes nothing (R199).
DEDUCED: log entries 33, 63. -/
def Mach.laneVector (m : Mach) (n off : Nat) (ws : List Word) : Mach :=
  if m.laneOn n then m.laneFull (laneMemBase + 0x2000 * n + off) ws else m

/-- Cells' values behind which other ply follow. -/
def NodeEst.plies (x : NodeEst) (c : Nat) (f : CellEst → Rat) (rest : List Rat) : List Rat :=
  ((List.range 6).map fun j => if j < c then f (x.cells.toList.getD j .init) else 0) ++ rest

/-- The results that follow a record (R264, R320). -/
def Mach.writeNode (m : Mach) (n : Nat) : Mach :=
  let x := m.prog.nodes.toList.getD n .init
  let c := m.cellNum n
  let ends := x.socEnds c
  let q := (x.cells.toList.take c).map fun d => ratOf d.cap
  let low := match q with
    | [] => 0
    | v :: rest => rest.foldl ratMin v
  let known := !m.prog.ocvPoints.isEmpty
  let soc := if known then x.plies c (fun d => ratClamp 0 100 (ratOf d.soc)) [ratClamp 0 100 ends.1, ratClamp 0 100 ends.2] else []
  let rated := m.prog.estv 0x100
  let rs := ((x.cells.toList.take c).filter fun d => d.sohR != bfpZero).map fun d => ratOf d.sohR
  let worst := match rs with
    | [] => 0
    | v :: rest => rest.foldl ratMin v
  let duty := m.bleedDuty x
  let flags := (List.range 6).map fun j =>
    let d := x.cells.toList.getD j .init
    if j < c then ((if d.short then putFlag d.flags 5 true else d.flags).toNat : Int) else 0
  let wires := (Config.wireState (x.wires.toList)).toInt
  let m := m.laneVector n 0x1000 (vectorWords 60 soc)
  let m := m.laneVector n 0x1020 (vectorWords 61 (x.plies c (fun d => ratOf d.cap) [low]))
  let m := m.laneVector n 0x1040 (vectorWords 62 (x.plies c (fun d => 100 * ratOf d.cap / rated) [worst]))
  let m := m.laneVector n 0x1080 (vectorWords 69 (x.plies c (fun d => (d.temp.map fun t => ratOf t.1).getD 0) [ratOf x.thNow]))
  let m := m.laneVector n 0x10E0 (vectorWords 63 (x.plies c (fun d => ratOf d.corr)
    [(x.vTerm.map ratOf).getD 0, ratSum ((x.cells.toList.take c).map fun d => ratOf d.corr)]))
  let m := m.laneVector n 0x1100 (vectorWords 64
    (((List.range 6).map fun j => if j < c ∧ x.mask.getLsbD j then duty else 0) ++ [x.dieLimit]))
  let m := m.laneVector n 0x1120 (integerWords (flags ++ [wires]))
  let m := m.laneVector n 0x1160 (integerWords [x.request])
  let prot := x.lost.toNat + 2 * x.anyOpen.toNat + 4 * x.hard.toNat
  m.laneVector n 0x1460 (integerWords ([x.thA.state, x.thB.state, m.prog.glob.hold, prot].map fun (i : Nat) => (i : Int)))

/-- The step of a wire's test in the results (0x1140). -/
def Mach.writeStep (m : Mach) (n w : Nat) (step : Int) : Mach :=
  let old := (List.range 8).map fun i => ratOf (m.laneGet n (0x1140 + 4 * i))
  m.laneVector n 0x1140 (vectorWords 65 ((List.range 7).map fun i => if i = w then mkRat step 20000 else old.getD i 0))

/-! ## The records of a cycle -/

/-- The squared filtered current of a reading joins the sum of the lea. -/
def Mach.leaSquare (m : Mach) (n : Nat) (s : Word) : Mach :=
  let g := m.prog.glob
  if g.leaCount = 0 ∧ g.leaOn = false then m
  else
    let x := m.prog.nodes.toList.getD n .init
    let y := x.seenAt s
    let sq := g.leaSq.setIfInBounds n (refWord 52 (ratOf (g.leaSq.toList.getD n bfpZero) + y * y))
    { m with prog := { m.prog with glob := { g with leaSq := sq } } }

/-- One position in the estimation section: reinitialisation (R294), current (R269), record (R271), mask (R283). -/
def Mach.estNode (m : Mach) (iM alpha : Rat) (n : Nat) : Mach :=
  let x := m.prog.nodes.toList.getD n .init
  let reqWas := x.owReq
  let inval := (readMemWord m.mem (frameAddr m.cycle + 0x530 + 4 * (3 - n / 32))).getLsbD (n % 32)
  let x := if inval then m.reinitNode n x else x
  let x := m.nodeCurrent iM alpha n x
  let s := m.sampleOf n m.cycle
  let due := m.recordDue n m.cycle
  let put := fun (m : Mach) (x : NodeEst) => { m with prog := { m.prog with nodes := m.prog.nodes.setIfInBounds n x } }
  let m := m.when inval fun m =>
    m.each ((List.range 16).map fun k => 0x1200 + 32 * k) fun m o => m.laneVector n o (List.replicate 8 bfpZero)
  if due then
    match m.newRecord n with
    | none => ((put m (m.nodeMissing n x s)).writeNode n).leaSquare n s
    | some r =>
      let a := m.nodeRecord n x s r
      let m := (put m (m.maskStep (m.cellNum n) a.1 reqWas)).writeNode n
      let m := m.leaSquare n s
      match a.2 with
      | some t => m.writeStep n t.1 t.2
      | none => m
  else if inval then (put m (m.maskStep (m.cellNum n) x reqWas)).writeNode n else put m x

/-! ## The end of a lea (R275, R277, R279, R280) -/

/-- The temperature table as points that rise in x. -/
def RefProgState.tempPoints (p : RefProgState) : List (Rat × Rat) :=
  (List.range (p.esti 0x300)).map fun i => (p.estv (0x304 + 8 * i), p.estv (0x308 + 8 * i))

/-- x of the temperature table at a temperature: the table falls, so its mirror is inverted. -/
def RefProgState.tempInverse (p : RefProgState) (t : Rat) : Rat :=
  inverseOf (p.tempPoints.map fun a => (a.1, -a.2)) (-t)

/-- An impedance from its sums, in ohms: Z = -V / C.
DEDUCED: log entry 61. -/
def impedance (v c : Word × Word) : Rat × Rat :=
  let a := (ratOf v.1, ratOf v.2)
  let b := (ratOf c.1, ratOf c.2)
  let d := b.1 * b.1 + b.2 * b.2
  (-(a.1 * b.1 + a.2 * b.2) / d, -(a.2 * b.1 - a.1 * b.2) / d)

/-- Enough excitation: abs(C) × 2 / M is at least a quarter of the tone's amplitude. -/
def excited (c : Word × Word) (a : Rat) (samples : Nat) : Bool :=
  let p := ratOf c.1 * ratOf c.1 + ratOf c.2 * ratOf c.2
  decide (a * a * samples * samples ≤ 64 * p)

/-- The learning of R_ref (R280): `th` is the thermistor mean when its conditions hold.
DEDUCED: log entry 61. -/
def RefProgState.learn (p : RefProgState) (c : CellEst) (re : Rat) (th : Option Rat) : CellEst :=
  match th with
  | none => c
  | some t =>
    if p.tempPoints.isEmpty then c
    else
      let target := re / ratOf (Config.refExp (p.tempInverse t))
      let new := match c.rRef with
        | none => target
        | some r => ratOf r + ratClamp (-(ratOf r) / 50) (ratOf r / 50) ((target - ratOf r) / 20)
      { c with rRef := some (refWord 33 new)
               offset := match c.temp with
                 | some y => refWord 55 (t - ratOf y.1)
                 | none => c.offset }

/-- A cell's temperature at the end of a valid lea (R279), with rl (R307). -/
def Mach.cellTemp (m : Mach) (c : CellEst) (re : Rat) : CellEst :=
  let pts := m.prog.tempPoints
  match c.rRef, pts with
  | some r, a :: _ =>
    let x := ratOf (Config.refLn (re / ratOf r))
    let t := (interpolate pts x).1
    let out := decide (x < a.1) || decide ((pts.getLast?.map (·.1)).getD a.1 < x)
    let dt := (m.prog.esti 0x138 : Rat) * m.periodRat / 60
    { c with temp := some (refWord 54 t, m.cycle)
             rise := match c.temp with
               | some old => refWord 56 ((t - ratOf old.1) / dt)
               | none => bfpZero
             flags := putFlag c.flags 7 out }
  | _, _ => { c with temp := none }

/-- Re Z at r_tone referred to 25 °C (R275): through the temperature table at the cell's temperature; without one as it is, in
leas at 20 °C to 30 °C. -/
def RefProgState.healthR (p : RefProgState) (c : CellEst) (re th : Rat) : CellEst :=
  let r25 := if p.tempPoints.isEmpty then (if 20 ≤ th ∧ th ≤ 30 then some re else none)
    else match c.temp with
      | some t => some (re * ratOf (Config.refExp (p.tempInverse 25 - p.tempInverse (ratOf t.1))))
      | none => none
  match r25 with
  | none => c
  | some r =>
    let bol := (c.rBol.map ratOf).getD r
    { c with rBol := some (c.rBol.getD (refWord 57 r)), sohR := if r = 0 then c.sohR else refWord 58 (100 * bol / r) }

/-- One cell at the end of a lea: which tones are valid, and what follows from them. -/
def Mach.leaCell (m : Mach) (n j : Nat) (x : NodeEst) (th : Option Rat) (mean : Rat) : CellEst × (Nat → Option (Rat × Rat)) :=
  let p := m.prog
  let c := x.cells.toList.getD j .init
  let samples := p.esti 0x138 / m.cellDiv
  let whole := decide (100 * c.leaRep ≤ samples) && !x.cellBad j && decide (j < m.cellNum n) && x.leaN == samples
  let amp := fun k => ratOf (p.tones.getD k (0, 0, 0)).2.1
  let z := fun k =>
    let v := c.lea.total.getD k (bfpZero, bfpZero)
    let i := x.lea.total.getD k (bfpZero, bfpZero)
    if whole && decide (k < p.tones.length) && excited i (amp k) samples then some (impedance v i) else none
  let poor := (List.range p.tones.length).any fun k => (z k).isNone
  let c := { c with lea := .init, leaRep := 0
                    flags := putFlag c.flags 6 poor }
  let c := match z (p.esti 0x13C) with
    | some y => p.learn (m.cellTemp c y.1) y.1 th
    | none => c
  let c := match z (p.esti 0x140) with
    | some y => p.healthR { c with r0 := some (refWord 53 y.1), r0Was := c.r0 } y.1 mean
    | none => c
  (c, z)

/-- The rms of the node's current over the lea, apart from the multi-sine, is below 20 A (R280). -/
def Mach.calmCurrent (m : Mach) (n : Nat) (x : NodeEst) : Bool :=
  let samples : Rat := (m.prog.esti 0x138 / m.cellDiv : Nat)
  let sine := ratSum (x.lea.total.map fun c => 2 * (ratOf c.1 * ratOf c.1 + ratOf c.2 * ratOf c.2) / (samples * samples))
  decide (ratOf (m.prog.glob.leaSq.toList.getD n bfpZero) / samples - sine < 400)

/-- The thermistor mean of a node when both are valid and within 1 °C of each other. -/
def NodeEst.thermPair (x : NodeEst) : Option Rat :=
  match x.thA.means.head?, x.thB.means.head? with
  | some a, some b =>
    if x.thA.state = 0 ∧ x.thB.state = 0 ∧ ratAbs (ratOf a - ratOf b) ≤ 1 then some ((ratOf a + ratOf b) / 2) else none
  | _, _ => none

/-- The mean has changed by less than 0.5 °C over the last 10 leas. -/
def Mach.steadyTemp (m : Mach) (n : Nat) (now : Rat) : Bool :=
  match m.prog.glob.leaMeans[9]? with
  | none => false
  | some l => decide (ratAbs (now - ratOf (l.getD n bfpZero)) < 1 / 2)

/-- The impedance results of a lane: a tone's vectors keep the last result where this lea gave none; the lea number last
(R264, R266, R277).
DEDUCED: log entry 61. -/
def Mach.writeLea (m : Mach) (n : Nat) (z : Nat → Nat → Option (Rat × Rat)) (x : NodeEst) (rep lea : Nat) : Mach :=
  let samples := m.prog.esti 0x138 / m.cellDiv
  let m := m.each (List.range m.prog.tones.length) fun m k =>
    let c := x.lea.total.getD k (bfpZero, bfpZero)
    let abs := ratOf (Config.refSqrt (ratOf c.1 * ratOf c.1 + ratOf c.2 * ratOf c.2)) * 2 / samples
    let part := fun (im : Bool) =>
      let off := 0x1200 + 64 * k + (if im then 32 else 0)
      (off, ((List.range 6).map fun j => match z j k with
        | some y => (if im then y.2 else y.1) * 1000000
        | none => ratOf (m.laneGet n (off + 4 * j))) ++ [abs, (rep : Rat)])
    let a := part false
    let b := part true
    (m.laneVector n a.1 (vectorWords 66 a.2)).laneVector n b.1 (vectorWords 67 b.2)
  m.laneVector n 0x1180 (integerWords (List.replicate 8 (lea : Int)))

/-- The vectors of offset and SOH_R (R264). -/
def Mach.writeTemps (m : Mach) (n : Nat) : Mach :=
  let x := m.prog.nodes.toList.getD n .init
  let c := m.cellNum n
  let m := m.laneVector n 0x1060 (vectorWords 68 (x.plies c (fun d => ratOf d.sohR) []))
  m.laneVector n 0x10A0 (vectorWords 70 (x.plies c (fun d => ratOf d.offset) []))

/-- The end of a lea for one node. -/
def Mach.leaNode (m : Mach) (lea n : Nat) : Mach :=
  let x := (m.prog.nodes.toList.getD n .init).closeHank
  let mean := thermMean x none
  let th := match x.thermPair with
    | some t => if m.steadyTemp n t && m.calmCurrent n x then some t else none
    | none => none
  let rs := (List.range 6).map fun j => m.leaCell n j x th mean
  let z := fun j k => (rs[j]?).bind fun r => r.2 k
  let rep := (x.cells.toList.take (m.cellNum n)).foldl (fun a d => max a d.leaRep) 0
  let x' := { x with lea := .init, leaN := 0, cells := Vector.ofFn fun j => ((rs[j.val]?).map (·.1)).getD x.cells[j] }
  let m := { m with prog := { m.prog with nodes := m.prog.nodes.setIfInBounds n x' } }
  ((m.writeLea n z x rep lea).writeTemps n).writeNode n

/-- Every node's sums are thrown away. -/
def Mach.leaDrop (m : Mach) : Mach :=
  { m with prog := { m.prog with
      nodes := m.prog.nodes.map fun x =>
        { x with lea := .init, leaN := 0, hank := [], cells := x.cells.map fun c => { c with lea := .init, leaRep := 0 } }
      glob := { m.prog.glob with leaSq := Vector.replicate 128 bfpZero } } }

/-- The leas of a cycle: the last frame of a window has come when one cycle of the next has passed; a window counts that was
active throughout.
DEDUCED: log entry 61. -/
def Mach.leaTick (m : Mach) : Mach :=
  let len := m.prog.esti 0x138
  if len = 0 ∨ m.prog.tones.isEmpty then m
  else
    let x := m.sineIndex m.cycle % len
    let m :=
      if x = 1 then
        let whole := m.prog.glob.leaOn
        let lea := m.prog.glob.leas + 1
        let m := if whole then
            let m := m.each m.positions fun m n => m.leaNode lea n
            let means := m.prog.nodes.toList.map fun x => refWord 59 (thermMean x none)
            { m with prog := { m.prog with glob := { m.prog.glob with leas := lea
                                                                      leaMeans := (means :: m.prog.glob.leaMeans).take 10 } } }
          else m
        let m := m.leaDrop
        { m with prog := { m.prog with glob := { m.prog.glob with leaOn := false } } }
      else m
    let run := if m.sineRuns then min len (m.prog.glob.leaCount + 1) else 0
    let on := if x + 1 = len then run == len else m.prog.glob.leaOn
    { m with prog := { m.prog with glob := { m.prog.glob with leaCount := run, leaOn := on } } }

/-! ## Leakage (R281) -/

/-- Insert into a rising list. -/
def rankUp (x : Rat) : List Rat → List Rat
  | [] => [x]
  | y :: rest => if x ≤ y then x :: y :: rest else y :: rankUp x rest

/-- The median; of an even number the mean of the two in the middle.
DEDUCED: log entry 61. -/
def median (xs : List Rat) : Rat :=
  let s := xs.foldl (fun acc x => rankUp x acc) []
  let k := s.length
  if k = 0 then 0 else if k % 2 = 1 then s.getD (k / 2) 0 else (s.getD (k / 2 - 1) 0 + s.getD (k / 2) 0) / 2

/-- i_leak of a cell over the window, before the median; none after a reinitialisation in it. -/
def RefProgState.leakOf (p : RefProgState) (c : CellEst) : Option Rat :=
  if c.leakBad || !c.ready then none
  else
    some ((ratOf c.cap * (ratOf c.leakSoc - ratOf c.soc) / 100 * 3600 - ratOf c.leakQ) / p.estv 0x144)

/-- The flags of a result. -/
def RefProgState.leakFlags (p : RefProgState) (f : BitVec 10) (i : Rat) : BitVec 10 :=
  putFlag (putFlag f 4 (decide (p.estv 0x148 < i))) 5 (decide (p.estv 0x14C < i))

/-- The end of a leakage window. -/
def Mach.leakEnd (m : Mach) : Mach :=
  let p := m.prog
  let all := m.positions.flatMap fun n =>
    ((p.nodes.toList.getD n .init).cells.toList.take (m.cellNum n)).filterMap p.leakOf
  let mid := median all
  let nodes := p.nodes.map fun x => { x with cells := x.cells.map fun c =>
    let c' := match p.leakOf c with
      | some i => { c with flags := p.leakFlags c.flags (i - mid) }
      | none => c
    { c' with leakSoc := c.soc, leakQ := bfpZero, leakBad := false } }
  let m' := { m with prog := { p with nodes := nodes, glob := { p.glob with leakNs := m.nowNs } } }
  m'.each m.positions fun a n =>
    let x := p.nodes.toList.getD n .init
    let old := fun j => ratOf (a.laneGet n (0x10C0 + 4 * j))
    let vs := (List.range 6).map fun j =>
      if j < a.cellNum n then ((p.leakOf (x.cells.toList.getD j .init)).map fun i => i - mid).getD (old j) else 0
    (a.laneVector n 0x10C0 (vectorWords 71 vs)).writeNode n

/-- Every leak_window seconds. -/
def Mach.leakTick (m : Mach) : Mach :=
  if (m.prog.glob.leakNs : Rat) + m.prog.estv 0x144 * 1000000000 ≤ (m.nowNs : Rat) then m.leakEnd else m

end Sys2Proof.Machine
end

