-- ==== Sys2Proof/Machine/RefThermal.lean ====
section
/-!
DEFINITION. The reference program's thermal limits and protection (ch. 09): thermistors with substitutes and holds (R302 to
R304), temperature factors and limits (R300, R305, R306), rates and levels (R307, R308), stops (R310 to R313), the string
summary (R320), and the estimation section as a whole.
-/

namespace Sys2Proof.Machine

/-! ## One thermistor (R303, R304) -/

/-- What a thermistor's second is judged by: its own mean, the other's mean, whether the other is valid, and the node's valid
impedance temperatures with their offsets. -/
structure ThermIn where
  mean     : Option Rat
  other    : Option Rat
  otherOk  : Bool
  imps     : List Rat
  offsets  : List Rat
  deriving DecidableEq, Repr

/-- The mean of a list that is not empty. -/
def meanOf (xs : List Rat) : Option Rat := if xs.isEmpty then none else some (ratSum xs / xs.length)

/-- The 1 s mean of a thermistor. -/
def ThermEst.mean (t : ThermEst) : Option Rat := if t.count = 0 then none else some (mkRat t.sum (100 * t.count))

/-- A failed condition of R303. -/
def ThermEst.fails (t : ThermEst) (x : ThermIn) : Bool :=
  match x.mean with
  | none => true
  | some v =>
    decide (v < -40) || decide (mkRat 12499 100 < v)
      || (match t.lastRaw with
          | some o => decide (5 < ratAbs (v - ratOf o))
          | none => false)
      || (match x.other, meanOf x.imps with
          | some o, some i => decide (15 < ratAbs (v - o)) && decide (ratAbs (o - i) ≤ 5)
          | _, _ => false)

/-- The substitute of a failed thermistor (R304): the larger of what is available. -/
def ThermEst.substitute (t : ThermEst) (x : ThermIn) : Option Rat :=
  let a := match x.other, meanOf (t.diffs.map ratOf) with
    | some o, some d => if x.otherOk then some (o + d) else none
    | _, _ => none
  let b := match meanOf x.imps, meanOf x.offsets with
    | some i, some o => some (i + o)
    | _, _ => none
  match a, b with
  | some a, some b => some (ratMax a b)
  | some a, none => some a
  | none, b => b

/-- r60 of the means, newest first (R307); a substituted sensor keeps the rate of its failure until its window is full (R304). -/
def ThermEst.r60 (t : ThermEst) : Option Rat :=
  match t.means.head?, t.means[60]? with
  | some a, some b => some (ratOf a - ratOf b)
  | _, _ => if t.state = 2 then some (ratOf t.rate) else none

/-- r10 in the same way.
DEDUCED: log entry 62. -/
def ThermEst.r10 (t : ThermEst) : Option Rat :=
  match t.means.head?, t.means[10]? with
  | some a, some b => some ((ratOf a - ratOf b) * 6)
  | _, _ => if t.state = 2 then some (ratOf t.rate10) else none

/-- A run of evaluations at or above a threshold. -/
def runAt (top run : Nat) (r : Option Rat) (limit : Rat) : Nat :=
  match r with
  | some v => if limit ≤ v then min top (run + 1) else 0
  | none => 0

/-- The second of a thermistor: validity, value in use, rates and their runs; and whether it failed in it. -/
def RefProgState.thermSecond (p : RefProgState) (t : ThermEst) (x : ThermIn) : ThermEst × Bool :=
  let bad := t.fails x
  let fine := if bad then 0 else min 600 (t.fine + 1)
  let ok := if t.state = 0 then !bad else fine == 600
  let failed := t.state == 0 && bad
  let diffs := match x.mean, x.other with
    | some v, some o => if ok then (refWord 80 (v - o) :: t.diffs).take 60 else t.diffs
    | _, _ => t.diffs
  let subst := if ok then none else { t with diffs := diffs }.substitute x
  let value := if ok then x.mean else subst
  let old := if failed then [] else t.means
  let means := match value with
    | some v => (refWord 81 v :: old).take 61
    | none => []
  let t := { t with sum := 0, count := 0, fine := fine, diffs := diffs, subst := subst.map (refWord 82), means := means
                    state := if ok then 0 else if subst.isSome then 2 else 1, lastRaw := x.mean.map (refWord 83) }
  let r := t.r60
  ({ t with warn := runAt 60 t.warn r (p.protv 0x6028), derate := runAt 60 t.derate r (p.protv 0x602C)
            stop := runAt 60 t.stop r (p.protv 0x6030), trip := runAt 3 t.trip t.r10 (p.protv 0x6034)
            rate := refWord 84 (r.getD 0), rate10 := refWord 79 (t.r10.getD 0) }, failed)

/-- The value that a thermistor contributes. -/
def ThermEst.value (t : ThermEst) : Option Rat := if t.state = 1 then none else t.means.head?.map ratOf

/-! ## A node's second -/

/-- The valid impedance temperatures of a node's cells, with the stored offsets. -/
def Mach.validImps (m : Mach) (n : Nat) (x : NodeEst) : List (Rat × Rat) :=
  ((x.cells.toList.take (m.cellNum n)).filter m.tempValid).filterMap fun c =>
    c.temp.map fun t => (ratOf t.1, ratOf c.offset)

/-- The thermistors of a node after a second, and which failed in it. -/
def Mach.thermNode (m : Mach) (n : Nat) (x : NodeEst) : NodeEst × Bool × Bool :=
  let imps := m.validImps n x
  let inFor := fun (own other : ThermEst) =>
    ({ mean := own.mean, other := other.mean, otherOk := other.state == 0 && other.mean.isSome
       imps := imps.map (·.1), offsets := imps.map (·.2) } : ThermIn)
  let a := m.prog.thermSecond x.thA (inFor x.thA x.thB)
  let b := m.prog.thermSecond x.thB (inFor x.thB x.thA)
  let x := { x with thA := a.1, thB := b.1 }
  let none' := x.thA.value.isNone && x.thB.value.isNone && imps.isEmpty
  let k := if none' then min 60 (x.noTemp + 1) else 0
  ({ x with noTemp := k, lost := k == 60 }, a.2, b.2)

/-- θ_hi and θ_lo of a cell (R302). -/
def Mach.cellTemps (m : Mach) (x : NodeEst) (j : Nat) : Option (Rat × Rat) :=
  let c := x.cells.toList.getD j .init
  let imp := if m.tempValid c then c.temp.map fun t => ratOf t.1 else none
  match [x.thA.value, x.thB.value, imp].filterMap id with
  | [] => none
  | v :: rest => some (rest.foldl ratMax v, rest.foldl ratMin v)

/-- Every cell's temperatures. -/
def Mach.allTemps (m : Mach) : List (Rat × Rat) :=
  m.positions.flatMap fun n =>
    let x := m.prog.nodes.toList.getD n .init
    (List.range (m.cellNum n)).filterMap fun j => m.cellTemps x j

/-- The hottest and the coldest temperature of the string. -/
def extremes : List (Rat × Rat) → Option (Rat × Rat)
  | [] => none
  | v :: rest => some (rest.foldl (fun a x => (ratMax a.1 x.1, ratMin a.2 x.2)) v)

/-! ## Factors and level (R305, R308) -/

/-- A curve at a temperature within its window; 0 outside. -/
def curveAt (pts : List (Rat × Rat)) (lo hi t : Rat) : Rat := if t < lo ∨ hi < t then 0 else
  match pts.getLast? with
  | some e => if e.1 ≤ t then e.2 else (interpolate pts t).1
  | none => 0

/-- The temperature factor of a direction. -/
def RefProgState.tempFactor (p : RefProgState) (charge : Bool) (hot cold : Rat) : Rat :=
  let lo := if charge then p.protv 0x6020 else -20
  let hi := if charge then p.protv 0x6024 else 55
  ratMin (curveAt (p.curve charge) lo hi hot) (curveAt (p.curve charge) lo hi cold)

/-- The rates of the string: r60 of each thermistor, rl of each cell with a temperature. -/
def Mach.allRates (m : Mach) : List Rat :=
  m.positions.flatMap fun n =>
    let x := m.prog.nodes.toList.getD n .init
    [x.thA.r60, x.thB.r60].filterMap id
      ++ ((x.cells.toList.take (m.cellNum n)).filter fun c => c.temp.isSome).map fun c => ratOf c.rise

/-- The highest level whose condition some sensor meets (R308). -/
def Mach.levelMet (m : Mach) : Nat :=
  let p := m.prog
  let ths := m.positions.flatMap fun n => let x := p.nodes.toList.getD n .init; [x.thA, x.thB]
  let rises := m.positions.flatMap fun n =>
    (((p.nodes.toList.getD n .init).cells.toList.take (m.cellNum n)).filter fun c => c.temp.isSome).map fun c => ratOf c.rise
  let hotTrip := m.allTemps.any fun t => decide (p.protv 0x6038 ≤ t.1)
  let at' := fun (k : ThermEst → Nat) (o : Nat) => ths.any (fun t => k t == 60) || rises.any fun r => decide (p.protv o ≤ r)
  if hotTrip ∨ ths.any (fun t => t.trip == 3) then 4
  else if at' (·.stop) 0x6030 then 3 else if at' (·.derate) 0x602C then 2 else if at' (·.warn) 0x6028 then 1 else 0

/-- The level of the second: it rises at once, falls by one after 300 s below rate_warn, not during a hold; ORDERLY and
IMMEDIATE stay (R304, R308).
DEDUCED: log entry 62. -/
def Mach.levelNext (m : Mach) (g : EstGlobal) : EstGlobal :=
  let met := m.levelMet
  let below := if m.allRates.all fun r => decide (r < m.prog.protv 0x6028) then min 300 (g.below + 1) else 0
  if g.level < met then { g with level := met, below := 0 }
  else if 0 < g.level ∧ g.level < 3 ∧ below = 300 ∧ g.hold = 0 then { g with level := g.level - 1, below := 0 }
  else { g with below := below }

/-! ## The second of the string -/

/-- A hold starts or restarts (R304): one runs, or the failed sensor was the hottest while the string was throttling.
DEDUCED: log entry 62. -/
def Mach.holdStarts (m : Mach) (fails : List Rat) (any : Bool) : Bool :=
  let g := m.prog.glob
  let throttling := decide (ratOf g.fChg < 1) || decide (ratOf g.fDis < 1) || g.level == 2
  (any && decide (0 < g.hold)) || (throttling && fails.any fun v => decide (ratOf (m.summary 2) ≤ v))

/-- What each second does. -/
def Mach.secondTick (m : Mach) : Mach :=
  let rs : List (NodeEst × Bool × Bool) :=
    (List.range 128).map fun n =>
      let x := m.prog.nodes.toList.getD n .init
      if n < m.nodeCount then m.thermNode n x else (x, false, false)
  let fails := (List.range 128).flatMap fun n =>
    let x := m.prog.nodes.toList.getD n .init
    match rs[n]? with
    | some r => (if r.2.1 then [x.thA.value] else []) ++ (if r.2.2 then [x.thB.value] else [])
    | none => []
  let hold := m.holdStarts (fails.filterMap id) (!fails.isEmpty)
  let g := m.prog.glob
  let g := if hold then { g with hold := (Rat.ceil (m.prog.protv 0x6044)).toNat, holdDis := g.iDis, holdChg := g.iChg }
    else { g with hold := g.hold - 1 }
  let m := { m with prog := { m.prog with nodes := Vector.ofFn fun n => ((rs[n.val]?).map Prod.fst).getD .init, glob := g } }
  let g := m.levelNext g
  let g := match extremes m.allTemps with
    | some e => { g with fChg := refWord 85 (m.prog.tempFactor true e.1 e.2), fDis := refWord 86 (m.prog.tempFactor false e.1 e.2) }
    | none => g
  { m with prog := { m.prog with glob := g } }

/-- The vectors of R320 for a lane, by the second. -/
def Mach.writeThermal (m : Mach) (n : Nat) : Mach :=
  let x := m.prog.nodes.toList.getD n .init
  let c := m.cellNum n
  let ts := (List.range 6).map fun j => if j < c then m.cellTemps x j else none
  let ends := (extremes (ts.filterMap id)).getD (0, 0)
  let m' := m.laneVector n 0x1400 (vectorWords 87 (ts.map (fun t => (t.map (·.1)).getD 0) ++ [ends.1, ends.2]))
  let m' := m'.laneVector n 0x1420 (vectorWords 88 (ts.map fun t => (t.map (·.2)).getD 0))
  let rl := ((x.cells.toList.take c).filter fun d => d.temp.isSome).map fun d => ratOf d.rise
  let top := match rl with
    | [] => 0
    | v :: rest => rest.foldl ratMax v
  (m'.laneVector n 0x1440 (vectorWords 89 [x.thA.r60.getD 0, x.thB.r60.getD 0, top])).writeNode n

/-- The sample instant in the frame, in nanoseconds. -/
def Mach.sampleNs (m : Mach) : Nat := (m.frameNow 0x0C).toNat * 1000000000 + (m.frameNow 0x08).toNat * 2 ^ 32 * 1000000000
  + (m.frameNow 0x10).toNat

/-- Every position has delivered a record since the start. -/
def Mach.allRecorded (m : Mach) : Bool :=
  m.positions.all fun n => decide (0 < (m.prog.nodes.toList.getD n .init).thA.count)

/-- The seconds of the program: the first once every position has delivered a record, at the latest after 1 s; then each second
by TSAMP.
DEDUCED: log entry 62. -/
def Mach.secondDue (m : Mach) : Option Nat :=
  let t := m.sampleNs
  let last := m.prog.glob.secNs
  if last = 0 then
    if m.allRecorded && !m.positions.isEmpty || decide (1000000 ≤ m.sinceStart * m.get F.FLY_CYCLE_period) then some t else none
  else if last + 1000000000 ≤ t then some (last + 1000000000) else none

/-- The second, when it is due. -/
def Mach.secondStep (m : Mach) : Mach :=
  match m.secondDue with
  | none => m
  | some t =>
    let m := m.secondTick
    let m := { m with prog := { m.prog with glob := { m.prog.glob with secNs := t } } }
    m.each m.positions Mach.writeThermal

/-! ## Limits (R300, R306) -/

/-- The values by which the tapers take the cells, from readings without test current on their wires: for charge and for discharge,
50 mV apart beside an open inner wire (R300). -/
def Mach.taperVolts (m : Mach) : List (Rat × Rat) :=
  m.positions.flatMap fun n =>
    let x := m.prog.nodes.toList.getD n .init
    let c := m.cellNum n
    let taps := (x.cells.toList.take c).map (·.tap)
    let z := taps.map fun w => ratOf (w.getD bfpZero)
    ((List.range c).filter fun j => (taps.getD j none).isSome).map fun j =>
      let v := x.limitVolt c z j
      let d : Rat := if v.2 then mkRat 50 1000 else 0
      (v.1 + d, v.1 - d)

/-- The voltage factors of charge and discharge; without a reading 0. -/
def Mach.voltFactors (m : Mach) : Rat × Rat :=
  let p := m.prog
  match extremes m.taperVolts with
  | none => (0, 0)
  | some e =>
    (ratClamp 0 1 ((p.protv 0x6010 - e.1) / (p.protv 0x6010 - p.protv 0x6014)),
     ratClamp 0 1 ((e.2 - p.protv 0x6018) / (p.protv 0x601C - p.protv 0x6018)))

/-- The permitted limits of this cycle (R306), under a hold not above its values (R304). -/
def Mach.permitted (m : Mach) : Rat × Rat :=
  let p := m.prog
  let g := p.glob
  let f := m.voltFactors
  let xs := m.positions.map fun n => p.nodes.toList.getD n .init
  let rate := if g.level = 2 then p.protv 0x6040 else 1
  let ow := if xs.any (·.anyOpen) then p.protv 0x604C else 1
  let leak := xs.any fun x => x.cells.toList.any fun c => c.flags.getLsbD 5
  let base := p.ctl 0x08 * rate * ow
  let chg := base * ratMin (ratOf g.fChg) f.1 * (if leak then 0 else 1)
  let dis := base * ratMin (ratOf g.fDis) f.2 * (if leak then 1 / 2 else 1)
  if 0 < g.hold then (ratMin chg (ratOf g.holdChg), ratMin dis (ratOf g.holdDis)) else (chg, dis)

/-- The limits of the cycle are kept for the fast section and the summary. -/
def Mach.limitStep (m : Mach) : Mach :=
  let l := m.permitted
  { m with prog := { m.prog with glob := { m.prog.glob with iChg := refWord 90 l.1, iDis := refWord 91 l.2 } } }

/-! ## Stops and the string summary (R309 to R313, R320) -/

/-- The causes whose conditions hold, immediate ones first, then by code (R309, R312). -/
def Mach.causesFound (m : Mach) : List Nat :=
  let p := m.prog
  let xs := m.positions.map fun n => p.nodes.toList.getD n .init
  let ths := xs.flatMap fun x => [x.thA, x.thB]
  let temps := m.allTemps
  let rises := m.allRates
  let cells := xs.flatMap fun x => x.cells.toList
  let hot := fun (o : Nat) => temps.any fun t => decide (p.protv o ≤ t.1)
  let list : List (Nat × Bool) :=
    [(0x10, ths.any fun t => t.trip == 3), (0x11, hot 0x6038), (0x12, cells.any fun c => c.hiRun == 5),
     (0x13, cells.any fun c => c.loRun == 5),
     (0x01, p.glob.level == 3 || ths.any (fun t => t.stop == 60) || rises.any fun r => decide (p.protv 0x6030 ≤ r)),
     (0x02, hot 0x603C), (0x03, xs.any (·.hard)), (0x04, decide (p.proti 0x6050 < (xs.filter (·.anyOpen)).length)),
     (0x05, decide (p.proti 0x6054 < (xs.filter (·.lost)).length))]
  (list.filter (·.2)).map (·.1)

/-- The stop request and cause: the first cause stays, an immediate one replaces an orderly one (R312). -/
def stopNext (found : List Nat) (req cause : Nat) : Nat × Nat :=
  match found with
  | [] => (req, cause)
  | c :: _ => if req = 0 then (if 0x10 ≤ c then 2 else 1, c) else if req = 1 ∧ 0x10 ≤ c then (2, c) else (req, cause)

/-- The levels of a stop end for the program when the cause was cleared in the summary (R312). -/
def Mach.levelCleared (m : Mach) : Mach :=
  if 3 ≤ m.prog.glob.level ∧ intForm (m.summary 5) = 0 then
    { m with prog := { m.prog with glob := { m.prog.glob with level := 0 } } }
  else m

/-- The string summary of this cycle.
DEDUCED: log entry 63. -/
def Mach.summaryWrite (m : Mach) : Mach :=
  let g := m.prog.glob
  let e := extremes m.allTemps
  let s := stopNext m.causesFound (intForm (m.summary 6)).toNat (intForm (m.summary 7)).toNat
  let rates := m.allRates
  let rate := match rates with
    | [] => 0
    | v :: rest => rest.foldl ratMax v
  let temp := fun (k : Nat) (old : Word) (f : Rat × Rat → Rat) => match e with
    | some x => refWord k (f x)
    | none => old
  m.laneVector 0 0x1480 [g.iDis, g.iChg, temp 92 (m.summary 2) Prod.fst, temp 93 (m.summary 3) Prod.snd, refWord 94 rate,
    toIntForm g.level, toIntForm s.1, toIntForm s.2]

/-! ## The estimation section -/

/-- The results at the start cycle: those of an earlier run go. -/
def Mach.clearResults (m : Mach) (n : Nat) : Mach :=
  let offs := (List.range 12).map (fun k => 0x1000 + 32 * k) ++ [0x1180] ++ (List.range 16).map (fun k => 0x1200 + 32 * k)
    ++ [0x1400, 0x1420, 0x1440, 0x1460]
  (m.each offs fun m o => m.laneVector n o (List.replicate 8 bfpZero)).writeNode n

/-- The last change of meas_mode no longer matters (R285). -/
def Mach.modeOld (m : Mach) : Mach :=
  if m.modeFresh then m else { m with prog := { m.prog with glob := { m.prog.glob with modeAt := none } } }

/-- The estimation section of the reference program. -/
def Mach.refEstimate (m : Mach) : Mach :=
  let m := m.modeOld
  let m := m.when m.startCycle fun m => m.each m.positions Mach.clearResults
  let m := m.when m.swapInFrame fun m => m.each m.positions Mach.writeNode
  let m := m.levelCleared
  let iM := ratOf m.prog.loop.iM
  let a := m.alpha
  let m := m.each m.positions fun m n => m.estNode iM a n
  ((m.leaTick.secondStep).leakTick.limitStep).summaryWrite

end Sys2Proof.Machine
end

