-- ==== Sys2Proof/Machine/ReludCode.lean ====
section
/-!
DEFINITION. Instruction words of Relud: the fields (R229, R230), the long form (R231), and the instruction that a word spells
(R232, R238 to R259). A word that spells none is ILLEGAL (R237).
-/

namespace Sys2Proof.Machine

/-- The fields of an instruction word (R229). -/
structure Fields where
  major : BitVec 6
  d     : BitVec 5
  a     : BitVec 5
  b     : BitVec 5
  m     : BitVec 3
  func  : BitVec 8
  imm   : BitVec 16
  deriving DecidableEq, Repr

/-- The fields of formats R and I. -/
def fieldsOfWord (w : Word) : Fields :=
  ⟨w.extractLsb' 26 6, w.extractLsb' 21 5, w.extractLsb' 16 5, w.extractLsb' 11 5, w.extractLsb' 8 3, w.extractLsb' 0 8,
    w.extractLsb' 0 16⟩

/-- A field that names a mask register (R230). -/
def maskField (x : BitVec 5) : Option MReg := if x.toNat < 8 then some (x.setWidth 3) else none

/-- A field that names a matrix buffer (R230). -/
def matrixField (x : BitVec 5) : Option XReg := if x.toNat < 4 then some (x.setWidth 2) else none

/-- An instruction whose unused fields are 0 (R230). -/
def unused (ok : Bool) (i : Instr) : Option Instr := if ok then some i else none

/-- The constructor that a list gives a code. -/
def ofCode {α : Type} (cs : List α) (code : Nat) : Option α := cs[code]?

/-! ## Scalar and control instructions -/

/-- Major 0x00 (R238). -/
def scalarCode (f : Fields) : Option Instr :=
  let three : List (SReg → SReg → SReg → Instr) :=
    [.add, .sub, .and, .or, .xor, .sll, .srl, .sra, .mul, .mulh, .slt, .sltu, .min, .max]
  if f.m ≠ 0 then none
  else match ofCode three f.func.toNat with
    | some c => some (c f.d f.a f.b)
    | none =>
      match f.func.toNat with
      | 0x0E => unused (f.b == 0) (.jalr f.d f.a)
      | 0x10 => unused (f.a == 0 && f.b == 0) (.rdsc f.d)
      | 0x11 => unused (f.a == 0 && f.b == 0) (.rdtb f.d)
      | 0x12 => unused (f.d == 0 && f.a == 0 && f.b == 0) .secend
      | 0x13 => unused (f.d == 0 && f.a == 0 && f.b == 0) .nop
      | _ => none

/-- Immediates that may stand in the short and in the long form (R231, R232). -/
def immCode (f : Fields) (imm : Imm) : Option Instr :=
  match f.major.toNat with
  | 0x01 => some (.addi f.d f.a imm)
  | 0x02 => some (.andi f.d f.a imm)
  | 0x03 => some (.ori f.d f.a imm)
  | 0x04 => some (.xori f.d f.a imm)
  | 0x06 => some (.slti f.d f.a imm)
  | 0x08 => some (.beq f.d f.a imm)
  | 0x09 => some (.bne f.d f.a imm)
  | 0x0A => some (.blt f.d f.a imm)
  | 0x0B => some (.bge f.d f.a imm)
  | 0x0C => unused (f.a == 0) (.jal f.d imm)
  | 0x0E => unused (f.d == 0) (.waitcyc f.a imm)
  | 0x10 => some (.lds f.d f.a imm)
  | 0x11 => some (.sts f.d f.a imm)
  | 0x12 => some (.ldps f.d f.a imm)
  | _ => none

/-- SHI's kind of shift (R239). -/
def shiKind (c : Nat) : ShiKind :=
  match c with
  | 0 => .sll | 1 => .srl | 2 => .sra | _ => .illegal

/-- The other instructions of format I (R239, R241, R244, R251). -/
def formatICode (f : Fields) : Option Instr :=
  let i := f.imm.toNat
  let off : BitVec 13 := f.imm.setWidth 13
  match f.major.toNat with
  | 0x05 => unused (f.a == 0) (.lui f.d f.imm)
  | 0x07 => unused (decide (i < 0x80)) (.shi f.d f.a (shiKind (i / 32)) (f.imm.setWidth 5))
  | 0x0D => unused (f.d == 0) (.loop f.a f.imm)
  | 0x19 => unused (f.a == 0 && decide (i / 0x2000 % 4 = 0)) (.frls f.d off (f.imm.getLsbD 15))
  | 0x1A => unused (f.a == 0 && decide (i / 0x2000 % 4 = 0)) (.frlb f.d off (f.imm.getLsbD 15))
  | 0x26 => (maskField f.d).bind fun md => unused (f.a == 0 && decide (i < 0x100)) (.mset md (f.imm.setWidth 8))
  | _ => none

/-! ## Memory and frame instructions -/

/-- The items of FRLD (R244). -/
def frldItem (c : Nat) : Option FrldItem := ofCode [.uplink, .flyrec, .cellv, .cellt, .marks, .toggle] c

/-- TSAMP, vector loads and stores, FRLD (R243, R244). Of VST, A names the vector and B the address.
DEDUCED: log entry 37. -/
def memoryCode (f : Fields) : Option Instr :=
  match f.major.toNat with
  | 0x0F => (ofCode [TsampField.secLo, .secHi, .ns] f.func.toNat).bind fun t =>
      unused (f.a == 0 && f.b == 0 && f.m == 0) (.tsamp f.d t)
  | 0x14 => unused (f.b == 0) (.vld f.d f.a f.func f.m)
  | 0x15 => unused (f.d == 0) (.vst f.a f.b f.func f.m)
  | 0x16 => unused (f.b == 0) (.vldp f.d f.a f.func f.m)
  | 0x17 => some (.vldpx f.d f.a f.b f.func f.m)
  | 0x18 => (frldItem (f.func.toNat % 128)).bind fun t =>
      unused (f.a == 0 && f.b == 0) (.frld f.d t (f.func.getLsbD 7) f.m)
  | _ => none

/-! ## Vector, compare and mask instructions -/

/-- Major 0x20 (R246). -/
def vectorCode (f : Fields) : Option Instr :=
  let two := fun (c : VReg → VReg → VReg → MReg → Instr) => some (c f.d f.a f.b f.m)
  let one := fun (c : VReg → VReg → MReg → Instr) => unused (f.b == 0) (c f.d f.a f.m)
  match f.func.toNat with
  | 0x00 => two .vadd
  | 0x01 => two .vsub
  | 0x02 => two .vmul
  | 0x03 => two .vmac
  | 0x04 => two .vmsb
  | 0x05 => two .vdiv
  | 0x06 => one .vsqrt
  | 0x07 => one .vabs
  | 0x08 => one .vneg
  | 0x09 => two .vmin
  | 0x0A => two .vmax
  | 0x0B => one .vmov
  | 0x0C => one .vcvtif
  | 0x0D => one .vcvtfi
  | 0x0E => some (.vscl f.d f.a f.b f.m)
  | 0x0F => one .vsin
  | 0x10 => one .vcos
  | 0x11 => two .vclmp
  | _ => none

/-- Major 0x21 (R247). -/
def vectorScalarCode (f : Fields) : Option Instr :=
  let two := fun (c : VReg → VReg → SReg → MReg → Instr) => some (c f.d f.a f.b f.m)
  match f.func.toNat with
  | 0x00 => two .vadds
  | 0x01 => two .vsubs
  | 0x02 => two .vmuls
  | 0x03 => two .vmacs
  | 0x04 => two .vmsbs
  | 0x05 => two .vdivs
  | 0x09 => two .vmins
  | 0x0A => two .vmaxs
  | _ => none

/-- Major 0x22 (R249). -/
def integerCode (f : Fields) : Option Instr :=
  let cs : List (VReg → VReg → VReg → MReg → Instr) :=
    [.iadd, .isub, .iand, .ior, .ixor, .ishl, .ishr, .isar, .imul, .imin, .imax]
  (ofCode cs f.func.toNat).map fun c => c f.d f.a f.b f.m

/-- Major 0x23 (R250). -/
def compareCode (f : Fields) : Option Instr :=
  let vec : List (MReg → VReg → VReg → MReg → Instr) := [.ceq, .cne, .clt, .cle, .cgt, .cge, .hys]
  let sca : List (MReg → VReg → SReg → MReg → Instr) := [.ceqs, .cnes, .clts, .cles, .cgts, .cges]
  (maskField f.d).bind fun md =>
    if f.func.toNat < 8 then (ofCode vec f.func.toNat).map fun c => c md f.a f.b f.m
    else (ofCode sca (f.func.toNat - 8)).map fun c => c md f.a f.b f.m

/-- Major 0x24 (R251). -/
def maskCode (f : Fields) : Option Instr :=
  let two := fun (c : MReg → MReg → MReg → Instr) =>
    (maskField f.d).bind fun d => (maskField f.a).bind fun a => (maskField f.b).map fun b => c d a b
  if f.m ≠ 0 then none
  else match f.func.toNat with
    | 0x00 => two .mand
    | 0x01 => two .mor
    | 0x02 => two .mxor
    | 0x03 => two .mandn
    | 0x04 => (maskField f.d).bind fun d => (maskField f.a).bind fun a => unused (f.b == 0) (.mnot d a)
    | 0x05 => (maskField f.a).bind fun a => unused (f.b == 0) (.mpop f.d a)
    | 0x06 => (maskField f.d).bind fun d => unused (f.a == 0 && f.b == 0) (.mflg d)
    | 0x07 => (maskField f.a).bind fun a => unused (f.d == 0 && f.b == 0) (.clrflg a)
    | _ => none

/-- Majors 0x25 and 0x27 (R251). -/
def selectCode (f : Fields) : Option Instr :=
  if f.func ≠ 0 then none
  else match f.major.toNat with
    | 0x25 => some (.vsel f.d f.a f.b f.m)
    | 0x27 => (maskField f.d).bind fun md => unused (f.m == 0) (.mlane md f.a f.b)
    | _ => none

/-! ## Cross-lane, ply, matrix and string instructions -/

/-- Major 0x28 (R252). -/
def crossCode (f : Fields) : Option Instr :=
  let k : PlyIx := f.func.setWidth 3
  let op := f.func.toNat / 16
  let keyed : List (VReg → VReg → PlyIx → MReg → Instr) :=
    [.rank, .order, .redsum, .redmax, .redmin, .argmax, .argmin, .pfx]
  if f.func.getLsbD 3 then none
  else match ofCode keyed op with
    | some c => unused (f.b == 0) (c f.d f.a k f.m)
    | none =>
      match op with
      | 0x8 => unused (k == 0 && f.m == 0) (.bcast f.d f.a f.b)
      | 0x9 => unused (k == 0 && f.m == 0) (.nbr f.d f.a f.b)
      | 0xA => unused (f.m == 0) (.gather f.d f.a f.b k)
      | _ => none

/-- Major 0x2C (R253). -/
def plyCode (f : Fields) : Option Instr :=
  let k : PlyIx := f.func.setWidth 3
  match f.func.toNat / 8 with
  | 0 => unused (f.b == 0) (.psum f.d f.a k f.m)
  | 1 => some (.pdot f.d f.a f.b k f.m)
  | 2 => unused (f.b == 0 && f.m == 0) (.pbc f.d f.a k)
  | 3 => unused (decide (f.b.toNat < 8) && f.m == 0) (.pmov f.d f.a k (f.b.setWidth 3))
  | 4 => unused (f.b == 0 && f.m == 0) (.splf f.d f.a k)
  | 5 => unused (f.b == 0 && f.m == 0) (.spli f.d f.a k)
  | 6 => unused (f.m == 0) (.vins f.d f.a f.b k)
  | 7 => unused (f.m == 0) (.vext f.d f.a f.b k)
  | _ => none

/-- Major 0x2D (R254). -/
def matrixCode (f : Fields) : Option Instr :=
  let r : PlyIx := f.func.setWidth 3
  let op := f.func.toNat / 16
  let mul := fun (c : VReg → XReg → VReg → MReg → Instr) =>
    (matrixField f.a).bind fun x => unused (r == 0) (c f.d x f.b f.m)
  if f.func.getLsbD 3 then none
  else match op with
    | 0 => (matrixField f.d).bind fun x => unused (f.b == 0 && f.m == 0 && r == 0) (.mxld x f.a)
    | 1 => (matrixField f.d).bind fun x => unused (f.b == 0 && f.m == 0 && r == 0) (.mxst x f.a)
    | 2 => (matrixField f.d).bind fun x => unused (f.b == 0 && f.m == 0) (.mxrow x f.a r)
    | 3 => (matrixField f.a).bind fun x => unused (f.b == 0 && f.m == 0) (.mxget f.d x r)
    | 4 => mul .mxmul
    | 5 => mul .mxmac
    | 6 => mul .mxmult
    | 7 => (matrixField f.d).bind fun x => unused (r == 0) (.mxr1 x f.a f.b f.m)
    | _ => none

/-- Majors 0x30 to 0x34 (R255 to R259). -/
def stringCode (f : Fields) : Option Instr :=
  match f.major.toNat with
  | 0x30 => unused (f.d == 0 && f.b == 0 && f.m == 0 && f.func == 0) (.emit f.a)
  | 0x31 => unused (f.m == 0 && decide (f.func.toNat < 4)) (.trim f.a f.b f.d (f.func.getLsbD 0) (f.func.getLsbD 1))
  | 0x32 => (matrixField f.d).bind fun x => unused (f.a == 0 && f.b == 0 && f.func == 0) (.prof x f.m)
  | 0x33 =>
    if f.m ≠ 0 then none
    else if f.func = 0 then some (.inj f.d f.a f.b)
    else if f.func = 1 then some (.injMultisine f.d f.a f.b)
    else none
  | 0x34 =>
    if f.func = 0 then unused (f.d == 0 && f.b == 0) (.skrec f.a f.m)
    else if f.func = 1 then unused (f.d == 0 && f.m == 0) (.skw f.a f.b)
    else if f.func = 3 then unused (f.b == 0 && f.m == 0) (.skrd f.d f.a)
    else none
  | _ => none

/-! ## The instruction that a word spells -/

/-- The instruction of one word, by its major opcode (R232); none for any other word. -/
def reludShort (w : Word) : Option Instr :=
  let f := fieldsOfWord w
  let major := f.major.toNat
  if major = 0 then scalarCode f
  else if major = 0x20 then vectorCode f
  else if major = 0x21 then vectorScalarCode f
  else if major = 0x22 then integerCode f
  else if major = 0x23 then compareCode f
  else if major = 0x24 then maskCode f
  else if major = 0x28 then crossCode f
  else if major = 0x2C then plyCode f
  else if major = 0x2D then matrixCode f
  else (((immCode f (.short f.imm)).or (formatICode f)).or (memoryCode f)).or ((selectCode f).or (stringCode f))

/-- The word is a P word: another major opcode follows it. -/
def isPrefix (w : Word) : Bool := w.extractLsb' 26 6 == 0x3F

/-- The instruction of a P word and the word after it (R231): its immediate is imm_hi × 256 + bits [7:0]. -/
def reludLong (p w : Word) : Option Instr :=
  let f := fieldsOfWord w
  if isPrefix p && p.extractLsb' 24 2 == 0 && f.imm.extractLsb' 8 8 == 0 then
    immCode f (.long (p.extractLsb' 0 24 ++ w.extractLsb' 0 8))
  else none

/-- The words that the instruction at a word takes, and the instruction; `next` is none at the program's end (R231). -/
def reludAt (w : Word) (next : Option Word) : Nat × Option Instr :=
  if isPrefix w then
    match next with
    | some x => (2, reludLong w x)
    | none => (1, none)
  else (1, reludShort w)

end Sys2Proof.Machine
end

