-- ==== Sys2Proof/Machine/ReludRun.lean ====
section
/-!
DEFINITION. A program of the host's in a section: the array fetches the words at the program counter, and issues what they spell,
until the section ends (R201, R202, R210, R231, R237).
-/

namespace Sys2Proof.Machine

/-- The meaning of a Relud instruction. -/
def reludMeaning (i : Instr) : Option (State → Host.Outcome State Fault Refusal) :=
  match i with
  | .add d a b => some (execAdd d a b)
  | .sub d a b => some (execSub d a b)
  | .and d a b => some (execAnd d a b)
  | .or d a b => some (execOr d a b)
  | .xor d a b => some (execXor d a b)
  | .sll d a b => some (execSll d a b)
  | .srl d a b => some (execSrl d a b)
  | .sra d a b => some (execSra d a b)
  | .mul d a b => some (execMul d a b)
  | .mulh d a b => some (execMulh d a b)
  | .slt d a b => some (execSlt d a b)
  | .sltu d a b => some (execSltu d a b)
  | .min d a b => some (execMin d a b)
  | .max d a b => some (execMax d a b)
  | .jalr d a => some (execJalr d a)
  | .rdsc d => some (execRdsc d)
  | .rdtb d => some (execRdtb d)
  | .secend => some (execSecend)
  | .nop => some (execNop)
  | .addi d a imm => some (execAddi d a imm)
  | .andi d a imm => some (execAndi d a imm)
  | .ori d a imm => some (execOri d a imm)
  | .xori d a imm => some (execXori d a imm)
  | .lui d imm => some (execLui d imm)
  | .slti d a imm => some (execSlti d a imm)
  | .shi d a kind sh => some (execShi d a kind sh)
  | .beq d a imm => some (execBeq d a imm)
  | .bne d a imm => some (execBne d a imm)
  | .blt d a imm => some (execBlt d a imm)
  | .bge d a imm => some (execBge d a imm)
  | .jal d imm => some (execJal d imm)
  | .loop a len => some (execLoop a len)
  | .waitcyc a imm => some (execWaitcyc a imm)
  | .tsamp d f => some (execTsamp d f)
  | .lds d a imm => some (execLds d a imm)
  | .sts d a imm => some (execSts d a imm)
  | .ldps d a imm => some (execLdps d a imm)
  | .vld d a off m => some (execVld d a off m)
  | .vst va b off m => some (execVst va b off m)
  | .vldp d a off m => some (execVldp d a off m)
  | .vldpx d a b off m => some (execVldpx d a b off m)
  | .frld d item prev m => some (execFrld d item prev m)
  | .frls d off prev => some (execFrls d off prev)
  | .frlb d off prev => some (execFrlb d off prev)
  | .vadd d a b m => some (execVadd d a b m)
  | .vsub d a b m => some (execVsub d a b m)
  | .vmul d a b m => some (execVmul d a b m)
  | .vmac d a b m => some (execVmac d a b m)
  | .vmsb d a b m => some (execVmsb d a b m)
  | .vdiv d a b m => some (execVdiv d a b m)
  | .vsqrt d a m => some (execVsqrt d a m)
  | .vabs d a m => some (execVabs d a m)
  | .vneg d a m => some (execVneg d a m)
  | .vmin d a b m => some (execVmin d a b m)
  | .vmax d a b m => some (execVmax d a b m)
  | .vmov d a m => some (execVmov d a m)
  | .vcvtif d a m => some (execVcvtif d a m)
  | .vcvtfi d a m => some (execVcvtfi d a m)
  | .vscl d a b m => some (execVscl d a b m)
  | .vsin d a m => some (execVsin d a m)
  | .vcos d a m => some (execVcos d a m)
  | .vclmp d a b m => some (execVclmp d a b m)
  | .vadds d a b m => some (execVadds d a b m)
  | .vsubs d a b m => some (execVsubs d a b m)
  | .vmuls d a b m => some (execVmuls d a b m)
  | .vmacs d a b m => some (execVmacs d a b m)
  | .vmsbs d a b m => some (execVmsbs d a b m)
  | .vdivs d a b m => some (execVdivs d a b m)
  | .vmins d a b m => some (execVmins d a b m)
  | .vmaxs d a b m => some (execVmaxs d a b m)
  | .iadd d a b m => some (execIadd d a b m)
  | .isub d a b m => some (execIsub d a b m)
  | .iand d a b m => some (execIand d a b m)
  | .ior d a b m => some (execIor d a b m)
  | .ixor d a b m => some (execIxor d a b m)
  | .ishl d a b m => some (execIshl d a b m)
  | .ishr d a b m => some (execIshr d a b m)
  | .isar d a b m => some (execIsar d a b m)
  | .imul d a b m => some (execImul d a b m)
  | .imin d a b m => some (execImin d a b m)
  | .imax d a b m => some (execImax d a b m)
  | .ceq md a b m => some (execCeq md a b m)
  | .cne md a b m => some (execCne md a b m)
  | .clt md a b m => some (execClt md a b m)
  | .cle md a b m => some (execCle md a b m)
  | .cgt md a b m => some (execCgt md a b m)
  | .cge md a b m => some (execCge md a b m)
  | .hys md a b m => some (execHys md a b m)
  | .ceqs md a b m => some (execCeqs md a b m)
  | .cnes md a b m => some (execCnes md a b m)
  | .clts md a b m => some (execClts md a b m)
  | .cles md a b m => some (execCles md a b m)
  | .cgts md a b m => some (execCgts md a b m)
  | .cges md a b m => some (execCges md a b m)
  | .mand md ma mb => some (execMand md ma mb)
  | .mor md ma mb => some (execMor md ma mb)
  | .mxor md ma mb => some (execMxor md ma mb)
  | .mandn md ma mb => some (execMandn md ma mb)
  | .mnot md ma => some (execMnot md ma)
  | .mpop d ma => some (execMpop d ma)
  | .mflg md => some (execMflg md)
  | .clrflg ma => some (execClrflg ma)
  | .vsel d a b m => some (execVsel d a b m)
  | .mset md bits => some (execMset md bits)
  | .mlane md a b => some (execMlane md a b)
  | .rank d a k m => some (execRank d a k m)
  | .order d a k m => some (execOrder d a k m)
  | .redsum d a k m => some (execRedsum d a k m)
  | .redmax d a k m => some (execRedmax d a k m)
  | .redmin d a k m => some (execRedmin d a k m)
  | .argmax d a k m => some (execArgmax d a k m)
  | .argmin d a k m => some (execArgmin d a k m)
  | .pfx d a k m => some (execPfx d a k m)
  | .bcast d a b => some (execBcast d a b)
  | .nbr d a b => some (execNbr d a b)
  | .gather d a b k => some (execGather d a b k)
  | .psum d a k m => some (execPsum d a k m)
  | .pdot d a b k m => some (execPdot d a b k m)
  | .pbc d a k => some (execPbc d a k)
  | .pmov d a k b => some (execPmov d a k b)
  | .splf d a k => some (execSplf d a k)
  | .spli d a k => some (execSpli d a k)
  | .vins d a b k => some (execVins d a b k)
  | .vext d a b k => some (execVext d a b k)
  | .mxld x a => some (execMxld x a)
  | .mxst x a => some (execMxst x a)
  | .mxrow x a r => some (execMxrow x a r)
  | .mxget d x r => some (execMxget d x r)
  | .mxmul d x b m => some (execMxmul d x b m)
  | .mxmac d x b m => some (execMxmac d x b m)
  | .mxmult d x b m => some (execMxmult d x b m)
  | .mxr1 x a b m => some (execMxr1 x a b m)
  | .emit a => some (execEmit a)
  | .trim lo mid hi valid lsb => some (execTrim lo mid hi valid lsb)
  | .prof x m => some (execProf x m)
  | .inj d a b => some (execInj d a b)
  | .injMultisine d a b => some (execInjMultisine d a b)
  | .skrec a m => some (execSkrec a m)
  | .skw a b => some (execSkw a b)
  | .skrd d a => some (execSkrd d a)
  | _ => none

/-- A word of program memory. -/
def Mach.progWord (m : Mach) (pc : Nat) : Word := readMemWord m.mem (progMemBase + 4 * pc)

/-- The instruction at the program counter. -/
def Mach.fetched (m : Mach) : Nat × Option Instr :=
  let next := if m.spin.pc + 1 < m.get F.SPN_PROG_LEN_len then some (m.progWord (m.spin.pc + 1)) else none
  reludAt (m.progWord m.spin.pc) next

/-- A word that spells no instruction traps with ILLEGAL (R237). -/
def Mach.illegalWord (m : Mach) (size : Nat) : Mach :=
  m.relud ⟨[], [], 1, size, 0, 0⟩ fun m _ => .trapped m TrapCode.illegal noLane

/-- The array issues the instruction at its program counter. -/
def Mach.issueNext (m : Mach) : Mach :=
  let f := m.fetched
  match f.2.bind reludMeaning with
  | none => m.illegalWord f.1
  | some meaning =>
    match meaning { mach := m, pending := [] } with
    | .next t => t.mach
    | _ => m.illegalWord f.1

/-- The program runs while its section lasts, for at most so many instructions. -/
def Mach.runProgram : Nat → Mach → Mach
  | 0, m => m
  | n + 1, m => if m.inSection then Mach.runProgram n m.issueNext else m

/-- The section's program runs to its end: each instruction takes a cycle of the budget at least (R201).
DESIGN CHOICE: log entry 3. -/
def Mach.ownSection (m : Mach) : Mach := Mach.runProgram (m.budget + 1 - m.spin.use) m

end Sys2Proof.Machine
end

