-- ==== Sys2Proof/Machine/Sections.lean ====
section
/-!
DEFINITION. The two sections of a cycle (R198, R201): their starts with cleared registers, and the program, the reference control
program or the host's own, which runs in them once its part of the frame is frozen (R160, R201, R263).
-/

namespace Sys2Proof.Machine

/-! ## The reference program in a section -/

/-- The program as it runs meets a poisoned word: in the bank while it checks it, or in program memory, where it is open whether
that word is fetched (R217, R448).
DESIGN CHOICE: log entry 58. -/
def Mach.refPoison (m : Mach) : Option Mach :=
  let len := 4 * m.get F.SPN_PROG_LEN_len
  match m.memi.poison.find? fun p => decide (progMemBase ≤ p ∧ p < progMemBase + len) with
  | some p =>
    if m.freeNow.getLsbD 0 then
      let m := { m.freeTicked with spin := { m.spin with pc := (p - progMemBase) / 4 } }
      some ((m.poisonHit p Agent.fetch).trap TrapCode.fetchPoison noLane)
    else none
  | none =>
    if m.inFast && (m.startCycle || m.swapInFrame) && m.anyPoison m.bankBase 0x6100 then
      some ((m.poisonHit m.bankBase Agent.bank).trap TrapCode.bankPoison noLane)
    else none

/-- The program as it runs meets upset words: those of the bank while it checks it; of program memory and lane memory it is open
which ones it reads.
DESIGN CHOICE: log entry 58. -/
def Mach.refMeet (m : Mach) : Mach :=
  let m := m.when (m.inFast && (m.startCycle || m.swapInFrame)) (·.meet m.bankBase 0x6100 Agent.bank)
  m.each (m.memi.upsets.filter fun u => inProgMem u.addr || inLaneMem u.addr) fun m u =>
    m.freeTicked.when (m.freeNow.getLsbD 0) (·.meetOne (if inProgMem u.addr then Agent.fetch else Agent.lane) u)

/-- The section runs to its end within the bounds of R520.
DEDUCED: log entries 22, 53. DESIGN CHOICE: log entries 48, 58. -/
def Mach.refSection (m : Mach) : Mach :=
  let m := m.refMeet
  match m.refPoison with
  | some t => t
  | none =>
    let fast := m.inFast
    let m := m.freeTicked
    let used := 1 + m.freeNow.toNat % (if fast then 1300 else 2980)
    (if fast then m.refFast else m.refEstimate).freeTicked.endSection used

/-- The section's program runs once what it reads is frozen: the reference program, or the words of program memory.
DEDUCED: log entry 53. DESIGN CHOICE: log entry 3. -/
def Mach.programDue (m : Mach) : Mach :=
  if m.arrayRuns && ((m.inFast && m.sense.frozen) || (m.inEst && m.chain.frozen)) then
    if m.spin.refProg then m.refSection else m.ownSection
  else m

/-! ## The starts -/

/-- The fast section at 1.0 µs. -/
def Mach.fastStart (m : Mach) : Mach :=
  if m.arrayRuns && !m.spin.fastRan then
    let m := m.set F.SPN_STAT_section 1
    let sp := m.spin.cleared (m.get F.SPN_ENTRY_fast_pc)
    { m with spin := { sp with fastRan := true, ctlRec := SpinState.init.ctlRec } }.programDue
  else m

/-- FAST_SECTION_START (R201). -/
def execFastSectionStart (s : State) : Host.Outcome State Fault Refusal := eff s (s.mach.inCycle 1000 Mach.fastStart)

/-- SENSE_FREEZE (R206), from which the fast section reads the sense part (R201). -/
def execSenseFreeze (s : State) : Host.Outcome State Fault Refusal :=
  eff s (s.mach.inCycle 2000 fun m => m.senseFreeze.programDue)

/-- No estimation sections run from the cycle of a resync on; the standby's array enters LOADED, the active's stores of the
fast section leave, and SNAP frames (R361). -/
def Mach.resyncCycle (m : Mach) : Mach :=
  let m := m.when (!m.pair.storeQueue.isEmpty) fun m =>
    let m := m.sendXl (.store m.pair.storeQueue)
    { m with pair := { m.pair with storeQueue := [] } }
  let m := m.snapSend m.snapRoom
  m.when (m.role == .standby && m.arrayRuns) fun m => (m.set F.SPN_STAT_state 1).set F.SPN_STAT_section 0

/-- A resync stands in this cycle. -/
def Mach.resyncStands (m : Mach) : Bool :=
  match m.pair.resync with
  | none => false
  | some c => decide ((m.cycle - c).toNat < 2 ^ 31)

/-- The estimation section at Z: suppressed in a resync, replaced by the lane self-test (R226).
DEDUCED: log entry 62. -/
def Mach.estStart (m : Mach) : Mach :=
  let m := m.when (m.arrayRuns && m.inFast) (·.overrun)
  if m.resyncStands then m.resyncCycle
  else if m.get F.SPN_STAT_state = 4 then { m.set F.SPN_STAT_section 3 with spin := { m.spin with stLeft := m.spin.stLeft - 1 } }
  else if m.arrayRuns && !m.spin.estRan then
    let m := m.set F.SPN_STAT_section 3
    let sp := m.spin.cleared (m.get F.SPN_ENTRY_est_pc)
    { m with spin := { sp with estRan := true }, power := { m.power with estSeen := true } }.programDue
  else m

/-- EST_SECTION_START (R201). -/
def execEstSectionStart (s : State) : Host.Outcome State Fault Refusal :=
  eff s (s.mach.inCycle (s.mach.periodNs / 2) Mach.estStart)

/-- FRAME_FREEZE, at Z (R108, R136). -/
def execFrameFreeze (s : State) : Host.Outcome State Fault Refusal :=
  eff s (s.mach.inCycle (s.mach.periodNs / 2) fun m => m.nodeFreeze.programDue)

end Sys2Proof.Machine
end

