-- ==== Sys2Proof/Machine/Dispatch.lean ====
section
/-!
DEFINITION. The dispatch: one arm per constructor of `Instr`, in the order of spec/opcode_table.json.
-/

namespace Sys2Proof.Machine

def exec (i : Instr) (s : State) : Host.Outcome State Fault Refusal :=
  match i with
  | .aonPowerUp slot auxV img => Sys2Proof.Machine.execAonPowerUp slot auxV img s
  | .supplyWarningFall auxV => Sys2Proof.Machine.execSupplyWarningFall auxV s
  | .supplyResetFall auxV => Sys2Proof.Machine.execSupplyResetFall auxV s
  | .supplyWarningRise auxV minV durMs => Sys2Proof.Machine.execSupplyWarningRise auxV minV durMs s
  | .brownoutTimeout => Sys2Proof.Machine.execBrownoutTimeout s
  | .holdupOpenTimeout => Sys2Proof.Machine.execHoldupOpenTimeout s
  | .holdupShed => Sys2Proof.Machine.execHoldupShed s
  | .holdupStoreEmpty => Sys2Proof.Machine.execHoldupStoreEmpty s
  | .clockFault ix => Sys2Proof.Machine.execClockFault ix s
  | .clockRecovered ix => Sys2Proof.Machine.execClockRecovered ix s
  | .railFault d => Sys2Proof.Machine.execRailFault d s
  | .pwrPdCtrlWrite master on => Sys2Proof.Machine.execPwrPdCtrlWrite master on s
  | .domainZeroiseDone d => Sys2Proof.Machine.execDomainZeroiseDone d s
  | .distaffWatchdogExpiry => Sys2Proof.Machine.execDistaffWatchdogExpiry s
  | .distaffRestartDone => Sys2Proof.Machine.execDistaffRestartDone s
  | .distaffAbsentTimeout => Sys2Proof.Machine.execDistaffAbsentTimeout s
  | .supervisorSummaryRead => Sys2Proof.Machine.execSupervisorSummaryRead s
  | .moduleResetTake img => Sys2Proof.Machine.execModuleResetTake img s
  | .sampleInstant => Sys2Proof.Machine.execSampleInstant s
  | .uplinkLaunch => Sys2Proof.Machine.execUplinkLaunch s
  | .senseDataWrite d => Sys2Proof.Machine.execSenseDataWrite d s
  | .senseFreeze => Sys2Proof.Machine.execSenseFreeze s
  | .fastSectionStart => Sys2Proof.Machine.execFastSectionStart s
  | .estSectionStart => Sys2Proof.Machine.execEstSectionStart s
  | .sectionOverrun => Sys2Proof.Machine.execSectionOverrun s
  | .emitDeadline => Sys2Proof.Machine.execEmitDeadline s
  | .commandLaunch => Sys2Proof.Machine.execCommandLaunch s
  | .relayedCmdLaunch => Sys2Proof.Machine.execRelayedCmdLaunch s
  | .frameFreeze => Sys2Proof.Machine.execFrameFreeze s
  | .syncLaunch => Sys2Proof.Machine.execSyncLaunch s
  | .inputDigestReady => Sys2Proof.Machine.execInputDigestReady s
  | .outputDigestReady => Sys2Proof.Machine.execOutputDigestReady s
  | .stateDigestReady => Sys2Proof.Machine.execStateDigestReady s
  | .setpointApply => Sys2Proof.Machine.execSetpointApply s
  | .setpointExpiry => Sys2Proof.Machine.execSetpointExpiry s
  | .bankSwap => Sys2Proof.Machine.execBankSwap s
  | .hystSample ix => Sys2Proof.Machine.execHystSample ix s
  | .stopBroadcastStart src => Sys2Proof.Machine.execStopBroadcastStart src s
  | .stopBroadcastEnd => Sys2Proof.Machine.execStopBroadcastEnd s
  | .swStop master => Sys2Proof.Machine.execSwStop master s
  | .swRelease master => Sys2Proof.Machine.execSwRelease master s
  | .flyClrCnt master => Sys2Proof.Machine.execFlyClrCnt master s
  | .prechargeTimeout => Sys2Proof.Machine.execPrechargeTimeout s
  | .closePulseTimeout => Sys2Proof.Machine.execClosePulseTimeout s
  | .brkAuxChange a b => Sys2Proof.Machine.execBrkAuxChange a b s
  | .brkAuxDiscrepancy => Sys2Proof.Machine.execBrkAuxDiscrepancy s
  | .uplinkTrainRx p syms early => Sys2Proof.Machine.execUplinkTrainRx p syms early s
  | .cmdTrainRx p syms early => Sys2Proof.Machine.execCmdTrainRx p syms early s
  | .mgmtResponseRx p syms => Sys2Proof.Machine.execMgmtResponseRx p syms s
  | .turnNoticeRx p notice => Sys2Proof.Machine.execTurnNoticeRx p notice s
  | .portLockLoss p => Sys2Proof.Machine.execPortLockLoss p s
  | .portLockTimeout p => Sys2Proof.Machine.execPortLockTimeout p s
  | .ringClose rt otherEnd => Sys2Proof.Machine.execRingClose rt otherEnd s
  | .periodicAssign restarted => Sys2Proof.Machine.execPeriodicAssign restarted s
  | .nodeRejoinRelease pos load => Sys2Proof.Machine.execNodeRejoinRelease pos load s
  | .positionIsolated pos => Sys2Proof.Machine.execPositionIsolated pos s
  | .rove master p w => Sys2Proof.Machine.execRove master p w s
  | .boot master p load => Sys2Proof.Machine.execBoot master p load s
  | .launch master p on => Sys2Proof.Machine.execLaunch master p on s
  | .txEn master p on => Sys2Proof.Machine.execTxEn master p on s
  | .chxClrCnt master p => Sys2Proof.Machine.execChxClrCnt master p s
  | .spnRun master => Sys2Proof.Machine.execSpnRun master s
  | .spnStop master => Sys2Proof.Machine.execSpnStop master s
  | .spnSelftest master => Sys2Proof.Machine.execSpnSelftest master s
  | .laneSelftestEnd failed => Sys2Proof.Machine.execLaneSelftestEnd failed s
  | .clrTrap master => Sys2Proof.Machine.execClrTrap master s
  | .spnClrCnt master => Sys2Proof.Machine.execSpnClrCnt master s
  | .swap master => Sys2Proof.Machine.execSwap master s
  | .cancel master => Sys2Proof.Machine.execCancel master s
  | .copy master => Sys2Proof.Machine.execCopy master s
  | .bankCopyDone => Sys2Proof.Machine.execBankCopyDone s
  | .add d a b => Sys2Proof.Machine.execAdd d a b s
  | .sub d a b => Sys2Proof.Machine.execSub d a b s
  | .and d a b => Sys2Proof.Machine.execAnd d a b s
  | .or d a b => Sys2Proof.Machine.execOr d a b s
  | .xor d a b => Sys2Proof.Machine.execXor d a b s
  | .sll d a b => Sys2Proof.Machine.execSll d a b s
  | .srl d a b => Sys2Proof.Machine.execSrl d a b s
  | .sra d a b => Sys2Proof.Machine.execSra d a b s
  | .mul d a b => Sys2Proof.Machine.execMul d a b s
  | .mulh d a b => Sys2Proof.Machine.execMulh d a b s
  | .slt d a b => Sys2Proof.Machine.execSlt d a b s
  | .sltu d a b => Sys2Proof.Machine.execSltu d a b s
  | .min d a b => Sys2Proof.Machine.execMin d a b s
  | .max d a b => Sys2Proof.Machine.execMax d a b s
  | .jalr d a => Sys2Proof.Machine.execJalr d a s
  | .rdsc d => Sys2Proof.Machine.execRdsc d s
  | .rdtb d => Sys2Proof.Machine.execRdtb d s
  | .secend => Sys2Proof.Machine.execSecend s
  | .nop => Sys2Proof.Machine.execNop s
  | .addi d a imm => Sys2Proof.Machine.execAddi d a imm s
  | .andi d a imm => Sys2Proof.Machine.execAndi d a imm s
  | .ori d a imm => Sys2Proof.Machine.execOri d a imm s
  | .xori d a imm => Sys2Proof.Machine.execXori d a imm s
  | .lui d imm => Sys2Proof.Machine.execLui d imm s
  | .slti d a imm => Sys2Proof.Machine.execSlti d a imm s
  | .shi d a kind sh => Sys2Proof.Machine.execShi d a kind sh s
  | .beq d a imm => Sys2Proof.Machine.execBeq d a imm s
  | .bne d a imm => Sys2Proof.Machine.execBne d a imm s
  | .blt d a imm => Sys2Proof.Machine.execBlt d a imm s
  | .bge d a imm => Sys2Proof.Machine.execBge d a imm s
  | .jal d imm => Sys2Proof.Machine.execJal d imm s
  | .loop a len => Sys2Proof.Machine.execLoop a len s
  | .waitcyc a imm => Sys2Proof.Machine.execWaitcyc a imm s
  | .tsamp d f => Sys2Proof.Machine.execTsamp d f s
  | .lds d a imm => Sys2Proof.Machine.execLds d a imm s
  | .sts d a imm => Sys2Proof.Machine.execSts d a imm s
  | .ldps d a imm => Sys2Proof.Machine.execLdps d a imm s
  | .vld d a off m => Sys2Proof.Machine.execVld d a off m s
  | .vst va b off m => Sys2Proof.Machine.execVst va b off m s
  | .vldp d a off m => Sys2Proof.Machine.execVldp d a off m s
  | .vldpx d a b off m => Sys2Proof.Machine.execVldpx d a b off m s
  | .frld d item prev m => Sys2Proof.Machine.execFrld d item prev m s
  | .frls d off prev => Sys2Proof.Machine.execFrls d off prev s
  | .frlb d off prev => Sys2Proof.Machine.execFrlb d off prev s
  | .vadd d a b m => Sys2Proof.Machine.execVadd d a b m s
  | .vsub d a b m => Sys2Proof.Machine.execVsub d a b m s
  | .vmul d a b m => Sys2Proof.Machine.execVmul d a b m s
  | .vmac d a b m => Sys2Proof.Machine.execVmac d a b m s
  | .vmsb d a b m => Sys2Proof.Machine.execVmsb d a b m s
  | .vdiv d a b m => Sys2Proof.Machine.execVdiv d a b m s
  | .vsqrt d a m => Sys2Proof.Machine.execVsqrt d a m s
  | .vabs d a m => Sys2Proof.Machine.execVabs d a m s
  | .vneg d a m => Sys2Proof.Machine.execVneg d a m s
  | .vmin d a b m => Sys2Proof.Machine.execVmin d a b m s
  | .vmax d a b m => Sys2Proof.Machine.execVmax d a b m s
  | .vmov d a m => Sys2Proof.Machine.execVmov d a m s
  | .vcvtif d a m => Sys2Proof.Machine.execVcvtif d a m s
  | .vcvtfi d a m => Sys2Proof.Machine.execVcvtfi d a m s
  | .vscl d a b m => Sys2Proof.Machine.execVscl d a b m s
  | .vsin d a m => Sys2Proof.Machine.execVsin d a m s
  | .vcos d a m => Sys2Proof.Machine.execVcos d a m s
  | .vclmp d a b m => Sys2Proof.Machine.execVclmp d a b m s
  | .vadds d a b m => Sys2Proof.Machine.execVadds d a b m s
  | .vsubs d a b m => Sys2Proof.Machine.execVsubs d a b m s
  | .vmuls d a b m => Sys2Proof.Machine.execVmuls d a b m s
  | .vmacs d a b m => Sys2Proof.Machine.execVmacs d a b m s
  | .vmsbs d a b m => Sys2Proof.Machine.execVmsbs d a b m s
  | .vdivs d a b m => Sys2Proof.Machine.execVdivs d a b m s
  | .vmins d a b m => Sys2Proof.Machine.execVmins d a b m s
  | .vmaxs d a b m => Sys2Proof.Machine.execVmaxs d a b m s
  | .iadd d a b m => Sys2Proof.Machine.execIadd d a b m s
  | .isub d a b m => Sys2Proof.Machine.execIsub d a b m s
  | .iand d a b m => Sys2Proof.Machine.execIand d a b m s
  | .ior d a b m => Sys2Proof.Machine.execIor d a b m s
  | .ixor d a b m => Sys2Proof.Machine.execIxor d a b m s
  | .ishl d a b m => Sys2Proof.Machine.execIshl d a b m s
  | .ishr d a b m => Sys2Proof.Machine.execIshr d a b m s
  | .isar d a b m => Sys2Proof.Machine.execIsar d a b m s
  | .imul d a b m => Sys2Proof.Machine.execImul d a b m s
  | .imin d a b m => Sys2Proof.Machine.execImin d a b m s
  | .imax d a b m => Sys2Proof.Machine.execImax d a b m s
  | .ceq md a b m => Sys2Proof.Machine.execCeq md a b m s
  | .cne md a b m => Sys2Proof.Machine.execCne md a b m s
  | .clt md a b m => Sys2Proof.Machine.execClt md a b m s
  | .cle md a b m => Sys2Proof.Machine.execCle md a b m s
  | .cgt md a b m => Sys2Proof.Machine.execCgt md a b m s
  | .cge md a b m => Sys2Proof.Machine.execCge md a b m s
  | .hys md a b m => Sys2Proof.Machine.execHys md a b m s
  | .ceqs md a b m => Sys2Proof.Machine.execCeqs md a b m s
  | .cnes md a b m => Sys2Proof.Machine.execCnes md a b m s
  | .clts md a b m => Sys2Proof.Machine.execClts md a b m s
  | .cles md a b m => Sys2Proof.Machine.execCles md a b m s
  | .cgts md a b m => Sys2Proof.Machine.execCgts md a b m s
  | .cges md a b m => Sys2Proof.Machine.execCges md a b m s
  | .mand md ma mb => Sys2Proof.Machine.execMand md ma mb s
  | .mor md ma mb => Sys2Proof.Machine.execMor md ma mb s
  | .mxor md ma mb => Sys2Proof.Machine.execMxor md ma mb s
  | .mandn md ma mb => Sys2Proof.Machine.execMandn md ma mb s
  | .mnot md ma => Sys2Proof.Machine.execMnot md ma s
  | .mpop d ma => Sys2Proof.Machine.execMpop d ma s
  | .mflg md => Sys2Proof.Machine.execMflg md s
  | .clrflg ma => Sys2Proof.Machine.execClrflg ma s
  | .vsel d a b m => Sys2Proof.Machine.execVsel d a b m s
  | .mset md bits => Sys2Proof.Machine.execMset md bits s
  | .mlane md a b => Sys2Proof.Machine.execMlane md a b s
  | .rank d a k m => Sys2Proof.Machine.execRank d a k m s
  | .order d a k m => Sys2Proof.Machine.execOrder d a k m s
  | .redsum d a k m => Sys2Proof.Machine.execRedsum d a k m s
  | .redmax d a k m => Sys2Proof.Machine.execRedmax d a k m s
  | .redmin d a k m => Sys2Proof.Machine.execRedmin d a k m s
  | .argmax d a k m => Sys2Proof.Machine.execArgmax d a k m s
  | .argmin d a k m => Sys2Proof.Machine.execArgmin d a k m s
  | .pfx d a k m => Sys2Proof.Machine.execPfx d a k m s
  | .bcast d a b => Sys2Proof.Machine.execBcast d a b s
  | .nbr d a b => Sys2Proof.Machine.execNbr d a b s
  | .gather d a b k => Sys2Proof.Machine.execGather d a b k s
  | .psum d a k m => Sys2Proof.Machine.execPsum d a k m s
  | .pdot d a b k m => Sys2Proof.Machine.execPdot d a b k m s
  | .pbc d a k => Sys2Proof.Machine.execPbc d a k s
  | .pmov d a k b => Sys2Proof.Machine.execPmov d a k b s
  | .splf d a k => Sys2Proof.Machine.execSplf d a k s
  | .spli d a k => Sys2Proof.Machine.execSpli d a k s
  | .vins d a b k => Sys2Proof.Machine.execVins d a b k s
  | .vext d a b k => Sys2Proof.Machine.execVext d a b k s
  | .mxld x a => Sys2Proof.Machine.execMxld x a s
  | .mxst x a => Sys2Proof.Machine.execMxst x a s
  | .mxrow x a r => Sys2Proof.Machine.execMxrow x a r s
  | .mxget d x r => Sys2Proof.Machine.execMxget d x r s
  | .mxmul d x b m => Sys2Proof.Machine.execMxmul d x b m s
  | .mxmac d x b m => Sys2Proof.Machine.execMxmac d x b m s
  | .mxmult d x b m => Sys2Proof.Machine.execMxmult d x b m s
  | .mxr1 x a b m => Sys2Proof.Machine.execMxr1 x a b m s
  | .emit a => Sys2Proof.Machine.execEmit a s
  | .trim lo mid hi valid lsb => Sys2Proof.Machine.execTrim lo mid hi valid lsb s
  | .prof x m => Sys2Proof.Machine.execProf x m s
  | .inj d a b => Sys2Proof.Machine.execInj d a b s
  | .injMultisine d a b => Sys2Proof.Machine.execInjMultisine d a b s
  | .skrec a m => Sys2Proof.Machine.execSkrec a m s
  | .skw a b => Sys2Proof.Machine.execSkw a b s
  | .skrd d a => Sys2Proof.Machine.execSkrd d a s
  | .commit master => Sys2Proof.Machine.execCommit master s
  | .isoStart master => Sys2Proof.Machine.execIsoStart master s
  | .isoMeasDone kohm => Sys2Proof.Machine.execIsoMeasDone kohm s
  | .snsClrCnt master => Sys2Proof.Machine.execSnsClrCnt master s
  | .arm master => Sys2Proof.Machine.execArm master s
  | .abort master => Sys2Proof.Machine.execAbort master s
  | .captureRecord => Sys2Proof.Machine.execCaptureRecord s
  | .owNow master => Sys2Proof.Machine.execOwNow master s
  | .owAbort master => Sys2Proof.Machine.execOwAbort master s
  | .owSweepPeriod request => Sys2Proof.Machine.execOwSweepPeriod request s
  | .owWireTest status => Sys2Proof.Machine.execOwWireTest status s
  | .owNodeTimeout => Sys2Proof.Machine.execOwNodeTimeout s
  | .requestWordPoll nacks => Sys2Proof.Machine.execRequestWordPoll nacks s
  | .quietModeWrite => Sys2Proof.Machine.execQuietModeWrite s
  | .clrCause master => Sys2Proof.Machine.execClrCause master s
  | .protClrCnt master => Sys2Proof.Machine.execProtClrCnt master s
  | .backstopCheck => Sys2Proof.Machine.execBackstopCheck s
  | .stringSummaryRead => Sys2Proof.Machine.execStringSummaryRead s
  | .orderlyStopEscalate => Sys2Proof.Machine.execOrderlyStopEscalate s
  | .stopCurrentZero => Sys2Proof.Machine.execStopCurrentZero s
  | .openRequestTimeout => Sys2Proof.Machine.execOpenRequestTimeout s
  | .thermalDemandSend => Sys2Proof.Machine.execThermalDemandSend s
  | .containerStatusRx => Sys2Proof.Machine.execContainerStatusRx s
  | .containerStatusLoss => Sys2Proof.Machine.execContainerStatusLoss s
  | .moduleTempRead baseA baseB die => Sys2Proof.Machine.execModuleTempRead baseA baseB die s
  | .sensorRead vals => Sys2Proof.Machine.execSensorRead vals s
  | .handover master => Sys2Proof.Machine.execHandover master s
  | .resync master => Sys2Proof.Machine.execResync master s
  | .xlClrCnt master => Sys2Proof.Machine.execXlClrCnt master s
  | .cycle f late arrival bad => Sys2Proof.Machine.execCycle f late arrival bad s
  | .cmdx f onTime bad => Sys2Proof.Machine.execCmdx f onTime bad s
  | .digest cycle kind value bad => Sys2Proof.Machine.execDigest cycle kind value bad s
  | .slotx cycle slots recs onTime bad => Sys2Proof.Machine.execSlotx cycle slots recs onTime bad s
  | .lease f alike bad => Sys2Proof.Machine.execLease f alike bad s
  | .mirror seq item w bad => Sys2Proof.Machine.execMirror seq item w bad s
  | .ack seq ok bad => Sys2Proof.Machine.execAck seq ok bad s
  | .notice n bad => Sys2Proof.Machine.execNotice n bad s
  | .snap offset data poison bad => Sys2Proof.Machine.execSnap offset data poison bad s
  | .store stores bad => Sys2Proof.Machine.execStore stores bad s
  | .mirrorAckTimeout => Sys2Proof.Machine.execMirrorAckTimeout s
  | .leaseExpiry => Sys2Proof.Machine.execLeaseExpiry s
  | .xlinkDead => Sys2Proof.Machine.execXlinkDead s
  | .xlinkDeadTimeout => Sys2Proof.Machine.execXlinkDeadTimeout s
  | .claimInChange asserted => Sys2Proof.Machine.execClaimInChange asserted s
  | .claimRelease cause => Sys2Proof.Machine.execClaimRelease cause s
  | .claimTake => Sys2Proof.Machine.execClaimTake s
  | .claimSettleEnd => Sys2Proof.Machine.execClaimSettleEnd s
  | .claimLapseTrip => Sys2Proof.Machine.execClaimLapseTrip s
  | .divergenceCheck => Sys2Proof.Machine.execDivergenceCheck s
  | .resyncEndCycle => Sys2Proof.Machine.execResyncEndCycle s
  | .resyncTimeout => Sys2Proof.Machine.execResyncTimeout s
  | .resyncRetry => Sys2Proof.Machine.execResyncRetry s
  | .xlinkMarkEcho roundTrip => Sys2Proof.Machine.execXlinkMarkEcho roundTrip s
  | .tbIncrNsWrite master ns => Sys2Proof.Machine.execTbIncrNsWrite master ns s
  | .tbAdjNsWrite master data => Sys2Proof.Machine.execTbAdjNsWrite master data s
  | .tbClrCnt master => Sys2Proof.Machine.execTbClrCnt master s
  | .comparatorFire c => Sys2Proof.Machine.execComparatorFire c s
  | .captureArm master u src => Sys2Proof.Machine.execCaptureArm master u src s
  | .captureEvent u => Sys2Proof.Machine.execCaptureEvent u s
  | .captureNsRead master u => Sys2Proof.Machine.execCaptureNsRead master u s
  | .latchingRead master addr => Sys2Proof.Machine.execLatchingRead master addr s
  | .ppsInEdge => Sys2Proof.Machine.execPpsInEdge s
  | .ptpSyncRx f => Sys2Proof.Machine.execPtpSyncRx f s
  | .ptpDelayReqSend t3 => Sys2Proof.Machine.execPtpDelayReqSend t3 s
  | .ptpDelayRespRx port t4 cResp => Sys2Proof.Machine.execPtpDelayRespRx port t4 cResp s
  | .ptpAnnounceRx f => Sys2Proof.Machine.execPtpAnnounceRx f s
  | .ptpTcForward port residence => Sys2Proof.Machine.execPtpTcForward port residence s
  | .syncHoldover => Sys2Proof.Machine.execSyncHoldover s
  | .holdoverMaxExpiry => Sys2Proof.Machine.execHoldoverMaxExpiry s
  | .dtlsHandshake svc cert => Sys2Proof.Machine.execDtlsHandshake svc cert s
  | .sessionClose sess => Sys2Proof.Machine.execSessionClose sess s
  | .closeNotify sess => Sys2Proof.Machine.execCloseNotify sess s
  | .sessionIdleTimeout sess => Sys2Proof.Machine.execSessionIdleTimeout sess s
  | .ethSessCloseWrite master data => Sys2Proof.Machine.execEthSessCloseWrite master data s
  | .request sess bytes authentic ringFull => Sys2Proof.Machine.execRequest sess bytes authentic ringFull s
  | .keepalive sess => Sys2Proof.Machine.execKeepalive sess s
  | .telegram sess bytes => Sys2Proof.Machine.execTelegram sess bytes s
  | .eventNotify sess => Sys2Proof.Machine.execEventNotify sess s
  | .streamRecord sess ringFull => Sys2Proof.Machine.execStreamRecord sess ringFull s
  | .streamCfgWrite master sess data => Sys2Proof.Machine.execStreamCfgWrite master sess data s
  | .arpRequestRx srcMac target claimsOwn => Sys2Proof.Machine.execArpRequestRx srcMac target claimsOwn s
  | .icmpEchoRx srcMac target => Sys2Proof.Machine.execIcmpEchoRx srcMac target s
  | .linkUp port => Sys2Proof.Machine.execLinkUp port s
  | .linkDown port => Sys2Proof.Machine.execLinkDown port s
  | .hsrFrameRx port f => Sys2Proof.Machine.execHsrFrameRx port f s
  | .hsrSupervisionSend => Sys2Proof.Machine.execHsrSupervisionSend s
  | .babbleWindow port => Sys2Proof.Machine.execBabbleWindow port s
  | .sfpPowerFault port => Sys2Proof.Machine.execSfpPowerFault port s
  | .sfpModuleChange port k => Sys2Proof.Machine.execSfpModuleChange port k s
  | .ethClrCnt master => Sys2Proof.Machine.execEthClrCnt master s
  | .lockRead master addr => Sys2Proof.Machine.execLockRead master addr s
  | .lockRelease master addr => Sys2Proof.Machine.execLockRelease master addr s
  | .go master m opcode len => Sys2Proof.Machine.execGo master m opcode len s
  | .mailboxTimeout m => Sys2Proof.Machine.execMailboxTimeout m s
  | .mailboxTimeoutLadder => Sys2Proof.Machine.execMailboxTimeoutLadder s
  | .echo m => Sys2Proof.Machine.execEcho m s
  | .sessionInfo m => Sys2Proof.Machine.execSessionInfo m s
  | .runStart m w => Sys2Proof.Machine.execRunStart m w s
  | .settleCountEnd => Sys2Proof.Machine.execSettleCountEnd s
  | .runStop m => Sys2Proof.Machine.execRunStop m s
  | .stopClear m => Sys2Proof.Machine.execStopClear m s
  | .funcReinit r f => Sys2Proof.Machine.execFuncReinit r f s
  | .reinitDone => Sys2Proof.Machine.execReinitDone s
  | .moduleReset r => Sys2Proof.Machine.execModuleReset r s
  | .powerCycle r => Sys2Proof.Machine.execPowerCycle r s
  | .powerCycleFail => Sys2Proof.Machine.execPowerCycleFail s
  | .resetGuard => Sys2Proof.Machine.execResetGuard s
  | .pwrClrCnt master => Sys2Proof.Machine.execPwrClrCnt master s
  | .logMark m => Sys2Proof.Machine.execLogMark m s
  | .start master n => Sys2Proof.Machine.execStart master n s
  | .opAbort master n => Sys2Proof.Machine.execOpAbort master n s
  | .opAckWrite master n count => Sys2Proof.Machine.execOpAckWrite master n count s
  | .operationEnd n => Sys2Proof.Machine.execOperationEnd n s
  | .nodeRead n resp => Sys2Proof.Machine.execNodeRead n resp s
  | .nodeWrite n resp => Sys2Proof.Machine.execNodeWrite n resp s
  | .wireCal n recs => Sys2Proof.Machine.execWireCal n recs s
  | .logRead n => Sys2Proof.Machine.execLogRead n s
  | .progStore n flashOk => Sys2Proof.Machine.execProgStore n flashOk s
  | .progLoad n => Sys2Proof.Machine.execProgLoad n s
  | .calRead n => Sys2Proof.Machine.execCalRead n s
  | .calWrite n flashOk => Sys2Proof.Machine.execCalWrite n flashOk s
  | .configSave n flashOk => Sys2Proof.Machine.execConfigSave n flashOk s
  | .selftest n results => Sys2Proof.Machine.execSelftest n results s
  | .updateOpen n => Sys2Proof.Machine.execUpdateOpen n s
  | .updateWrite n flashOk => Sys2Proof.Machine.execUpdateWrite n flashOk s
  | .updateVerify n sig => Sys2Proof.Machine.execUpdateVerify n sig s
  | .updateActivate n => Sys2Proof.Machine.execUpdateActivate n s
  | .updateConfirm n => Sys2Proof.Machine.execUpdateConfirm n s
  | .updateClose n => Sys2Proof.Machine.execUpdateClose n s
  | .lifecycleSet n => Sys2Proof.Machine.execLifecycleSet n s
  | .updateLockTimeout => Sys2Proof.Machine.execUpdateLockTimeout s
  | .confirmWindowExpiry => Sys2Proof.Machine.execConfirmWindowExpiry s
  | .logArchive => Sys2Proof.Machine.execLogArchive s
  | .safKeyWrite master key => Sys2Proof.Machine.execSafKeyWrite master key s
  | .keySequenceTimeout => Sys2Proof.Machine.execKeySequenceTimeout s
  | .resetArmExpiry => Sys2Proof.Machine.execResetArmExpiry s
  | .doorInputChange c on => Sys2Proof.Machine.execDoorInputChange c on s
  | .estopInputChange c on => Sys2Proof.Machine.execEstopInputChange c on s
  | .inputDiscrepancy ix => Sys2Proof.Machine.execInputDiscrepancy ix s
  | .crossShort ix => Sys2Proof.Machine.execCrossShort ix s
  | .faultLoopOpen => Sys2Proof.Machine.execFaultLoopOpen s
  | .hvilOpen => Sys2Proof.Machine.execHvilOpen s
  | .loopSupplyFault => Sys2Proof.Machine.execLoopSupplyFault s
  | .coilRailFault => Sys2Proof.Machine.execCoilRailFault s
  | .channelExchange => Sys2Proof.Machine.execChannelExchange s
  | .channelLinkLoss c => Sys2Proof.Machine.execChannelLinkLoss c s
  | .channelBBrkTripRelease => Sys2Proof.Machine.execChannelBBrkTripRelease s
  | .outputTestPulse c o ok => Sys2Proof.Machine.execOutputTestPulse c o ok s
  | .sourceOffPulse c => Sys2Proof.Machine.execSourceOffPulse c s
  | .tripRelease => Sys2Proof.Machine.execTripRelease s
  | .telegramCopyRx p bytes => Sys2Proof.Machine.execTelegramCopyRx p bytes s
  | .telegramConfirmWindow => Sys2Proof.Machine.execTelegramConfirmWindow s
  | .telegramPathLoss p => Sys2Proof.Machine.execTelegramPathLoss p s
  | .tripConfirmTimeout => Sys2Proof.Machine.execTripConfirmTimeout s
  | .canFrameRx x f sofNs => Sys2Proof.Machine.execCanFrameRx x f sofNs s
  | .canFrameTxDone x b tdcv sofNs => Sys2Proof.Machine.execCanFrameTxDone x b tdcv sofNs s
  | .canClashLoss x b bitErr => Sys2Proof.Machine.execCanClashLoss x b bitErr s
  | .canFixedResume x => Sys2Proof.Machine.execCanFixedResume x s
  | .canError x kind inData transmitting tecAdd recAdd => Sys2Proof.Machine.execCanError x kind inData transmitting tecAdd recAdd s
  | .recover master x => Sys2Proof.Machine.execRecover master x s
  | .canRecoveryEnd x => Sys2Proof.Machine.execCanRecoveryEnd x s
  | .canBusoffTimeout x => Sys2Proof.Machine.execCanBusoffTimeout x s
  | .canClrCnt master x => Sys2Proof.Machine.execCanClrCnt master x s
  | .mbCommit master x b => Sys2Proof.Machine.execMbCommit master x b s
  | .mbAbort master x b => Sys2Proof.Machine.execMbAbort master x b s
  | .clrFull master x b => Sys2Proof.Machine.execClrFull master x b s
  | .pop master x => Sys2Proof.Machine.execPop master x s
  | .carderRead cls syndrome upsets => Sys2Proof.Machine.execCarderRead cls syndrome upsets s
  | .programRepair => Sys2Proof.Machine.execProgramRepair s
  | .lineRemap inst line => Sys2Proof.Machine.execLineRemap inst line s
  | .memClrCnt master => Sys2Proof.Machine.execMemClrCnt master s
  | .memRemapWrite master ix e data => Sys2Proof.Machine.execMemRemapWrite master ix e data s
  | .tapUpdateIr ctrl comp => Sys2Proof.Machine.execTapUpdateIr ctrl comp s
  | .tapLeaveExtest => Sys2Proof.Machine.execTapLeaveExtest s
  | .registerWrite master addr data => Sys2Proof.Machine.execRegisterWrite master addr data s
  | .clockGoodAgain ix => Sys2Proof.Machine.execClockGoodAgain ix s
  | .portRelock p => Sys2Proof.Machine.execPortRelock p s
  | .hvilClose current over60 => Sys2Proof.Machine.execHvilClose current over60 s
  | .faultLoopClose current over60 => Sys2Proof.Machine.execFaultLoopClose current over60 s
  | .loopSupplyRecovery => Sys2Proof.Machine.execLoopSupplyRecovery s
  | .coilRailRecovery => Sys2Proof.Machine.execCoilRailRecovery s
  | .bankCrcDone => Sys2Proof.Machine.execBankCrcDone s
  | .canBusJoin x => Sys2Proof.Machine.execCanBusJoin x s
  | .operatingHour => Sys2Proof.Machine.execOperatingHour s
  | .powerCyclePulseEnd => Sys2Proof.Machine.execPowerCyclePulseEnd s

end Sys2Proof.Machine
end

