-- ==== Sys2Proof/Machine/Idle.lean ====
section
/-!
DEFINITION. What a step does when no command waits: one tick of CI_TIME passes, with what time brings to a walk in
progress, to the lease of a pair and to the state of the synchronisation.
-/

namespace Sys2Proof.Machine

/-- The module one tick later, when no command waits.
DESIGN CHOICE: log entry 1. -/
def Mach.idle (m : Mach) : Mach := m.tick.chainSettle.leaseForm.timeStat

end Sys2Proof.Machine
end

