-- ==== Sys2Proof/Machine/Step.lean ====
section
/-!
DEFINITION. The step: the command at the front of the queue is executed with the queue's rest; on an empty queue one
tick of the time clock passes.
-/

namespace Sys2Proof.Machine

/-- `s` with the command that a word spells put at the front of its queue; unchanged where the word spells none.
DESIGN CHOICE: log entry 5. -/
def State.withFetchWord (s : State) (nbits w : Nat) : State :=
  match decodeTableWord nbits w with
  | some i => { s with pending := i :: s.pending }
  | none => s

/-- One step of the block.
DESIGN CHOICE: log entry 1. -/
def step (s : State) : Host.Outcome State Fault Refusal :=
  match s.pending with
  | i :: rest => exec i { s with pending := rest }
  | [] => .next { s with mach := s.mach.idle }

end Sys2Proof.Machine
end

