-- ==== Sys2Proof/Safety.lean ====
section
/-!
DEFINITION. The terms in which statements about the model are made: when a command completes with an effect, when a Relud
instruction issues, what of the module an effect may touch, and the invariant of the stores.
-/

namespace Sys2Proof.Machine

/-! ## Completion -/

/-- The command answers a next state that leaves the queue and has the property. -/
def Completes (c : Instr) (s : State) (post : Mach → Prop) : Prop :=
  ∃ t : Mach, exec c s = .next { s with mach := t } ∧ post t

/-! ## Relud instructions -/

/-- No code word is poisoned or upset. -/
def MemState.clean (x : MemState) : Bool := x.poison.isEmpty && x.upsets.isEmpty

/-- Nothing keeps an instruction from issuing (R202, R217, R233, R448): its section runs, its words lie within the program,
no word of it is upset or poisoned, and it issues within the budget. -/
def Mach.issues (m : Mach) (o : OpInfo) : Bool :=
  m.inSection && decide (m.spin.use < m.budget) && decide (m.spin.pc + o.size ≤ m.get F.SPN_PROG_LEN_len)
    && (m.upsetsIn (progMemBase + 4 * m.spin.pc) (4 * o.size)).isEmpty && (m.fetchPoison o.size).isNone && decide (m.spin.issueAt o + o.size ≤ m.budget)

/-- `t` is `m` but for the sequencer's own progress: program counter, loop stack, section cycle and outstanding results. -/
def Mach.progress (m t : Mach) : Mach :=
  { m with spin := { m.spin with pc := t.spin.pc, loops := t.spin.loops, use := t.spin.use, ready := t.spin.ready } }

/-- Only scalar registers change beside the sequencer's progress. -/
def OnlyScalars (m t : Mach) : Prop :=
  t = { m.progress t with spin := { (m.progress t).spin with s := t.spin.s } }

/-- Only mask registers change beside the sequencer's progress. -/
def OnlyMasks (m t : Mach) : Prop :=
  t = { m.progress t with spin := { (m.progress t).spin with msk := t.spin.msk } }

/-- Only vector registers change beside the sequencer's progress. -/
def OnlyVectors (m t : Mach) : Prop :=
  t = { m.progress t with spin := { (m.progress t).spin with v := t.spin.v } }

/-- Only matrix buffers change beside the sequencer's progress. -/
def OnlyMatrices (m t : Mach) : Prop :=
  t = { m.progress t with spin := { (m.progress t).spin with mx := t.spin.mx } }

/-- Only vector registers, lane flags and the two registers that report flags change beside the sequencer's progress. -/
def OnlyVectorsAndFlags (m t : Mach) : Prop :=
  t = { m.progress t with regs := t.regs, spin := { (m.progress t).spin with v := t.spin.v, flags := t.spin.flags } }
    ∧ ∀ a, a ≠ Reg.SPN_AFLAG → a ≠ Reg.SPN_IRQ_STAT → t.rd a = m.rd a

/-- Only matrix buffers, lane flags and the two registers that report flags change beside the sequencer's progress. -/
def OnlyMatricesAndFlags (m t : Mach) : Prop :=
  t = { m.progress t with regs := t.regs, spin := { (m.progress t).spin with mx := t.spin.mx, flags := t.spin.flags } }
    ∧ ∀ a, a ≠ Reg.SPN_AFLAG → a ≠ Reg.SPN_IRQ_STAT → t.rd a = m.rd a

/-- The instruction has trapped with a cause while none was recorded (R218). -/
def TrappedWith (t : Mach) (code : Nat) : Prop := t.get F.SPN_STAT_state = 3 ∧ t.get F.SPN_TRAP_cause = code

/-- The scalar registers after a write: S0 stays 0, the destination takes the value, the others stay. -/
def ScalarWritten (m t : Mach) (d : SReg) (w : Word) : Prop :=
  ∀ r : SReg, t.sreg r = if r = 0 then 0 else if r = d then w else m.sreg r

/-- The vector registers after a write: the destination's lanes that exist take the values, the other registers stay. -/
def VectorWritten (m t : Mach) (d : VReg) (f : Nat → Lane) : Prop :=
  ∀ (r : VReg) (n : Nat), n < 128 → t.vreg r n = if r = d ∧ m.laneOn n then f n else m.vreg r n

/-- The mask registers after a write: M0 stays all ones, the destination's lanes that exist take the values. -/
def MaskWritten (m t : Mach) (d : MReg) (f : Nat → BitVec 8) : Prop :=
  ∀ (r : MReg) (n : Nat), n < 128 →
    t.mreg r n = if r = 0 then 0xFF else if r = d ∧ m.laneOn n then f n else m.mreg r n

/-- The matrix buffers after a write. -/
def MatrixWritten (m t : Mach) (d : XReg) (f : Nat → Vector Lane 8) : Prop :=
  ∀ (r : XReg) (n : Nat), n < 128 → t.mxreg r n = if r = d ∧ m.laneOn n then f n else m.mxreg r n

/-- The sticky flags after an instruction that sets flags in lanes that exist (R216). -/
def FlagsAdded (m t : Mach) (f : Nat → LaneFlags) : Prop :=
  ∀ n : Fin 128, t.spin.flags[n] = if m.laneOn n then m.spin.flags[n].or (f n) else m.spin.flags[n]

/-- After an instruction without a taken branch: its results are there after its latency (R233), the next instruction can issue in
the cycle after its last word, and outside a loop's end the next word follows. -/
def NextWord (m t : Mach) (o : OpInfo) : Prop :=
  t.spin.use = m.spin.issueAt o + o.size ∧ t.spin.ready = (m.spin.await o (m.spin.issueAt o)).ready ∧
    ((∀ l ∈ m.spin.loops.head?, l.stop ≠ m.spin.pc + o.size - 1) →
      t.spin.pc = m.spin.pc + o.size + o.skip ∧ t.spin.loops = m.spin.loops)

/-- The overflow trap is off, or no lane that exists overflows (R213). -/
def NoOvfTrap (m : Mach) (f : Nat → LaneFlags) : Prop :=
  m.flag F.SPN_CTRL_ovf_trap = true → ∀ n, n < 128 → m.laneOn n = true → (f n).ovf = false

/-- An arithmetic instruction that gives its destination lane results with flags: it writes them and the flags stick, or, where a
lane that exists overflows with the overflow trap on, it traps with ARITH (R212, R213, R216). -/
def LanesArith (c : Instr) (s : State) (d : VReg) (o : OpInfo) (res : Nat → Lane × LaneFlags) : Prop :=
  (NoOvfTrap s.mach (fun n => (res n).2) → Completes c s fun t =>
    VectorWritten s.mach t d (fun n => (res n).1) ∧ FlagsAdded s.mach t (fun n => (res n).2)
      ∧ OnlyVectorsAndFlags s.mach t ∧ NextWord s.mach t o) ∧
  ∀ n, n < 128 → s.mach.flag F.SPN_CTRL_ovf_trap = true → s.mach.laneOn n = true → (res n).2.ovf = true →
    s.mach.get F.SPN_TRAP_cause = 0 → Completes c s fun t => TrappedWith t 8

/-- The flags of the rows of a matrix buffer's lane. -/
def rowFlags (r : Vector (Lane × LaneFlags) 8) : LaneFlags := r.toList.foldl (fun f x => f.or x.2) LaneFlags.none

/-- The same for a matrix buffer. -/
def RowsArith (c : Instr) (s : State) (x : XReg) (o : OpInfo) (res : Nat → Vector (Lane × LaneFlags) 8) : Prop :=
  (NoOvfTrap s.mach (fun n => rowFlags (res n)) → Completes c s fun t =>
    MatrixWritten s.mach t x (fun n => Vector.ofFn fun i => (res n)[i].1)
      ∧ FlagsAdded s.mach t (fun n => rowFlags (res n)) ∧ OnlyMatricesAndFlags s.mach t ∧ NextWord s.mach t o) ∧
  ∀ n, n < 128 → s.mach.flag F.SPN_CTRL_ovf_trap = true → s.mach.laneOn n = true → (rowFlags (res n)).ovf = true →
    s.mach.get F.SPN_TRAP_cause = 0 → Completes c s fun t => TrappedWith t 8

/-! ## Registers and commands of the management plane -/

/-- A frame has left over the cross-link with this module's slot and the next sequence (R354). -/
def XlSent (m t : Mach) (f : XlFrame) : Prop :=
  t.out = .xl (BitVec.ofNat 6 (m.get F.GLB_SLOT_slot)) m.pair.xlSeq f :: m.out ∧ t.pair.xlSeq = m.pair.xlSeq + 1

/-- Registers outside a list keep their words. -/
def RegsKept (m t : Mach) (as : List Nat) : Prop := ∀ a, a ∉ as → t.rd a = m.rd a

/-- A register at an address takes accesses: its domain and the arbiter's are on, and the life cycle is not over (R24, R402). -/
def Mach.reachable (m : Mach) (a : Nat) : Bool := (m.offCode a).isNone && m.lifeCycle != .decommissioned

/-- The word of a saturating counter after one more event. -/
def Mach.counted (m : Mach) (a : Nat) : Word := if m.rd a = 0xFFFFFFFF then 0xFFFFFFFF else m.rd a + 1

/-- The ladder reports an action: busy with a rung, a function and a master. -/
def LadderShows (t : Mach) (rung fn master : Nat) : Prop :=
  t.get F.PWR_LADDER_STAT_busy = 1 ∧ t.get F.PWR_LADDER_STAT_rung = rung ∧ t.get F.PWR_LADDER_STAT_function = fn
    ∧ t.get F.PWR_LADDER_STAT_master = master

/-- The loader starts an image (R459, R489): firmware that passes every check against this module's store, whose journal is at rest
and which no wipe waits to change. -/
def Mach.boots (m : Mach) (i : Image) : Prop :=
  i.kind = .firmware ∧ i.formatOk = true ∧ i.targetOk = true ∧ i.sig.etiotanOk = true ∧ i.sig.ownerOk = true
    ∧ m.get F.LCY_ROLLBACK_count ≤ i.secVer.toNat ∧ (∀ d ∈ m.mgmt.jDigest, d = i.digest) ∧ m.mgmt.journal = .normal
    ∧ m.mgmt.wiped = 0

/-- The store holds nothing that the loader can start (R459, R496). -/
def Mach.bootless (m : Mach) (img : Option Image) : Prop :=
  (∀ i ∈ img, i.formatOk = false ∨ i.targetOk = false) ∧ m.mgmt.journal = .normal ∧ m.mgmt.wiped = 0

/-- The loader has reached its safe mode (R496): PD_HOST and PD_SVC apart, nothing that a module needs for its string is on, both
switches of BRK_TRIP are off. -/
def SafeModeReached (t : Mach) : Prop :=
  t.power.safeMode = true ∧ t.power.bootDone = true ∧ t.rd Reg.GLB_FW_VER = 0
    ∧ t.get F.MGT_UPD_STAT_stage = Stage.safeMode ∧ t.get F.MGT_IRQ_STAT_safe_mode = 1
    ∧ t.get F.SAF_STAT_trip_hs = 0 ∧ t.get F.SAF_STAT_trip_ls = 0

/-! ## Commands that Distaff completes -/

/-- A mailbox has been completed with an error code: it is not busy and no longer in the order. -/
def MbxAnswered (t : Mach) (b : Nat) (e : BitVec 16) : Prop :=
  t.get (F.MBX_CTRL_busy b) = 0 ∧ t.get (F.MBX_STAT_error b) = e.toNat ∧ b ∉ t.host.mbxOrder

/-- An operation has failed with a code. -/
def OpFailed (t : Mach) (n : Nat) (e : BitVec 16) : Prop :=
  t.get (F.OP_STATUS0_state n) = 4 ∧ t.get (F.OP_STATUS0_error n) = e.toNat ∧ n ∉ t.host.opQueue

/-- The work of an operation is complete, with so many records written. -/
def OpWorked (t : Mach) (n records : Nat) : Prop :=
  n ∈ t.host.opDone ∧ t.get (F.OP_STATUS1_partial n) = records

/-- Distaff works on a slot that has no record yet, and serves its opcode. -/
def Mach.opFresh (m : Mach) (n op : Nat) : Bool :=
  m.opMay n op && m.get (F.OP_STATUS1_partial n) == 0 && m.get (F.OP_ACK_ack n) == 0

/-! ## Safety demands -/

/-- The module at an instant of the present cycle, `ns` after its sample instant: time and the nodes' timers have gone on.
DESIGN CHOICE: log entry 12. -/
def Mach.atPhase (m : Mach) (ns : Nat) : Mach := m.passTo (m.instantOf (m.indexAt m.nowNs) + ns)

/-- A safety cause has been taken (R326 to R328, R463): recorded and counted, present or latched as its kind says, the run
permit and the outputs off, the run state as its kind says. -/
def CauseTaken (m t : Mach) (c : SafetyCause) : Prop :=
  t.get F.SAF_CAUSE_latest = c.code
    ∧ t.get F.SAF_CAUSE_first = (if m.get F.SAF_CAUSE_first = 0 then c.code else m.get F.SAF_CAUSE_first)
    ∧ t.get F.SAF_CAUSE_count = min 0xFFFF (m.get F.SAF_CAUSE_count + 1) ∧ t.get F.SAF_IRQ_STAT_demand = 1
    ∧ t.get F.SAF_STAT_run_permit = 0 ∧ t.safety.closeOn = false ∧ t.safety.discOn = false
    ∧ (c.lasts = true → c ∈ t.safety.conds) ∧ (c.latches = true → c ∈ t.safety.latched)
    ∧ t.runState = (if c.latches then .faultLatched else if m.runState.busy then .safeHold else m.runState)
    ∧ t.mem = m.mem

/-! ## The stores -/

/-- Registers and memory are in canonical form: addresses strictly rising, no entry equal to its default. -/
def Mach.storesWf (m : Mach) : Bool := canonical resetWord m.regs && Memory.wf m.mem

/-- What a run keeps of a state. -/
def State.Inv (s : State) : Prop := s.mach.storesWf = true

end Sys2Proof.Machine
end

