-- ==== Sys2Proof/Certificates/Slice0/Obligations.lean ====
section
/-!
DEFINITION. The statements about the model, for the provers. Each says when a command completes and what it leaves, in the
terms of Sys2Proof/Safety.lean; the rule of the spec it follows stands in its docstring.
-/

open Sys2Proof Sys2Proof.Machine

/-! ## Relud: scalar instructions (R237 to R245) -/

/-- R238: the scalar operations of two registers. Each writes its result to S_D, keeps every other register and S0 at 0, and
moves to the next word. -/
def Obligations.ScalarResult : Prop :=
  ∀ p ∈ ([(Instr.add, 1, fun x y => x + y), (Instr.sub, 1, fun x y => x - y), (Instr.and, 1, fun x y => x &&& y),
      (Instr.or, 1, fun x y => x ||| y), (Instr.xor, 1, fun x y => x ^^^ y),
      (Instr.sll, 1, fun x y => x <<< (y.toNat % 32)), (Instr.srl, 1, fun x y => x >>> (y.toNat % 32)),
      (Instr.sra, 1, fun x y => x.sshiftRight (y.toNat % 32)),
      (Instr.mul, 2, fun x y => BitVec.ofInt 32 (x.toInt * y.toInt)),
      (Instr.mulh, 2, fun x y => BitVec.ofInt 32 (x.toInt * y.toInt / 2 ^ 32)),
      (Instr.slt, 1, fun x y => if x.toInt < y.toInt then 1 else 0),
      (Instr.sltu, 1, fun x y => if x.toNat < y.toNat then 1 else 0),
      (Instr.min, 1, fun x y => if x.toInt ≤ y.toInt then x else y),
      (Instr.max, 1, fun x y => if x.toInt ≤ y.toInt then y else x)] :
      List ((SReg → SReg → SReg → Instr) × Nat × (Word → Word → Word))),
    ∀ (d a b : SReg) (s : State), s.mach.issues (.mk1 [resS a, resS b] [resS d] p.2.1) = true →
      Completes (p.1 d a b) s fun t =>
        ScalarWritten s.mach t d (p.2.2 (s.mach.sreg a) (s.mach.sreg b)) ∧ OnlyScalars s.mach t
          ∧ NextWord s.mach t (.mk1 [resS a, resS b] [resS d] p.2.1)

/-- R239: the operations with an immediate, 16 bits sign-extended or 32 bits as they are, zero-extended for ANDI, ORI and XORI;
LUI, and SHI's three shifts with its fourth code, which traps with ILLEGAL. -/
def Obligations.ImmediateResult : Prop :=
  (∀ p ∈ ([(Instr.addi, fun x i => x + immSigned i), (Instr.andi, fun x i => x &&& immUnsigned i),
      (Instr.ori, fun x i => x ||| immUnsigned i), (Instr.xori, fun x i => x ^^^ immUnsigned i),
      (Instr.slti, fun x i => if x.toInt < (immSigned i).toInt then 1 else 0)] :
      List ((SReg → SReg → Imm → Instr) × (Word → Imm → Word))),
    ∀ (d a : SReg) (i : Imm) (s : State), s.mach.issues ⟨[resS a], [resS d], 1, immSize i, 0, 0⟩ = true →
      Completes (p.1 d a i) s fun t =>
        ScalarWritten s.mach t d (p.2 (s.mach.sreg a) i) ∧ OnlyScalars s.mach t
          ∧ NextWord s.mach t ⟨[resS a], [resS d], 1, immSize i, 0, 0⟩) ∧
  (∀ (d : SReg) (i : BitVec 16) (s : State), s.mach.issues (.mk1 [] [resS d] 1) = true →
    Completes (.lui d i) s fun t =>
      ScalarWritten s.mach t d (i ++ (0 : BitVec 16)) ∧ OnlyScalars s.mach t
        ∧ NextWord s.mach t (.mk1 [] [resS d] 1)) ∧
  (∀ p ∈ ([(.sll, fun x k => x <<< k), (.srl, fun x k => x >>> k), (.sra, fun x k => x.sshiftRight k)] :
      List (ShiKind × (Word → Nat → Word))),
    ∀ (d a : SReg) (k : BitVec 5) (s : State), s.mach.issues (.mk1 [resS a] [resS d] 1) = true →
      Completes (.shi d a p.1 k) s fun t =>
        ScalarWritten s.mach t d (p.2 (s.mach.sreg a) k.toNat) ∧ OnlyScalars s.mach t
          ∧ NextWord s.mach t (.mk1 [resS a] [resS d] 1)) ∧
  ∀ (d a : SReg) (k : BitVec 5) (s : State), s.mach.issues (.mk1 [resS a] [resS d] 1) = true →
    s.mach.get F.SPN_TRAP_cause = 0 → Completes (.shi d a .illegal k) s fun t => TrappedWith t 1

/-- R240: a branch whose condition on S_D and S_A holds continues at the next index plus the immediate and takes two cycles,
and, out of the innermost loop's body, pops the loop levels whose body does not hold its target (R241); else the next word follows. No register changes. -/
def Obligations.BranchTarget : Prop :=
  ∀ p ∈ ([(Instr.beq, fun x y => decide (x = y)), (Instr.bne, fun x y => decide (x ≠ y)),
      (Instr.blt, fun x y => decide (x.toInt < y.toInt)), (Instr.bge, fun x y => decide (y.toInt ≤ x.toInt))] :
      List ((SReg → SReg → Imm → Instr) × (Word → Word → Bool))),
    ∀ (d a : SReg) (i : Imm) (s : State), s.mach.issues ⟨[resS d, resS a], [], 0, immSize i, 0, 0⟩ = true →
      Completes (p.1 d a i) s fun t =>
        t = s.mach.progress t ∧
        (p.2 (s.mach.sreg d) (s.mach.sreg a) = true →
          t.spin.pc = (BitVec.ofNat 32 (s.mach.spin.pc + immSize i) + immSigned i).toNat
            ∧ (∀ l ∈ s.mach.spin.loops.head?, l.start ≤ t.spin.pc ∧ t.spin.pc ≤ l.stop → t.spin.loops = s.mach.spin.loops)
            ∧ (∀ l ∈ s.mach.spin.loops.head?, ¬(l.start ≤ t.spin.pc ∧ t.spin.pc ≤ l.stop) → t.spin.loops
              = s.mach.spin.loops.filter (fun l => decide (l.start ≤ t.spin.pc) && decide (t.spin.pc ≤ l.stop)))
            ∧ t.spin.use = s.mach.spin.issueAt ⟨[resS d, resS a], [], 0, immSize i, 0, 0⟩ + immSize i + 1) ∧
        (p.2 (s.mach.sreg d) (s.mach.sreg a) = false →
          NextWord s.mach t ⟨[resS d, resS a], [], 0, immSize i, 0, 0⟩)

/-- R238, R240, R241, R242: jumps with their link, LOOP, WAITCYC, NOP and SECEND. JALR reads its target before it writes the
link. A LOOP with a count opens a level; one with count 0 skips its body. SECEND ends the section; what of R204 follows a stop
that waits is another statement. -/
def Obligations.ControlFlow : Prop :=
  (∀ (d : SReg) (i : Imm) (s : State), s.mach.issues ⟨[], [resS d], 1, immSize i, 0, 0⟩ = true →
    Completes (.jal d i) s fun t =>
      ScalarWritten s.mach t d (BitVec.ofNat 32 (s.mach.spin.pc + immSize i)) ∧ OnlyScalars s.mach t
        ∧ t.spin.pc = (BitVec.ofNat 32 (s.mach.spin.pc + immSize i) + immSigned i).toNat) ∧
  (∀ (d a : SReg) (s : State), s.mach.issues (.mk1 [resS a] [resS d] 1) = true →
    Completes (.jalr d a) s fun t =>
      ScalarWritten s.mach t d (BitVec.ofNat 32 (s.mach.spin.pc + 1)) ∧ OnlyScalars s.mach t
        ∧ t.spin.pc = (s.mach.sreg a).toNat) ∧
  (∀ (a : SReg) (n : BitVec 16) (s : State), s.mach.issues (.mk1 [resS a] [] 1) = true → n ≠ 0 →
    s.mach.spin.loops.length < 4 →
    Completes (.loop a n) s fun t =>
      t = s.mach.progress t ∧
      (s.mach.sreg a ≠ 0 → t.spin.pc = s.mach.spin.pc + 1
        ∧ t.spin.loops = ⟨s.mach.spin.pc + 1, s.mach.spin.pc + n.toNat, (s.mach.sreg a).toNat⟩ :: s.mach.spin.loops) ∧
      (s.mach.sreg a = 0 → (∀ l ∈ s.mach.spin.loops.head?, l.stop ≠ s.mach.spin.pc) →
        t.spin.pc = s.mach.spin.pc + 1 + n.toNat ∧ t.spin.loops = s.mach.spin.loops)) ∧
  (∀ (a : SReg) (i : Imm) (s : State),
    s.mach.issues ⟨[resS a], [], 1, immSize i, (s.mach.sreg a + immSigned i).toNat, 0⟩ = true →
    Completes (.waitcyc a i) s fun t =>
      t = s.mach.progress t ∧ (s.mach.sreg a + immSigned i).toNat + immSize i ≤ t.spin.use) ∧
  (∀ s : State, s.mach.issues (.mk1 [] [] 1) = true →
    Completes .nop s fun t => t = s.mach.progress t ∧ NextWord s.mach t (.mk1 [] [] 1)) ∧
  ∀ s : State, s.mach.issues (.mk1 (s.mach.spin.ready.map (·.1)) [] 0) = true → s.mach.spin.stopPend = false →
    s.mach.memi.upsets = [] →
    Completes .secend s fun t =>
      t.get F.SPN_STAT_section = 2 ∧ t.get F.SPN_STAT_state = s.mach.get F.SPN_STAT_state
        ∧ (s.mach.inFast = true → t.get F.SPN_USE_fast_used
            = min (s.mach.spin.issueAt (.mk1 (s.mach.spin.ready.map (·.1)) [] 0) + 2) 0xFFFF)
        ∧ (s.mach.inFast = false → t.get F.SPN_USE_est_used
            = min (s.mach.spin.issueAt (.mk1 (s.mach.spin.ready.map (·.1)) [] 0) + 2) 0xFFFF)
        ∧ t.mem = s.mach.mem ∧ t.fly = s.mach.fly

/-- R238, R244: RDSC reads the section cycle of its issue, RDTB the nanoseconds of the time base while determinism is not
enforced, TSAMP its word of this cycle's frame. -/
def Obligations.TimeReads : Prop :=
  (∀ (d : SReg) (s : State), s.mach.issues (.mk1 [] [resS d] 1) = true →
    Completes (.rdsc d) s fun t =>
      ScalarWritten s.mach t d (BitVec.ofNat 32 (s.mach.spin.issueAt (.mk1 [] [resS d] 1))) ∧ OnlyScalars s.mach t) ∧
  (∀ (d : SReg) (s : State), s.mach.issues (.mk1 [] [resS d] 4) = true → s.mach.flag F.SPN_CTRL_det_enforce = false →
    Completes (.rdtb d) s fun t =>
      ScalarWritten s.mach t d (BitVec.ofNat 32 s.mach.time.ns) ∧ OnlyScalars s.mach t) ∧
  ∀ p ∈ ([(.secLo, 0x0C), (.secHi, 0x08), (.ns, 0x10)] : List (TsampField × Nat)), ∀ (d : SReg) (s : State),
    s.mach.issues ⟨[], [resS d], 4, 1, s.mach.readable false true, 0⟩ = true →
    s.mach.poisoned (frameAddr s.mach.cycle + p.2) = false → s.mach.upsetsIn (frameAddr s.mach.cycle + p.2) 4 = [] →
    Completes (.tsamp d p.1) s fun t =>
      ScalarWritten s.mach t d (readMemWord s.mach.mem (frameAddr s.mach.cycle + p.2)) ∧ OnlyScalars s.mach t

/-- R243: scalar loads from lane memory and from the bank in force, and scalar stores, at S_A plus the immediate with the two
lowest address bits ignored, of code words without poison or upset. A lane that is off reads canonical zero and takes no store (R199);
a poisoned word reads as 0, counts in SPN_CNT_POISON and in MEM_CNT_POISON_HIT, and sets its lane's inv flag (R219). -/
def Obligations.ScalarMemory : Prop :=
  (∀ (d a : SReg) (i : Imm) (s : State), s.mach.issues ⟨[resS a], [resS d], 3, immSize i, 0, 0⟩ = true →
    scalarAddr (s.mach.sreg a + immSigned i) < 0x100000 →
    s.mach.poisoned (laneMemBase + scalarAddr (s.mach.sreg a + immSigned i)) = false →
    s.mach.upsetsIn (laneMemBase + scalarAddr (s.mach.sreg a + immSigned i)) 4 = [] →
    Completes (.lds d a i) s fun t =>
      ScalarWritten s.mach t d
        (if s.mach.laneOn (scalarAddr (s.mach.sreg a + immSigned i) / 0x2000)
          then readMemWord s.mach.mem (laneMemBase + scalarAddr (s.mach.sreg a + immSigned i)) else bfpZero)
        ∧ OnlyScalars s.mach t) ∧
  (∀ (d a : SReg) (i : Imm) (s : State), s.mach.issues ⟨[resS a], [resS d], 3, immSize i, 0, 0⟩ = true →
    scalarAddr (s.mach.sreg a + immSigned i) < 0x100000 →
    s.mach.laneOn (scalarAddr (s.mach.sreg a + immSigned i) / 0x2000) = true →
    s.mach.poisoned (laneMemBase + scalarAddr (s.mach.sreg a + immSigned i)) = true → s.mach.memi.upsets = [] →
    Completes (.lds d a i) s fun t =>
      ScalarWritten s.mach t d 0 ∧ t.mem = s.mach.mem ∧ t.get F.MEM_IRQ_STAT_poison_hit = 1
        ∧ t.rd Reg.SPN_CNT_POISON = s.mach.counted Reg.SPN_CNT_POISON
        ∧ t.rd Reg.MEM_CNT_POISON_HIT = s.mach.counted Reg.MEM_CNT_POISON_HIT
        ∧ ∀ n : Fin 128, t.spin.flags[n] = if n.val = scalarAddr (s.mach.sreg a + immSigned i) / 0x2000
            then s.mach.spin.flags[n].or LaneFlags.invOnly else s.mach.spin.flags[n]) ∧
  (∀ (d a : SReg) (i : Imm) (s : State), s.mach.issues ⟨[resS a], [resS d], 3, immSize i, 0, 0⟩ = true →
    scalarAddr (s.mach.sreg a + immSigned i) < 0x10000 →
    s.mach.anyPoison (s.mach.bankBase + scalarAddr (s.mach.sreg a + immSigned i)) 4 = false →
    s.mach.upsetsIn (s.mach.bankBase + scalarAddr (s.mach.sreg a + immSigned i)) 4 = [] →
    Completes (.ldps d a i) s fun t =>
      ScalarWritten s.mach t d (readMemWord s.mach.mem (s.mach.bankBase + scalarAddr (s.mach.sreg a + immSigned i)))
        ∧ OnlyScalars s.mach t) ∧
  ∀ (d a : SReg) (i : Imm) (s : State), s.mach.issues ⟨[resS d, resS a], [], 1, immSize i, 0, 0⟩ = true →
    scalarAddr (s.mach.sreg a + immSigned i) < 0x100000 → s.mach.pair.resync = none →
    s.mach.poisoned (laneMemBase + scalarAddr (s.mach.sreg a + immSigned i)) = false →
    s.mach.upsetsIn (laneMemBase + scalarAddr (s.mach.sreg a + immSigned i)) 4 = [] →
    Completes (.sts d a i) s fun t =>
      t = { s.mach.progress t with mem := t.mem } ∧
      (s.mach.laneOn (scalarAddr (s.mach.sreg a + immSigned i) / 0x2000) = true →
        readMemWord t.mem (laneMemBase + scalarAddr (s.mach.sreg a + immSigned i)) = s.mach.sreg d
          ∧ ∀ b, (b < laneMemBase + scalarAddr (s.mach.sreg a + immSigned i)
              ∨ laneMemBase + scalarAddr (s.mach.sreg a + immSigned i) + 4 ≤ b) →
            readByte t.mem b = readByte s.mach.mem b) ∧
      (s.mach.laneOn (scalarAddr (s.mach.sreg a + immSigned i) / 0x2000) = false → t.mem = s.mach.mem)

/-! ## Relud: vector memory and frames (R207, R208, R243 to R245, R259) -/

/-- R243: vector loads from lane memory and from the bank in force, the same for every lane or strided by lane, while no code
word is poisoned or upset. The address S_A plus 32 times the offset counts with its five lowest bits as 0. -/
def Obligations.VectorLoads : Prop :=
  (∀ (d : VReg) (a : SReg) (off : BitVec 8) (k : MReg) (s : State),
    s.mach.issues (.mk1 [resS a, resM k] [resV d] 4) = true → s.mach.memi.clean = true →
    vectorAddr (s.mach.sreg a + 32 * off.setWidth 32) + 32 ≤ 0x2000 →
    Completes (.vld d a off k) s fun t =>
      VectorWritten s.mach t d (fun n => loadLane (s.mach.mreg k n)
        (readMemWords s.mach.mem (laneAddr n (vectorAddr (s.mach.sreg a + 32 * off.setWidth 32))) 8) (s.mach.vreg d n))
        ∧ OnlyVectors s.mach t) ∧
  (∀ (d : VReg) (a : SReg) (off : BitVec 8) (k : MReg) (s : State),
    s.mach.issues (.mk1 [resS a, resM k] [resV d] 4) = true → s.mach.memi.clean = true →
    vectorAddr (s.mach.sreg a + 32 * off.setWidth 32) + 32 ≤ 0x10000 →
    Completes (.vldp d a off k) s fun t =>
      VectorWritten s.mach t d (fun n => loadLane (s.mach.mreg k n)
        (readMemWords s.mach.mem (s.mach.bankBase + vectorAddr (s.mach.sreg a + 32 * off.setWidth 32)) 8)
        (s.mach.vreg d n)) ∧ OnlyVectors s.mach t) ∧
  ∀ (d : VReg) (a b : SReg) (off : BitVec 8) (k : MReg) (s : State),
    s.mach.issues (.mk1 [resS a, resS b, resM k] [resV d] 4) = true → s.mach.memi.clean = true →
    (s.mach.sreg b).toNat % 32 = 0 →
    vectorAddr (s.mach.sreg a + 32 * off.setWidth 32) + 127 * (s.mach.sreg b).toNat + 32 ≤ 0x10000 →
    Completes (.vldpx d a b off k) s fun t =>
      VectorWritten s.mach t d (fun n => loadLane (s.mach.mreg k n)
        (readMemWords s.mach.mem (s.mach.bankBase + (vectorAddr (s.mach.sreg a + 32 * off.setWidth 32)
          + n * (s.mach.sreg b).toNat)) 8) (s.mach.vreg d n)) ∧ OnlyVectors s.mach t

/-- R208, R243: VST stores the ply that its mask selects, each as mantissa and lane exponent, in every lane that exists, and no
other byte of memory. -/
def Obligations.VectorStore : Prop :=
  ∀ (v : VReg) (b : SReg) (off : BitVec 8) (k : MReg) (s : State),
    s.mach.issues (.mk1 [resS b, resM k, resV v] [] 1) = true → s.mach.memi.clean = true → s.mach.pair.resync = none →
    vectorAddr (s.mach.sreg b + 32 * off.setWidth 32) + 32 ≤ 0x2000 →
    Completes (.vst v b off k) s fun t =>
      t = { s.mach.progress t with mem := t.mem } ∧
      (∀ n j, n < 128 → j < 8 → s.mach.laneOn n = true → (s.mach.mreg k n).getLsbD j = true →
        readMemWord t.mem (laneAddr n (vectorAddr (s.mach.sreg b + 32 * off.setWidth 32)) + 4 * j)
          = (s.mach.vreg v n).words.getD j 0) ∧
      ∀ a, (∀ n j, n < 128 → j < 8 → s.mach.laneOn n = true → (s.mach.mreg k n).getLsbD j = true →
          a < laneAddr n (vectorAddr (s.mach.sreg b + 32 * off.setWidth 32)) + 4 * j
            ∨ laneAddr n (vectorAddr (s.mach.sreg b + 32 * off.setWidth 32)) + 4 * j + 4 ≤ a) →
        readByte t.mem a = readByte s.mach.mem a

/-- R244, R245: frame loads that may be made: FRLD gives each lane its item in integer form, FRLS a word, FRLB a BFP word in
ply 0 of every lane. -/
def Obligations.FrameLoads : Prop :=
  (∀ (d : VReg) (i : FrldItem) (prev : Bool) (k : MReg) (s : State),
    s.mach.issues ⟨[resM k], [resV d], 6, 1, s.mach.readable prev false, 0⟩ = true → s.mach.memi.clean = true →
    s.mach.frameEarly prev false = false →
    Completes (.frld d i prev k) s fun t =>
      VectorWritten s.mach t d (fun n => writeInt (s.mach.mreg k n) (s.mach.vreg d n) fun j =>
        (frameItem s.mach.mem i (s.mach.frame prev) n).getD j 0) ∧ OnlyVectors s.mach t) ∧
  (∀ (d : SReg) (off : BitVec 13) (prev : Bool) (s : State),
    s.mach.issues ⟨[], [resS d], 4, 1, s.mach.readable prev (decide (off.toNat < 0x80)), 0⟩ = true →
    s.mach.memi.clean = true → off.toNat < 0x1200 → s.mach.frameEarly prev (decide (off.toNat < 0x80)) = false →
    Completes (.frls d off prev) s fun t =>
      ScalarWritten s.mach t d (readMemWord s.mach.mem (s.mach.frame prev + off.toNat / 4 * 4)) ∧ OnlyScalars s.mach t) ∧
  ∀ (d : VReg) (off : BitVec 13) (prev : Bool) (s : State),
    s.mach.issues ⟨[], [resV d], 5, 1, s.mach.readable prev (decide (off.toNat < 0x80)), 0⟩ = true →
    s.mach.memi.clean = true → off.toNat < 0x1200 → s.mach.frameEarly prev (decide (off.toNat < 0x80)) = false →
    Completes (.frlb d off prev) s fun t =>
      VectorWritten s.mach t d (fun _ => (normalise
        (bfpVal (readMemWord s.mach.mem (s.mach.frame prev + off.toNat / 4 * 4)) :: List.replicate 7 Dy.zero)).1)
        ∧ OnlyVectors s.mach t

/-! ## Relud: vector arithmetic (R212 to R216, R246 to R249) -/

/-- R246, R247: arithmetic of two operands, the second a vector or a BFP scalar in every ply: a lane is written as R212 to R214
say and its flags stick, or the overflow trap takes it. -/
def Obligations.VectorArithmetic : Prop :=
  (∀ p ∈ ([(Instr.vadd, 3, fun _ x y => (x.add y, LaneFlags.none)), (Instr.vsub, 3, fun _ x y => (x.sub y, LaneFlags.none)),
      (Instr.vmul, 4, fun _ x y => (x.mul y, LaneFlags.none)),
      (Instr.vmac, 4, fun z x y => (z.add (x.mul y), LaneFlags.none)),
      (Instr.vmsb, 4, fun z x y => (z.sub (x.mul y), LaneFlags.none)), (Instr.vdiv, 14, fun _ x y => divRes x y)] :
      List ((VReg → VReg → VReg → MReg → Instr) × Nat × (Dy → Dy → Dy → PlyRes))),
    ∀ (d a b : VReg) (k : MReg) (s : State), s.mach.issues (.mk1 [resV a, resV b, resM k] [resV d] p.2.1) = true →
      LanesArith (p.1 d a b k) s d (.mk1 [resV a, resV b, resM k] [resV d] p.2.1) fun n =>
        writeArith (s.mach.mreg k n) (s.mach.vreg d n) fun j =>
          p.2.2 ((s.mach.vreg d n).val j) ((s.mach.vreg a n).val j) ((s.mach.vreg b n).val j)) ∧
  ∀ p ∈ ([(Instr.vadds, 3, fun _ x y => (x.add y, LaneFlags.none)), (Instr.vsubs, 3, fun _ x y => (x.sub y, LaneFlags.none)),
      (Instr.vmuls, 4, fun _ x y => (x.mul y, LaneFlags.none)),
      (Instr.vmacs, 4, fun z x y => (z.add (x.mul y), LaneFlags.none)),
      (Instr.vmsbs, 4, fun z x y => (z.sub (x.mul y), LaneFlags.none)), (Instr.vdivs, 14, fun _ x y => divRes x y)] :
      List ((VReg → VReg → SReg → MReg → Instr) × Nat × (Dy → Dy → Dy → PlyRes))),
    ∀ (d a : VReg) (b : SReg) (k : MReg) (s : State), s.mach.issues (.mk1 [resV a, resS b, resM k] [resV d] p.2.1) = true →
      LanesArith (p.1 d a b k) s d (.mk1 [resV a, resS b, resM k] [resV d] p.2.1) fun n =>
        writeArith (s.mach.mreg k n) (s.mach.vreg d n) fun j =>
          p.2.2 ((s.mach.vreg d n).val j) ((s.mach.vreg a n).val j) (bfpVal (s.mach.sreg b))

/-- R246, R247: minimum, maximum and clamp give the operand that the exact order picks, with no flags of their own. -/
def Obligations.VectorOrder : Prop :=
  (∀ p ∈ ([(Instr.vmin, fun _ x y => if y.lt x then y else x), (Instr.vmax, fun _ x y => if x.lt y then y else x),
      (Instr.vclmp, fun z x y => if y.lt (if z.lt x then x else z) then y else if z.lt x then x else z)] :
      List ((VReg → VReg → VReg → MReg → Instr) × (Dy → Dy → Dy → Dy))),
    ∀ (d a b : VReg) (k : MReg) (s : State), s.mach.issues (.mk1 [resV a, resV b, resM k] [resV d] 3) = true →
      LanesArith (p.1 d a b k) s d (.mk1 [resV a, resV b, resM k] [resV d] 3) fun n =>
        ((writeArith (s.mach.mreg k n) (s.mach.vreg d n) fun j =>
          (p.2 ((s.mach.vreg d n).val j) ((s.mach.vreg a n).val j) ((s.mach.vreg b n).val j), LaneFlags.none)).1,
          LaneFlags.none)) ∧
  ∀ p ∈ ([(Instr.vmins, fun x y => if y.lt x then y else x), (Instr.vmaxs, fun x y => if x.lt y then y else x)] :
      List ((VReg → VReg → SReg → MReg → Instr) × (Dy → Dy → Dy))),
    ∀ (d a : VReg) (b : SReg) (k : MReg) (s : State), s.mach.issues (.mk1 [resV a, resS b, resM k] [resV d] 3) = true →
      LanesArith (p.1 d a b k) s d (.mk1 [resV a, resS b, resM k] [resV d] 3) fun n =>
        ((writeArith (s.mach.mreg k n) (s.mach.vreg d n) fun j =>
          (p.2 ((s.mach.vreg a n).val j) (bfpVal (s.mach.sreg b)), LaneFlags.none)).1, LaneFlags.none)

/-- R246, R248: the operations of one operand, the scaling by a power of two, the conversions, and the whole-lane move, which
keeps the exponent (R236). -/
def Obligations.VectorUnary : Prop :=
  (∀ (d a : VReg) (k : MReg) (s : State), s.mach.issues (.mk1 [resV a, resM k] [resV d] 14) = true →
    LanesArith (.vsqrt d a k) s d (.mk1 [resV a, resM k] [resV d] 14) fun n =>
      writeArith (s.mach.mreg k n) (s.mach.vreg d n) fun j => sqrtRes ((s.mach.vreg a n).val j)) ∧
  (∀ p ∈ ([(Instr.vabs, Dy.abs), (Instr.vneg, Dy.neg)] : List ((VReg → VReg → MReg → Instr) × (Dy → Dy))),
    ∀ (d a : VReg) (k : MReg) (s : State), s.mach.issues (.mk1 [resV a, resM k] [resV d] 3) = true →
      LanesArith (p.1 d a k) s d (.mk1 [resV a, resM k] [resV d] 3) fun n =>
        let r := writeArith (s.mach.mreg k n) (s.mach.vreg d n) fun j => (p.2 ((s.mach.vreg a n).val j), LaneFlags.none)
        (r.1, { LaneFlags.none with ovf := r.2.ovf })) ∧
  (∀ p ∈ ([(Instr.vsin, fun x => x.sinTurns), (Instr.vcos, fun x => (x.add ⟨1, -2⟩).sinTurns)] :
      List ((VReg → VReg → MReg → Instr) × (Dy → Dy))),
    ∀ (d a : VReg) (k : MReg) (s : State), s.mach.issues (.mk1 [resV a, resM k] [resV d] 8) = true →
      LanesArith (p.1 d a k) s d (.mk1 [resV a, resM k] [resV d] 8) fun n =>
        ((writeArith (s.mach.mreg k n) (s.mach.vreg d n) fun j => (p.2 ((s.mach.vreg a n).val j), LaneFlags.none)).1,
          LaneFlags.none)) ∧
  (∀ (d a : VReg) (b : SReg) (k : MReg) (s : State), s.mach.issues (.mk1 [resV a, resS b, resM k] [resV d] 2) = true →
    LanesArith (.vscl d a b k) s d (.mk1 [resV a, resS b, resM k] [resV d] 2) fun n =>
      writeArith (s.mach.mreg k n) (s.mach.vreg d n) fun j =>
        (⟨((s.mach.vreg a n).val j).n, ((s.mach.vreg a n).val j).k + (s.mach.sreg b).toInt⟩, LaneFlags.none)) ∧
  (∀ (d a : VReg) (k : MReg) (s : State), s.mach.issues (.mk1 [resV a, resM k] [resV d] 3) = true →
    LanesArith (.vcvtif d a k) s d (.mk1 [resV a, resM k] [resV d] 3) (fun n =>
      ((writeArith (s.mach.mreg k n) (s.mach.vreg d n) fun j =>
        (Dy.ofInt ((s.mach.vreg a n).m[j]?.getD 0).toInt, LaneFlags.none)).1, LaneFlags.none)) ∧
    LanesArith (.vcvtfi d a k) s d (.mk1 [resV a, resM k] [resV d] 3) fun n =>
      (writeInt (s.mach.mreg k n) (s.mach.vreg d n) fun j => (clampedInt ((s.mach.vreg a n).val j)).1,
        { LaneFlags.none with ovf := (List.range 8).any fun j =>
            (s.mach.mreg k n).getLsbD j && (clampedInt ((s.mach.vreg a n).val j)).2 })) ∧
  ∀ (d a : VReg) (k : MReg) (s : State), s.mach.issues (.mk1 [resV a, resM k] [resV d] 2) = true →
    Completes (.vmov d a k) s fun t =>
      VectorWritten s.mach t d (fun n => moveLane (s.mach.mreg k n) (s.mach.vreg a n) (s.mach.vreg d n))
        ∧ OnlyVectors s.mach t ∧ NextWord s.mach t (.mk1 [resV a, resM k] [resV d] 2)

/-- R249: integer lane operations on the mantissas; the result is in integer form (R215), no flag changes, and it is there
after 2 cycles. -/
def Obligations.IntegerLanes : Prop :=
  ∀ p ∈ ([(Instr.iadd, fun x y => x + y), (Instr.isub, fun x y => x - y), (Instr.iand, fun x y => x &&& y),
      (Instr.ior, fun x y => x ||| y), (Instr.ixor, fun x y => x ^^^ y),
      (Instr.ishl, fun x y => x <<< (y.toNat % 32)), (Instr.ishr, fun x y => x >>> (y.toNat % 32)),
      (Instr.isar, fun x y => x.sshiftRight (y.toNat % 32)), (Instr.imul, fun x y => x * y),
      (Instr.imin, fun x y => if x.toInt ≤ y.toInt then x else y), (Instr.imax, fun x y => if x.toInt ≤ y.toInt then y else x)] :
      List ((VReg → VReg → VReg → MReg → Instr) × (Mant → Mant → Mant))),
    ∀ (d a b : VReg) (k : MReg) (s : State), s.mach.issues (.mk1 [resV a, resV b, resM k] [resV d] 2) = true →
      Completes (p.1 d a b k) s fun t =>
        VectorWritten s.mach t d (fun n => writeInt (s.mach.mreg k n) (s.mach.vreg d n) fun j =>
          p.2 ((s.mach.vreg a n).m[j]?.getD 0) ((s.mach.vreg b n).m[j]?.getD 0)) ∧ OnlyVectors s.mach t
          ∧ NextWord s.mach t (.mk1 [resV a, resV b, resM k] [resV d] 2)

/-! ## Relud: masks, cross-lane, ply (R250 to R253) -/

/-- R250: compares with a vector or a BFP scalar, by the exact values, and the hysteresis compare, for which B = 31
traps with ILLEGAL. A ply outside the write mask keeps its bit, no flag changes, and the mask is there after 2 cycles. -/
def Obligations.CompareBits : Prop :=
  (∀ p ∈ ([(Instr.ceq, fun x y => x.eq y), (Instr.cne, fun x y => !x.eq y), (Instr.clt, fun x y => x.lt y),
      (Instr.cle, fun x y => x.le y), (Instr.cgt, fun x y => y.lt x), (Instr.cge, fun x y => y.le x)] :
      List ((MReg → VReg → VReg → MReg → Instr) × (Dy → Dy → Bool))),
    ∀ (d : MReg) (a b : VReg) (k : MReg) (s : State), s.mach.issues (.mk1 [resV a, resV b, resM k] [resM d] 2) = true →
      Completes (p.1 d a b k) s fun t => OnlyMasks s.mach t ∧ NextWord s.mach t (.mk1 [resV a, resV b, resM k] [resM d] 2) ∧
        ∀ (r : MReg) (n j : Nat), n < 128 → j < 8 → (t.mreg r n).getLsbD j =
          if r ≠ 0 ∧ r = d ∧ s.mach.laneOn n ∧ (s.mach.mreg k n).getLsbD j
          then p.2 ((s.mach.vreg a n).val j) ((s.mach.vreg b n).val j) else (s.mach.mreg r n).getLsbD j) ∧
  (∀ p ∈ ([(Instr.ceqs, fun x y => x.eq y), (Instr.cnes, fun x y => !x.eq y), (Instr.clts, fun x y => x.lt y),
      (Instr.cles, fun x y => x.le y), (Instr.cgts, fun x y => y.lt x), (Instr.cges, fun x y => y.le x)] :
      List ((MReg → VReg → SReg → MReg → Instr) × (Dy → Dy → Bool))),
    ∀ (d : MReg) (a : VReg) (b : SReg) (k : MReg) (s : State), s.mach.issues (.mk1 [resV a, resS b, resM k] [resM d] 2) = true →
      Completes (p.1 d a b k) s fun t => OnlyMasks s.mach t ∧ NextWord s.mach t (.mk1 [resV a, resS b, resM k] [resM d] 2) ∧
        ∀ (r : MReg) (n j : Nat), n < 128 → j < 8 → (t.mreg r n).getLsbD j =
          if r ≠ 0 ∧ r = d ∧ s.mach.laneOn n ∧ (s.mach.mreg k n).getLsbD j
          then p.2 ((s.mach.vreg a n).val j) (bfpVal (s.mach.sreg b)) else (s.mach.mreg r n).getLsbD j) ∧
  ∀ (d : MReg) (a b : VReg) (k : MReg) (s : State),
    s.mach.issues (.mk1 [resV a, resV b, resV (b + 1), resM k] [resM d] 2) = true →
    (b = 31 → s.mach.get F.SPN_TRAP_cause = 0 → Completes (.hys d a b k) s fun t => TrappedWith t 1) ∧
    (b ≠ 31 → Completes (.hys d a b k) s fun t => OnlyMasks s.mach t ∧
      NextWord s.mach t (.mk1 [resV a, resV b, resV (b + 1), resM k] [resM d] 2) ∧
      ∀ (r : MReg) (n j : Nat), n < 128 → j < 8 → (t.mreg r n).getLsbD j =
        if r ≠ 0 ∧ r = d ∧ s.mach.laneOn n ∧ (s.mach.mreg k n).getLsbD j then
          (if ((s.mach.vreg b n).val j).lt ((s.mach.vreg a n).val j) then true
          else if ((s.mach.vreg a n).val j).lt ((s.mach.vreg (b + 1) n).val j) then false
          else (s.mach.mreg d n).getLsbD j)
        else (s.mach.mreg r n).getLsbD j)

/-- R251: mask operations, the lane flags in a mask and cleared, the count of bits, and the select of ply, each
with its latency. -/
def Obligations.MaskOperations : Prop :=
  (∀ p ∈ ([(Instr.mand, fun x y => x &&& y), (Instr.mor, fun x y => x ||| y), (Instr.mxor, fun x y => x ^^^ y),
      (Instr.mandn, fun x y => x &&& ~~~y)] : List ((MReg → MReg → MReg → Instr) × (BitVec 8 → BitVec 8 → BitVec 8))),
    ∀ (d a b : MReg) (s : State), s.mach.issues (.mk1 [resM a, resM b] [resM d] 1) = true →
      Completes (p.1 d a b) s fun t => OnlyMasks s.mach t ∧ NextWord s.mach t (.mk1 [resM a, resM b] [resM d] 1) ∧
        MaskWritten s.mach t d (fun n => p.2 (s.mach.mreg a n) (s.mach.mreg b n))) ∧
  (∀ (d a : MReg) (s : State), s.mach.issues (.mk1 [resM a] [resM d] 1) = true →
    Completes (.mnot d a) s fun t => OnlyMasks s.mach t ∧ NextWord s.mach t (.mk1 [resM a] [resM d] 1) ∧
      MaskWritten s.mach t d (fun n => ~~~(s.mach.mreg a n))) ∧
  (∀ (d : MReg) (b : BitVec 8) (s : State), s.mach.issues (.mk1 [] [resM d] 1) = true →
    Completes (.mset d b) s (fun t => OnlyMasks s.mach t ∧ NextWord s.mach t (.mk1 [] [resM d] 1) ∧ MaskWritten s.mach t d (fun _ => b)) ∧
    Completes (.mflg d) s fun t => OnlyMasks s.mach t ∧ NextWord s.mach t (.mk1 [] [resM d] 1) ∧ MaskWritten s.mach t d (fun n =>
      BitVec.ofNat 8 (s.mach.spin.flags[n]?.getD LaneFlags.none).bits)) ∧
  (∀ (d : MReg) (a b : SReg) (s : State), s.mach.issues (.mk1 [resS a, resS b] [resM d] 1) = true →
    Completes (.mlane d a b) s fun t => OnlyMasks s.mach t ∧ NextWord s.mach t (.mk1 [resS a, resS b] [resM d] 1) ∧
      MaskWritten s.mach t d (fun n =>
      if (s.mach.sreg a).toNat ≤ n ∧ n < (s.mach.sreg b).toNat then 0xFF else 0)) ∧
  (∀ (d : SReg) (a : MReg) (s : State), s.mach.issues (.mk1 [resM a] [resS d] 3) = true →
    Completes (.mpop d a) s fun t => OnlyScalars s.mach t ∧ NextWord s.mach t (.mk1 [resM a] [resS d] 3) ∧ ScalarWritten s.mach t d
      (BitVec.ofNat 32 ((List.range 128).map fun n => ((List.range 8).filter (s.mach.mreg a n).getLsbD).length).sum)) ∧
  (∀ (a : MReg) (s : State), s.mach.issues (.mk1 [resM a] [] 1) = true →
    Completes (.clrflg a) s fun t =>
      NextWord s.mach t (.mk1 [resM a] [] 1) ∧
      (∀ n : Fin 128, t.spin.flags[n] = if s.mach.mreg a n = 0 then s.mach.spin.flags[n] else LaneFlags.none) ∧
      t = { s.mach.progress t with spin := { (s.mach.progress t).spin with flags := t.spin.flags } }) ∧
  ∀ (d a b : VReg) (k : MReg) (s : State), s.mach.issues (.mk1 [resV a, resV b, resM k] [resV d] 2) = true →
    Completes (.vsel d a b k) s fun t => OnlyVectors s.mach t ∧ NextWord s.mach t (.mk1 [resV a, resV b, resM k] [resV d] 2) ∧
      VectorWritten s.mach t d (fun n => (combine (s.mach.mreg k n) (s.mach.vreg a n) (s.mach.vreg b n)).1)

/-- R252: the lanes' ranks and order, sums, extremes with their lanes, and prefix sums over the lanes whose mask bit of the key
ply is 1; and the moves of whole lanes; flags and latencies as its table
gives them. -/
def Obligations.CrossLanes : Prop :=
  (∀ p ∈ ([(Instr.rank, 12, fun k ts n => (plyInt k (rankOf ts n), LaneFlags.none)),
      (Instr.order, 12, fun k ts n => (plyInt k (orderOf ts n), LaneFlags.none)),
      (Instr.redsum, 8, fun k ts _ => plyLane k (Dy.sum (ts.map (·.2)))),
      (Instr.redmax, 6, fun k ts _ => ((bestLane k (fun x y => y.lt x) ts).1, LaneFlags.none)),
      (Instr.redmin, 6, fun k ts _ => ((bestLane k (fun x y => x.lt y) ts).1, LaneFlags.none)),
      (Instr.argmax, 6, fun k ts _ => ((bestIndex k (fun x y => y.lt x) ts).1, LaneFlags.none)),
      (Instr.argmin, 6, fun k ts _ => ((bestIndex k (fun x y => x.lt y) ts).1, LaneFlags.none)),
      (Instr.pfx, 10, fun k ts n => plyLane k (Dy.sum ((ts.filter fun t => t.1 ≤ n).map (·.2))))] :
      List ((VReg → VReg → PlyIx → MReg → Instr) × Nat × (Nat → List (Nat × Dy) → Nat → Lane × LaneFlags))),
    ∀ (d a : VReg) (j : PlyIx) (k : MReg) (s : State), s.mach.issues (.mk1 [resV a, resM k] [resV d] p.2.1) = true →
      LanesArith (p.1 d a j k) s d (.mk1 [resV a, resM k] [resV d] p.2.1) (p.2.2 j.toNat (((List.range 128).filter fun n =>
        (s.mach.mreg k n).getLsbD j.toNat).map fun n => (n, (s.mach.vreg a n).val j.toNat)))) ∧
  (∀ (d a : VReg) (b : SReg) (s : State), s.mach.issues (.mk1 [resV a, resS b] [resV d] 3) = true →
    Completes (.bcast d a b) s (fun t => OnlyVectors s.mach t ∧
      NextWord s.mach t (.mk1 [resV a, resS b] [resV d] 3) ∧ VectorWritten s.mach t d (fun _ =>
      if (s.mach.sreg b).toNat < 128 then s.mach.vreg a (s.mach.sreg b).toNat else Lane.zero)) ∧
    Completes (.nbr d a b) s fun t => OnlyVectors s.mach t ∧
      NextWord s.mach t (.mk1 [resV a, resS b] [resV d] 3) ∧ VectorWritten s.mach t d (fun n =>
      if 0 ≤ (n : Int) + (s.mach.sreg b).toInt ∧ (n : Int) + (s.mach.sreg b).toInt < 128
      then s.mach.vreg a ((n : Int) + (s.mach.sreg b).toInt).toNat else Lane.zero)) ∧
  ∀ (d a b : VReg) (j : PlyIx) (s : State), s.mach.issues (.mk1 [resV a, resV b] [resV d] 5) = true →
    Completes (.gather d a b j) s fun t => OnlyVectors s.mach t ∧
      NextWord s.mach t (.mk1 [resV a, resV b] [resV d] 5) ∧ VectorWritten s.mach t d (fun n =>
      if 0 ≤ ((s.mach.vreg b n).val j.toNat).toInt32 ∧ ((s.mach.vreg b n).val j.toNat).toInt32 < 128
      then s.mach.vreg a ((s.mach.vreg b n).val j.toNat).toInt32.toNat else Lane.zero)

/-- R253: sums over ply and dot products, each rounded once, moves and splats of ply, and single ply to and from scalars;
flags and latencies as its table gives them. -/
def Obligations.PlyOperations : Prop :=
  (∀ (d a : VReg) (j : PlyIx) (k : MReg) (s : State), s.mach.issues (.mk1 [resV a, resM k] [resV d] 4) = true →
    LanesArith (.psum d a j k) s d (.mk1 [resV a, resM k] [resV d] 4) fun n =>
      plyLane j.toNat (Dy.sum (((List.range 8).filter (s.mach.mreg k n).getLsbD).map (s.mach.vreg a n).val))) ∧
  (∀ (d a b : VReg) (j : PlyIx) (k : MReg) (s : State), s.mach.issues (.mk1 [resV a, resV b, resM k] [resV d] 5) = true →
    LanesArith (.pdot d a b j k) s d (.mk1 [resV a, resV b, resM k] [resV d] 5) fun n =>
      plyLane j.toNat (Dy.sum (((List.range 8).filter (s.mach.mreg k n).getLsbD).map fun i =>
        ((s.mach.vreg a n).val i).mul ((s.mach.vreg b n).val i)))) ∧
  (∀ (d a : VReg) (j : PlyIx) (s : State), s.mach.issues (.mk1 [resV a] [resV d] 2) = true →
    Completes (.pbc d a j) s fun t => OnlyVectors s.mach t ∧
      NextWord s.mach t (.mk1 [resV a] [resV d] 2) ∧ VectorWritten s.mach t d (fun n =>
      ⟨Vector.replicate 8 ((s.mach.vreg a n).m[j.toNat]?.getD 0), (s.mach.vreg a n).e⟩)) ∧
  (∀ (d a : VReg) (j i : PlyIx) (s : State), s.mach.issues (.mk1 [resV a, resV d] [resV d] 2) = true →
    LanesArith (.pmov d a j i) s d (.mk1 [resV a, resV d] [resV d] 2) fun n =>
      combine (1 <<< j.toNat) (plyMoved (s.mach.vreg a n) j.toNat i.toNat) (s.mach.vreg d n)) ∧
  (∀ (d : VReg) (a : SReg) (j : PlyIx) (s : State), s.mach.issues (.mk1 [resS a] [resV d] 2) = true →
    Completes (.splf d a j) s (fun t => OnlyVectors s.mach t ∧
      NextWord s.mach t (.mk1 [resS a] [resV d] 2) ∧ VectorWritten s.mach t d (fun _ =>
      (plyLane j.toNat (bfpVal (s.mach.sreg a))).1)) ∧
    Completes (.spli d a j) s fun t => OnlyVectors s.mach t ∧
      NextWord s.mach t (.mk1 [resS a] [resV d] 2) ∧ VectorWritten s.mach t d (fun _ =>
      plyInt j.toNat ((s.mach.sreg a).toNat % 2 ^ 24))) ∧
  (∀ (d : VReg) (a b : SReg) (j : PlyIx) (s : State), s.mach.issues (.mk1 [resS a, resS b, resV d] [resV d] 2) = true →
    LanesArith (.vins d a b j) s d (.mk1 [resS a, resS b, resV d] [resV d] 2) fun n =>
      if n = (s.mach.sreg b).toNat then combine (1 <<< j.toNat) (insLane (s.mach.sreg a)) (s.mach.vreg d n)
      else (s.mach.vreg d n, LaneFlags.none)) ∧
  ∀ (d : SReg) (a : VReg) (b : SReg) (j : PlyIx) (s : State), s.mach.issues (.mk1 [resV a, resS b] [resS d] 3) = true →
    Completes (.vext d a b j) s fun t => OnlyScalars s.mach t ∧
      NextWord s.mach t (.mk1 [resV a, resS b] [resS d] 3) ∧ ScalarWritten s.mach t d
      (if (s.mach.sreg b).toNat < 128
        then bfpOf ((s.mach.vreg a (s.mach.sreg b).toNat).m[j.toNat]?.getD 0) (s.mach.vreg a (s.mach.sreg b).toNat).e
        else bfpZero)

/-! ## Relud: matrices (R254) -/

/-- R254: matrix buffers loaded, stored, written by rows, read by rows, multiplied and updated. -/
def Obligations.MatrixOperations : Prop :=
  (∀ (x : XReg) (a : SReg) (s : State), s.mach.issues (.mk1 [resS a] [resX x] 8) = true → s.mach.memi.clean = true →
    vectorAddr (s.mach.sreg a) + 256 ≤ 0x2000 →
    Completes (.mxld x a) s fun t => OnlyMatrices s.mach t ∧ MatrixWritten s.mach t x (fun n =>
      Vector.ofFn fun i => loadLane 0xFF
        (readMemWords s.mach.mem (laneAddr n (vectorAddr (s.mach.sreg a) + 32 * i.val)) 8) Lane.zero)) ∧
  (∀ (x : XReg) (a : SReg) (s : State), s.mach.issues (.mk1 [resS a, resX x] [] 1) = true → s.mach.memi.clean = true →
    s.mach.pair.resync = none → vectorAddr (s.mach.sreg a) + 256 ≤ 0x2000 →
    Completes (.mxst x a) s fun t =>
      t = { s.mach.progress t with mem := t.mem } ∧
      (∀ n i j, n < 128 → i < 8 → j < 8 → s.mach.laneOn n = true →
        readMemWord t.mem (laneAddr n (vectorAddr (s.mach.sreg a)) + 32 * i + 4 * j)
          = ((s.mach.mxreg x n)[i]?.getD Lane.zero).words.getD j 0) ∧
      ∀ b, (∀ n, n < 128 → s.mach.laneOn n = true → b < laneAddr n (vectorAddr (s.mach.sreg a))
          ∨ laneAddr n (vectorAddr (s.mach.sreg a)) + 256 ≤ b) → readByte t.mem b = readByte s.mach.mem b) ∧
  (∀ (x : XReg) (a : VReg) (i : PlyIx) (s : State), s.mach.issues (.mk1 [resV a, resX x] [resX x] 2) = true →
    Completes (.mxrow x a i) s fun t => OnlyMatrices s.mach t ∧
      MatrixWritten s.mach t x (fun n => (s.mach.mxreg x n).set i.toNat (s.mach.vreg a n))) ∧
  (∀ (d : VReg) (x : XReg) (i : PlyIx) (s : State), s.mach.issues (.mk1 [resX x] [resV d] 2) = true →
    Completes (.mxget d x i) s fun t => OnlyVectors s.mach t ∧
      VectorWritten s.mach t d (fun n => (s.mach.mxreg x n)[i.toNat]?.getD Lane.zero)) ∧
  (∀ p ∈ ([(Instr.mxmul, fun x b _ i => rowDot x false b i), (Instr.mxmac, fun x b z i => z.add (rowDot x false b i)),
      (Instr.mxmult, fun x b _ i => rowDot x true b i)] :
      List ((VReg → XReg → VReg → MReg → Instr) × (Vector Lane 8 → Lane → Dy → Nat → Dy))),
    ∀ (d : VReg) (x : XReg) (b : VReg) (k : MReg) (s : State),
      s.mach.issues (.mk1 [resX x, resV b, resM k] [resV d] 10) = true →
      LanesArith (p.1 d x b k) s d (.mk1 [resX x, resV b, resM k] [resV d] 10) fun n =>
        writeArith (s.mach.mreg k n) (s.mach.vreg d n) fun i =>
          (p.2 (s.mach.mxreg x n) (s.mach.vreg b n) ((s.mach.vreg d n).val i) i, LaneFlags.none)) ∧
  ∀ (x : XReg) (a b : VReg) (k : MReg) (s : State),
    s.mach.issues (.mk1 [resV a, resV b, resM k, resX x] [resX x] 10) = true →
    RowsArith (.mxr1 x a b k) s x (.mk1 [resV a, resV b, resM k, resX x] [resX x] 10) fun n => Vector.ofFn fun i =>
      if (s.mach.mreg k n).getLsbD i.val then
        normalise ((List.range 8).map fun j => ((rowOf (s.mach.mxreg x n) i.val).val j).add
          (((s.mach.vreg a n).val i.val).mul ((s.mach.vreg b n).val j)))
      else (rowOf (s.mach.mxreg x n) i.val, LaneFlags.none)

/-! ## Relud: the string instructions (R255 to R259) -/

/-- R255, R256, R259: in the fast section before its EMIT, EMIT hands over the vector with the header staged by TRIM, or an
invalid one, TRIM stages a header, and SKREC sets the selected channels of the control record. -/
def Obligations.EmitAndRecord : Prop :=
  (∀ (a : VReg) (s : State), s.mach.issues (.mk1 [resV a] [] 2) = true → s.mach.inFast = true →
    s.mach.spin.emitted = false →
    Completes (.emit a) s fun t =>
      t = { s.mach.progress t with fly := t.fly, spin := { (s.mach.progress t).spin with emitted := true } } ∧
      ∃ e, t.fly = { s.mach.fly with emit := some e } ∧
      (∀ n : Fin 128, e.entries[n] = BitVec.ofInt 16 ((s.mach.vreg a n).val 0).toInt32 &&& 0xFFC0) ∧
      (s.mach.spin.trim = none → e.bandValid = false) ∧
      ∀ h, s.mach.spin.trim = some h → e.bandValid = h.valid ∧ e.bandLsb = h.lsb ∧ e.iLo = h.lo ∧ e.iMid = h.mid
        ∧ e.iHi = h.hi) ∧
  (∀ (lo mid hi : SReg) (valid lsb : Bool) (s : State), s.mach.issues (.mk1 [resS lo, resS mid, resS hi] [] 1) = true →
    s.mach.inFast = true → s.mach.spin.emitted = false →
    Completes (.trim lo mid hi valid lsb) s fun t =>
      t = { s.mach.progress t with spin := { (s.mach.progress t).spin with trim := t.spin.trim } } ∧ t.spin.trim = some ⟨valid, lsb,
      (s.mach.sreg lo).setWidth 16, (s.mach.sreg mid).setWidth 16, (s.mach.sreg hi).setWidth 16⟩) ∧
  ∀ (a : VReg) (k : MReg) (s : State), s.mach.issues (.mk1 [resV a, resM k] [] 2) = true → s.mach.inFast = true →
    s.mach.spin.emitted = false →
    Completes (.skrec a k) s fun t =>
      t = { s.mach.progress t with spin := { (s.mach.progress t).spin with ctlRec := t.spin.ctlRec } } ∧ ∀ c : Fin 16, t.spin.ctlRec[c] =
      if (s.mach.mreg k c).getLsbD 0 then
        some (if c.val = 15 then ((s.mach.vreg a c).m[0]).signExtend 32
          else bfpOf (s.mach.vreg a c).m[0] (s.mach.vreg a c).e)
      else s.mach.spin.ctlRec[c]

/-- R257, R258, R259: PROF writes each generator's rows, INJ gives the signal and its activity in ply 0 and 1 of every lane (a signal, an order or a number
of tones that does not exist sets inv; the value for a period of 0 is open, log entry 37), and
the words of the free skein area are written and, where determinism is not enforced, read. -/
def Obligations.SignalsAndSkein : Prop :=
  (∀ (x : XReg) (k : MReg) (s : State), s.mach.issues (.mk1 [resX x, resM k] [resX x] 48) = true →
    RowsArith (.prof x k) s x (.mk1 [resX x, resM k] [resX x] 48) fun n =>
      profRows (s.mach.mxreg x n) (s.mach.mreg k n) (s.mach.get F.FLY_CYCLE_period)) ∧
  (∀ (d : VReg) (a b : SReg) (s : State), s.mach.issues (.mk1 [resS a, resS b] [resV d] 24) = true →
    s.mach.memi.clean = true → scalarAddr (s.mach.sreg a) + 28 ≤ 0x10000 →
    LanesArith (.inj d a b) s d (.mk1 [resS a, resS b] [resV d] 24) fun _ =>
      let w := fun k => s.mach.bankWord (scalarAddr (s.mach.sreg a) + 4 * k)
      let i := (s.mach.sreg b - w 1).toNat
      let v := signalVal (fieldOf (w 0) 0 4) (fieldOf (w 0) 24 8) (w 4).toNat (bfpVal (w 3)) (bfpVal (w 5)) (bfpVal (w 6))
        (bfpVal (Config.injOpen ((List.range 7).map w) i)) i (w 2).toNat (s.mach.get F.FLY_CYCLE_period)
      let r := normalise [if i < (w 2).toNat then v.getD .zero else .zero, Dy.ofInt (if i < (w 2).toNat then 1 else 0), .zero,
        .zero, .zero, .zero, .zero, .zero]
      (r.1, if v = none then r.2.or LaneFlags.invOnly else r.2)) ∧
  (∀ (d : VReg) (a b : SReg) (s : State), s.mach.issues (.mk1 [resS a, resS b] [resV d] 24) = true →
    s.mach.memi.clean = true → scalarAddr (s.mach.sreg a) + 108 ≤ 0x10000 →
    LanesArith (.injMultisine d a b) s d (.mk1 [resS a, resS b] [resV d] 24) fun _ =>
      let w := fun k => s.mach.bankWord (scalarAddr (s.mach.sreg a) + 4 * k)
      let tones := fieldOf (w 0) 0 4
      let on := decide ((s.mach.sreg b - w 1).toNat < (w 2).toNat)
      let v := Dy.sum ((List.range tones).map fun q => (bfpVal (w (4 + 3 * q))).mul (phaseSin
        (((bfpVal (w (3 + 3 * q))).mul (Dy.ofInt ((s.mach.sreg b - w 1).toNat * s.mach.get F.FLY_CYCLE_period))).add
          ((bfpVal (w (5 + 3 * q))).mul (Dy.ofInt 1000000))) 1000000))
      let good := decide (1 ≤ tones ∧ tones ≤ 8)
      let r := normalise [if good && on then v else .zero, Dy.ofInt (if on then 1 else 0), .zero, .zero, .zero, .zero, .zero, .zero]
      (r.1, if good then r.2 else r.2.or LaneFlags.invOnly)) ∧
  (∀ (a b : SReg) (s : State), s.mach.issues (.mk1 [resS a, resS b] [] 1) = true →
    s.mach.poisoned (freeArea + (s.mach.sreg a).toNat % 0x40000 / 4 * 4) = false →
    s.mach.upsetsIn (freeArea + (s.mach.sreg a).toNat % 0x40000 / 4 * 4) 4 = [] →
    Completes (.skw a b) s fun t => t = { s.mach.progress t with mem := t.mem } ∧
      readMemWord t.mem (freeArea + (s.mach.sreg a).toNat % 0x40000 / 4 * 4) = s.mach.sreg b ∧
      ∀ c, (c < freeArea + (s.mach.sreg a).toNat % 0x40000 / 4 * 4
          ∨ freeArea + (s.mach.sreg a).toNat % 0x40000 / 4 * 4 + 4 ≤ c) →
        readByte t.mem c = readByte s.mach.mem c) ∧
  ∀ (d a : SReg) (s : State), s.mach.issues (.mk1 [resS a] [resS d] 6) = true →
    s.mach.flag F.SPN_CTRL_det_enforce = false →
    s.mach.poisoned (freeArea + (s.mach.sreg a).toNat % 0x40000 / 4 * 4) = false →
    s.mach.upsetsIn (freeArea + (s.mach.sreg a).toNat % 0x40000 / 4 * 4) 4 = [] →
    Completes (.skrd d a) s fun t => OnlyScalars s.mach t ∧
      ScalarWritten s.mach t d (readMemWord s.mach.mem (freeArea + (s.mach.sreg a).toNat % 0x40000 / 4 * 4))

/-! ## Relud: traps (R217, R218, R353) -/

/-- R217, R218, R353: instructions that trap leave the array TRAPPED with no section in progress, the first trap's cause and
place recorded, and the claim released; nothing is written to a Relud register. -/
def Obligations.TrapEntry : Prop :=
  ∀ (s : State) (c : Instr) (o : OpInfo) (code : Nat), s.mach.issues o = true → s.mach.get F.SPN_TRAP_cause = 0 →
    s.mach.memi.upsets = [] →
    ((∃ d a k, c = .shi d a .illegal k ∧ o = .mk1 [resS a] [resS d] 1 ∧ code = 1) ∨
     (∃ d, c = .rdtb d ∧ o = .mk1 [] [resS d] 4 ∧ s.mach.flag F.SPN_CTRL_det_enforce = true ∧ code = 2) ∨
     (∃ d a i, c = .lds d a i ∧ o = ⟨[resS a], [resS d], 3, immSize i, 0, 0⟩
        ∧ 0x100000 ≤ scalarAddr (s.mach.sreg a + immSigned i) ∧ code = 5) ∨
     (∃ d a i, c = .ldps d a i ∧ o = ⟨[resS a], [resS d], 3, immSize i, 0, 0⟩
        ∧ 0x10000 ≤ scalarAddr (s.mach.sreg a + immSigned i) ∧ code = 6) ∨
     (∃ a n, c = .loop a n ∧ o = .mk1 [resS a] [] 1 ∧ n ≠ 0 ∧ s.mach.sreg a ≠ 0 ∧ s.mach.spin.loops.length = 4 ∧ code = 9) ∨
     (∃ d a b k, c = .hys d a b k ∧ o = .mk1 [resV a, resV b, resV (b + 1), resM k] [resM d] 2 ∧ b = 31 ∧ code = 1) ∨
     (∃ a, c = .emit a ∧ o = .mk1 [resV a] [] 2 ∧ s.mach.spin.emitted = true ∧ code = 1)) →
    Completes c s fun t =>
      t.get F.SPN_STAT_state = 3 ∧ t.get F.SPN_STAT_section = 0 ∧ t.get F.SPN_TRAP_cause = code
        ∧ t.get F.SPN_TRAP_lane = 0xFF ∧ t.get F.SPN_TRAP_pc = s.mach.spin.pc % 2 ^ 16 ∧ t.rd Reg.SPN_TRAP_CYC = s.mach.cycle
        ∧ t.get F.SPN_IRQ_STAT_trap = 1 ∧ t.get F.XL_STAT_claim_out = 0
        ∧ t.spin.s = s.mach.spin.s ∧ t.spin.v = s.mach.spin.v ∧ t.spin.msk = s.mach.spin.msk ∧ t.mem = s.mach.mem

/-- Model's choice (log entry 3, DESIGN CHOICE): a Relud instruction outside a section in progress has no effect; none
of the spec's programs can issue one there. -/
def Obligations.NoSectionNoEffect : Prop :=
  ∀ (s : State) (d a b : SReg) (v w x : VReg) (k : MReg) (q : XReg) (i : Imm), s.mach.inSection = false →
    ∀ c ∈ [Instr.add d a b, .addi d a i, .beq d a i, .jal d i, .secend, .lds d a i, .sts d a i, .vld v a 0 k, .vst v a 0 k,
      .frls d 0 false, .vadd v w x k, .vadds v w a k, .iadd v w x k, .ceq k v w k, .mand k k k, .redsum v w 0 k, .psum v w 0 k,
      .mxld q a, .mxmul v q w k, .emit v, .trim d a b true true, .prof q k, .inj v a b, .skrec v k, .skw a b],
      exec c s = .next s

/-! ## The block as a whole -/

/-- The step takes the command at the front of the queue and runs it with the queue's rest. -/
def Obligations.StepRunsFront : Prop :=
  ∀ (c : Instr) (rest : List Instr) (s : State), s.pending = c :: rest → step s = exec c { s with pending := rest }

/-- Model's choice (log entry 2, DESIGN CHOICE): every command answers a next state and leaves the queue. -/
def Obligations.EveryCommandAnswers : Prop := ∀ (c : Instr) (s : State), Completes c s fun _ => True

/-- Every step from a state whose stores are in canonical form, by any command or by a tick, keeps them in canonical form, so
that equal memories and equal register contents are equal data. -/
def Obligations.StoresInvariant : Prop := ∀ s t : State, s.Inv → step s = .next t → t.Inv

/-- R7, R34, R37, R463: after reset every register outside the layouts of R380 and R415 holds its table's reset word, every domain
is off, the run state is OFF, the role SOLO and the supply NORMAL; the stores are in canonical form, no memory is listed and no
command waits. The instant of
reset, and the words of fields whose Reset column is no number, are the model's choice (log entries 6, 7 and 11). -/
def Obligations.InvAtReset : Prop :=
  State.reset.Inv ∧ State.reset.mach.mem = [] ∧ State.reset.pending = [] ∧ State.reset.mach.runState = .off
    ∧ State.reset.mach.role = .solo ∧ State.reset.mach.supply = .normal ∧ (∀ d, State.reset.mach.domOn d = false) ∧
    ∀ (a : Nat) (r : RegRow), regRow? a = some r → ¬(0x30200 ≤ a ∧ a < 0x30280) → ¬(0x50000 ≤ a ∧ a < 0x50400) →
      State.reset.mach.rd a = r.reset

/-! ## Supply and domains (R20 to R24, R37, R459 to R472) -/

/-- R43, R463, R470, R471: the supply states. A fall below the warning threshold is counted and holds NOR writes, its end records
the episode's duration and lowest voltage; a warning of 2 s stops the string or fails its start; entry into HOLDUP stops a started
or running string; 5 ms later the string is opened, 12 ms later PD_HOST, PD_SVC and PD_XLINK are off, until the supply is NORMAL
again; an empty store takes AON's supply. That a command of an interval's end lets time pass up to it is the model's choice (log
entry 12, DESIGN CHOICE). -/
def Obligations.SupplyStates : Prop :=
  (∀ (v : BitVec 16) (s : State), s.mach.supply = .normal →
    (v.toNat < 1920 → Completes (.supplyWarningFall v) s fun t =>
      t = { s.mach with supply := .brownoutWarning, regs := t.regs, freeTick := t.freeTick
                        power := { s.mach.power with storeNs := t.power.storeNs, marks := t.power.marks } }
        ∧ RegsKept s.mach t [Reg.PWR_SUP_STAT, Reg.PWR_CNT_BROWNOUT]
        ∧ t.get F.PWR_SUP_STAT_supply_state = 1 ∧ t.get F.PWR_SUP_STAT_aux_v = v.toNat ∧ t.get F.PWR_SUP_STAT_nor_hold = 1
        ∧ t.rd Reg.PWR_CNT_BROWNOUT = s.mach.counted Reg.PWR_CNT_BROWNOUT) ∧
    (1920 ≤ v.toNat → Completes (.supplyWarningFall v) s fun t => t = s.mach)) ∧
  (∀ (v lo dur : BitVec 16) (t0 : Nat) (s : State), s.mach.supply = .brownoutWarning → s.mach.markOf .supply = some t0 →
    1930 ≤ v.toNat →
    Completes (.supplyWarningRise v lo dur) s fun t =>
      t.supply = .normal ∧ t.runState = s.mach.runState ∧ t.mem = s.mach.mem
        ∧ t.get F.PWR_SUP_STAT_supply_state = 0 ∧ t.get F.PWR_SUP_STAT_nor_hold = 0
        ∧ t0 + dur.toNat * 1000000 ≤ t.upNs ∧ t.get F.PWR_SUP_BO_bo_dur = min 65535 ((t.upNs - t0) / 1000000)
        ∧ t.get F.PWR_SUP_BO_bo_min = min lo.toNat (s.mach.get F.PWR_SUP_STAT_aux_v)
        ∧ t.get F.PWR_IRQ_STAT_brownout_end = 1) ∧
  (∀ (v : BitVec 16) (s : State), s.mach.supply ≠ .holdup → v.toNat < 1670 →
    Completes (.supplyResetFall v) s fun t =>
      t.supply = .holdup ∧ t.get F.PWR_SUP_STAT_supply_state = 2 ∧ t.get F.PWR_SUP_STAT_charging = 0
        ∧ t.get F.PWR_IRQ_STAT_holdup = 1 ∧ t.power.pwrCycleReq = false ∧ t.mem = s.mach.mem
        ∧ t.rd Reg.PWR_CNT_HOLDUP = s.mach.counted Reg.PWR_CNT_HOLDUP
        ∧ (s.mach.runState.busy = true → t.runState = .stopping ∧ t.get F.PWR_RUN_STAT_last_cause = Cause.holdup)
        ∧ (s.mach.runState.busy = false → t.runState = s.mach.runState)) ∧
  (∀ (t0 : Nat) (s : State), s.mach.supply = .brownoutWarning → s.mach.markOf .supply = some t0 →
    (s.mach.runState = .precharge ∨ s.mach.runState = .run →
      Completes .brownoutTimeout s fun t =>
        t.runState = .stopping ∧ t.get F.PWR_RUN_STAT_last_cause = Cause.brownout ∧ t0 + 2000000000 ≤ t.upNs
          ∧ t.power.stopNs = some t.upNs ∧ t.mem = s.mach.mem) ∧
    (s.mach.runState = .starting →
      Completes .brownoutTimeout s fun t =>
        t.runState = .off ∧ t0 + 2000000000 ≤ t.upNs ∧ t.get F.PWR_RUN_STAT_fail = 0x0013
          ∧ t.get F.PWR_RUN_STAT_last_cause = Cause.startFail)) ∧
  (∀ (t0 : Nat) (s : State), s.mach.supply = .holdup → s.mach.runState = .stopping → s.mach.power.distaffAbsent = false →
    s.mach.markOf .supply = some t0 →
    Completes .holdupOpenTimeout s fun t =>
      t.runState = .safeHold ∧ t.power.openReq = true ∧ t.power.blockHold = true ∧ t0 + 5000000 ≤ t.upNs
        ∧ ∀ k, k < 4 → t.rd (Reg.FLY_BLOCK k) = 0xFFFFFFFF) ∧
  (∀ (t0 : Nat) (s : State), s.mach.supply = .holdup → s.mach.power.shed = [] → s.mach.markOf .supply = some t0 →
    Completes .holdupShed s fun t =>
      t0 + 12000000 ≤ t.upNs
        ∧ t.power.shed = ([Domain.host, .svc, .xlink].filter fun d =>
            s.mach.get (pdField d) == 2 || s.mach.get (pdField d) == 1)
        ∧ ∀ d ∈ [Domain.host, .svc, .xlink], t.get (pdField d) = if s.mach.get (pdField d) = 3 then 3 else 0) ∧
  (∀ (v lo dur : BitVec 16) (s : State), s.mach.supply = .holdup → 1930 ≤ v.toNat → s.mach.power.safeMode = false →
    Completes (.supplyWarningRise v lo dur) s fun t =>
      t.supply = .normal ∧ t.power.shed = [] ∧ t.runState = s.mach.runState ∧ t.get F.PWR_SUP_STAT_supply_state = 0
        ∧ t.get F.PWR_SUP_STAT_nor_hold = 0
        ∧ ∀ d ∈ s.mach.power.shed, t.get (pdField d) =
            if s.mach.get (pdField d) = 0 then 1 else s.mach.get (pdField d)) ∧
  ∀ s : State, s.mach.supply = .holdup →
    Completes .holdupStoreEmpty s fun t =>
      t.power.powered = false ∧ t.mem = [] ∧ t.supply = .normal ∧ t.runState = .off ∧ t.lifeCycle = s.mach.lifeCycle

/-- R20 to R24, R37, R463, R472: a permitted write of PWR_PD_CTRL switches domains off and starts to zeroise those requested on;
zeroising ends in ON; a clock fault shows in CI_STAT and CI_FAULT and, on a cycle island of an energised run state, latches the
fault; a good clock withdraws the Flyer's demand with the last of them; a rail fault holds its domain off. -/
def Obligations.DomainsAndClocks : Prop :=
  (∀ (k : Nat) (on : BitVec 10) (s : State), s.mach.reachable Reg.PWR_PD_CTRL = true →
    (s.mach.dropped on).all (s.mach.mayDrop k) = true → s.mach.power.safeMode = false →
    Completes (.pwrPdCtrlWrite k on) s fun t =>
      t.get F.PWR_PD_CTRL_pd_on = on.toNat ∧
      ∀ d : Domain, t.get (pdField d) =
        if on.getLsbD (domainIx d) then (if s.mach.get (pdField d) = 2 then 2 else 1)
        else if s.mach.bit Reg.PWR_PD_CTRL (domainIx d) = true ∧ s.mach.get (pdField d) ≠ 3 then 0
        else s.mach.get (pdField d)) ∧
  (∀ (k : Nat) (on : BitVec 10) (s : State), s.mach.reachable Reg.PWR_PD_CTRL = true →
    (s.mach.dropped on).all (s.mach.mayDrop k) = false →
    Completes (.pwrPdCtrlWrite k on) s fun t => t = { s.mach with answer := (Err.refusedState, 0, []) }) ∧
  (∀ (d : Domain) (s : State), s.mach.get (pdField d) = 1 →
    Completes (.domainZeroiseDone d) s fun t =>
      t.get (pdField d) = 2 ∧ ∀ e : Domain, e ≠ d → t.get (pdField e) = s.mach.get (pdField e)) ∧
  (∀ (i : Island) (s : State),
    Completes (.clockFault i) s fun t =>
      t.clkOk i = false ∧ t.bit Reg.PWR_CI_FAULT (islandIx i) = true ∧
      (cycleIsland i = true → s.mach.runState = .precharge ∨ s.mach.runState = .run ∨ s.mach.runState = .stopping →
        t.runState = .faultLatched ∧ t.get F.SAF_FAULT_clock = 1 ∧ SafetyCause.clock ∈ t.safety.latched
          ∧ t.get F.PWR_RUN_STAT_last_cause = Cause.safetyLatched)) ∧
  (∀ (i : Island) (s : State),
    Completes (.clockGoodAgain i) s fun t =>
      t.clkOk i = true ∧ (∀ j, j ≠ i → t.clkOk j = s.mach.clkOk j) ∧ t.runState = s.mach.runState ∧ t.mem = s.mach.mem
        ∧ ((∀ j, cycleIsland j = true → j ≠ i → s.mach.clkOk j = true) → t.get F.FLY_STOP_src_clock = 0)
        ∧ (i = .mgmt → t.power.restartWait = false)) ∧
  ∀ (d : Domain) (s : State),
    Completes (.railFault d) s fun t =>
      t.get (pdField d) = 3 ∧ t.get F.PWR_RESET_CAUSE_type = ResetType.domain ∧
      (s.mach.energised = true → d ∈ [Domain.spin0, .spin1, .frame, .chain, .sense] →
        t.power.openReq = true ∧ t.power.guard = some .hold)

/-- R43, R48, R459, R472, R496: power returns to AON above the rising threshold, or a module reset that waits takes effect, and the
loader boots. With an image that passes its checks every domain whose rail holds is on, the image's version shows, BOOT_DONE and the
reset's type are recorded and the run state is OFF, or FAULT_LATCHED after a module reset while a cause is latched; without one the
loader ends in safe mode. A voltage at or below the threshold powers nothing. -/
def Obligations.BootAndReset : Prop :=
  (∀ (slot : BitVec 6) (v : BitVec 16) (img : Option Image) (i : Image) (s : State), s.mach.power.powered = false →
    1930 ≤ v.toNat → (img.orElse fun _ => s.mach.mgmt.running) = some i → s.mach.boots i →
    Completes (.aonPowerUp slot v img) s fun t =>
      t.power.powered = true ∧ t.power.bootDone = true ∧ t.power.safeMode = false ∧ t.power.distaffAbsent = false
        ∧ t.get F.GLB_SLOT_slot = slot.toNat ∧ t.rd Reg.PWR_CI_STAT = 0xFFF ∧ t.get F.PWR_SUP_STAT_aux_v = v.toNat
        ∧ 90 ≤ t.get F.PWR_SUP_STAT_store_level ∧ t.get F.PWR_RESET_CAUSE_type = ResetType.powerOn
        ∧ t.rd Reg.GLB_FW_VER = i.version ∧ t.mgmt.running = some i ∧ (∀ d : Domain, t.domOn d = true)
        ∧ t.rd Reg.MGT_PCNT_BOOT = s.mach.counted Reg.MGT_PCNT_BOOT ∧ t.get F.PWR_IRQ_STAT_boot_done = 1
        ∧ t.lifeCycle = s.mach.lifeCycle ∧ t.role = .solo
        ∧ (i.safety.length = 16 → paramInRange i.safety = true → t.runState = .off ∧ t.get F.SAF_STAT_param_ok = 1)
        ∧ ∃ e rest, t.mgmt.log = e :: rest ∧ e.cls = 0x0A ∧ e.code = 1) ∧
  (∀ (slot : BitVec 6) (v : BitVec 16) (img : Option Image) (s : State), s.mach.power.powered = false → 1930 ≤ v.toNat →
    s.mach.bootless (img.orElse fun _ => s.mach.mgmt.running) →
    Completes (.aonPowerUp slot v img) s fun t =>
      t.power.powered = true ∧ SafeModeReached t ∧ t.runState = .off ∧ t.get F.GLB_SLOT_slot = slot.toNat
        ∧ ∀ d : Domain, t.domOn d = (d == .mgmt || d == .host || d == .svc)) ∧
  (∀ (slot : BitVec 6) (v : BitVec 16) (img : Option Image) (s : State), v.toNat < 1930 →
    Completes (.aonPowerUp slot v img) s fun t => t = s.mach) ∧
  (∀ (img : Option Image) (i : Image) (ty : BitVec 8) (s : State), s.mach.power.resetPend = some ty →
    (img.orElse fun _ => s.mach.mgmt.running) = some i → s.mach.boots i →
    Completes (.moduleResetTake img) s fun t =>
      t.power.resetPend = none ∧ t.power.bootDone = true ∧ t.power.safeMode = false ∧ t.power.distaffAbsent = false
        ∧ t.get F.PWR_RESET_CAUSE_type = ty.toNat ∧ t.rd Reg.PWR_CNT_RESET = s.mach.counted Reg.PWR_CNT_RESET
        ∧ t.get F.PWR_LADDER_STAT_busy = 0 ∧ t.host.sessions = [] ∧ t.role = .solo ∧ t.flag F.XL_STAT_claim_out = false
        ∧ t.rd Reg.GLB_FW_VER = i.version ∧ t.mgmt.running = some i
        ∧ (∀ d : Domain, t.get (pdField d) = if d ≠ .mgmt ∧ s.mach.get (pdField d) = 3 then 3 else 2)
        ∧ t.rd Reg.MGT_PCNT_BOOT = s.mach.counted Reg.MGT_PCNT_BOOT ∧ t.get F.PWR_IRQ_STAT_boot_done = 1
        ∧ (∀ t0, s.mach.markOf .lifeReset = some t0 → t0 + 100000000 ≤ t.upNs)
        ∧ (i.safety.length = 16 → paramInRange i.safety = true →
            t.runState = if s.mach.safety.latched = [] then .off else .faultLatched)
        ∧ ∃ e rest, t.mgmt.log = e :: rest ∧ e.cls = 0x0A ∧ e.code = ty.setWidth 16) ∧
  ∀ (img : Option Image) (ty : BitVec 8) (s : State), s.mach.power.resetPend = some ty →
    s.mach.bootless (img.orElse fun _ => s.mach.mgmt.running) →
    Completes (.moduleResetTake img) s fun t =>
      SafeModeReached t ∧ t.power.resetPend = none ∧ t.get F.PWR_RESET_CAUSE_type = ty.toNat ∧ t.host.sessions = []
        ∧ t.runState = if s.mach.safety.latched = [] then .off else .faultLatched

/-- R460, R473 to R476, R480: the ladder. An accepted request shows in PWR_LADDER_STAT with its rung, function and master, a
power cycle asserts PWR_CYCLE_REQ; Distaff and the supervisor act on their own when the block stays bad; the guard and the
reinitialisation end. -/
def Obligations.RecoveryLadder : Prop :=
  (∀ (k : Nat) (f : BitVec 4) (fn : ReFunc) (s : State), s.mach.reachable Reg.PWR_RESET_CTRL = true → ladderMaster k = true →
    funcOf f.toNat = some fn → s.mach.reinitError fn = none →
    Completes (.funcReinit (.register k 0x5AC3) f) s fun t => LadderShows t 2 (funcCode fn) k) ∧
  (∀ (k : Nat) (s : State), s.mach.reachable Reg.PWR_RESET_CTRL = true → ladderMaster k = true → s.mach.resetError = none →
    Completes (.moduleReset (.register k 0x5AC3)) s fun t => LadderShows t 3 0 k) ∧
  (∀ (k : Nat) (s : State), s.mach.reachable Reg.PWR_RESET_CTRL = true → ladderMaster k = true →
    s.mach.flag F.PWR_LADDER_STAT_busy = false → s.mach.energised = false → s.mach.supply ≠ .holdup →
    s.mach.extest = false →
    Completes (.powerCycle (.register k 0x5AC3)) s fun t =>
      t.power.pwrCycleReq = true ∧ t.out = .powerCycle true :: s.mach.out ∧ t.get F.PWR_LADDER_STAT_master = k) ∧
  (∀ s : State, s.mach.power.pwrCycleReq = true →
    Completes .powerCyclePulseEnd s (fun t =>
      t.out = .powerCycle false :: s.mach.out ∧ t.power = s.mach.power ∧ t.regs = s.mach.regs ∧ t.mem = s.mach.mem
        ∧ ∀ t0, s.mach.markOf .powerCycle = some t0 → t0 + 500000000 ≤ t.upNs) ∧
    Completes .powerCycleFail s fun t =>
      t.power = { s.mach.power with pwrCycleReq := false } ∧ t.get F.PWR_IRQ_STAT_cycle_fail = 1
        ∧ t.out = .powerCycle false :: s.mach.out ∧ t.mem = s.mach.mem
        ∧ ∀ t0, s.mach.markOf .powerCycle = some t0 → t0 + 5000000000 ≤ t.upNs) ∧
  (∀ (s : State) (f : ReFunc) (k : Nat), s.mach.power.action = some (.reinit f k) →
    Completes .reinitDone s fun t =>
      t.power.action = none ∧ t.get F.PWR_LADDER_STAT_busy = 0 ∧ t.get F.PWR_LADDER_STAT_rung = 0
        ∧ t.get F.PWR_IRQ_STAT_reinit_done = 1) ∧
  (∀ (s : State) (ty : BitVec 8) (k : Nat), s.mach.power.guard = some (.moduleReset ty k) → s.mach.pair.handoverAt = none →
    Completes .resetGuard s fun t =>
      t.power = { s.mach.power with guard := none, action := some (.moduleReset ty k), resetPend := some ty }
        ∧ (s.mach.domOn .chain = true → t.get F.FLY_STOP_src_sw = 0) ∧ t.mem = s.mach.mem
        ∧ ∀ t0, s.mach.brkOpen = false → s.mach.markOf .openReq = some t0 → t0 + 100000000 ≤ t.upNs) ∧
  (∀ s : State, s.mach.power.distaffAbsent = false →
    Completes .distaffWatchdogExpiry s fun t =>
      t.power = { s.mach.power with distaffAbsent := true, marks := t.power.marks } ∧ t.markOf .distaff = some s.mach.upNs
        ∧ t.get F.PWR_RESET_CAUSE_type = ResetType.watchdog) ∧
  (∀ s : State, s.mach.power.distaffAbsent = true → s.mach.power.restartWait = false → s.mach.domOn .mgmt = true →
    Completes .distaffRestartDone s fun t =>
      t.power.distaffAbsent = false ∧ t.get F.PWR_IRQ_STAT_distaff_restart = 1) ∧
  (∀ s : State, s.mach.power.distaffAbsent = true → s.mach.get F.PWR_LADDER_STAT_auto_resets = 0 →
    s.mach.power.autoAt = [] → s.mach.resetError = none →
    Completes .distaffAbsentTimeout s fun t => LadderShows t 3 0 15 ∧ t.get F.PWR_LADDER_STAT_auto_resets = 1
      ∧ ∀ t0, s.mach.power.restarts = [] → s.mach.markOf .distaff = some t0 → t0 + 2000000000 ≤ t.upNs) ∧
  (∀ p ∈ ([(.spin, .spindle), (.cha, .chainA), (.chb, .chainB), (.sense, .sense), (.eth0, .host), (.eth1, .host),
      (.xlink, .xlink)] : List (Island × ReFunc)),
    ∀ s : State, s.mach.clkOk p.1 = true → s.mach.power.distaffAbsent = false → s.mach.reinitError p.2 = none →
      Completes (.clockRecovered p.1) s fun t => LadderShows t 2 (funcCode p.2) 15
        ∧ ∀ t0, s.mach.markOf (.clock p.1) = some t0 → t0 + 10000000 ≤ t.upNs) ∧
  (∀ (p : Port) (s : State), s.mach.flag (F.CH_LINK_STAT_rx_lock (portIx p)) = false → s.mach.power.distaffAbsent = false →
    s.mach.domOn .chain = true → (if p = .a then ReFunc.chainA else .chainB) ∉ s.mach.power.portRetried →
    s.mach.reinitError (if p = .a then .chainA else .chainB) = none →
    Completes (.portLockTimeout p) s fun t => LadderShows t 2 (funcCode (if p = .a then .chainA else .chainB)) 15) ∧
  (∀ (x : BitVec 1) (s : State), s.mach.domOn .can = true → s.mach.get (F.CAN_STAT_state x.toNat) = 2 →
    s.mach.power.distaffAbsent = false → s.mach.reinitError (if x = 0 then .can0 else .can1) = none →
    Completes (.canBusoffTimeout x) s fun t => LadderShows t 2 (funcCode (if x = 0 then .can0 else .can1)) 15) ∧
  (∀ s : State, s.mach.domOn .xlink = true → s.mach.flag F.XL_STAT_link_ok = false → s.mach.power.distaffAbsent = false →
    s.mach.reinitError .xlink = none → Completes .xlinkDeadTimeout s fun t => LadderShows t 2 7 15) ∧
  ∀ s : State, 3 ≤ (s.mach.power.mbxTimeouts.filter fun t => decide (s.mach.upNs - t ≤ 60000000000)).length →
    s.mach.power.distaffAbsent = false → s.mach.reinitError .mbx = none →
    Completes .mailboxTimeoutLadder s fun t => LadderShows t 2 8 15 ∧ t.power.mbxTimeouts = []

/-! ## The safety island (R324 to R347) -/

/-- R47, R73, R324 to R331, R333, R335 to R337: what records a safety cause. An input channel off, channels that differ, a cross
short, an open loop, a lost loop supply or channel link, a failed output test. That INPUT_DISCREPANCY lets time pass until the
channels have differed for 50 ms is the model's choice (log entry 12, DESIGN CHOICE). -/
def Obligations.SafetyDemands : Prop :=
  (∀ (c : Channel) (s : State), SafetyCause.door ∉ s.mach.safety.conds →
    Completes (.doorInputChange c false) s fun t =>
      CauseTaken s.mach t .door ∧ t.flag (inputField .door c) = false) ∧
  (∀ (c : Channel) (s : State), SafetyCause.estop ∉ s.mach.safety.conds →
    Completes (.estopInputChange c false) s fun t =>
      CauseTaken s.mach t .estop ∧ t.flag (inputField .estop c) = false) ∧
  (∀ (i : ContactInput) (s : State), s.mach.flag (inputField i .a) ≠ s.mach.flag (inputField i .b) →
    Completes (.inputDiscrepancy i) s fun t =>
      CauseTaken s.mach t .discrepancy ∧ t.safety.retest i = some false ∧
      (∀ t0, s.mach.markOf (.differ (match i with | .door => .door | .estop => .estop)) = some t0 → t0 + 50000000 ≤ t.upNs) ∧
      (i = .door → t.get F.SAF_STAT_door_test = 0 ∧ t.get F.SAF_FAULT_disc_door = 1) ∧
      (i = .estop → t.get F.SAF_FAULT_disc_estop = 1)) ∧
  (∀ (i : SourcedInput) (s : State),
    Completes (.crossShort i) s fun t =>
      CauseTaken s.mach t .crossShort ∧ (i = .estop → t.get F.SAF_FAULT_xs_estop = 1)
        ∧ (i = .door → t.get F.SAF_FAULT_xs_door = 1 ∧ t.get F.SAF_STAT_door_test = 0)) ∧
  (∀ s : State, s.mach.loopHeld = false → SafetyCause.floop ∉ s.mach.safety.conds →
    Completes .faultLoopOpen s fun t => CauseTaken s.mach t .floop ∧ t.get F.SAF_INPUT_floop = 0) ∧
  (∀ s : State, SafetyCause.hvil ∉ s.mach.safety.conds →
    Completes .hvilOpen s fun t => CauseTaken s.mach t .hvil ∧ t.get F.SAF_INPUT_hvil = 0) ∧
  (∀ s : State,
    Completes .loopSupplyFault s fun t =>
      CauseTaken s.mach t .loopSupply ∧ t.get F.SAF_STAT_loop_supply_ok = 0 ∧ t.get F.SAF_FAULT_loop_supply = 1
        ∧ t.get F.SAF_INPUT_floop = 0 ∧ t.get F.SAF_INPUT_hvil = 0) ∧
  (∀ (c : Channel) (s : State),
    Completes (.channelLinkLoss c) s fun t =>
      CauseTaken s.mach t .channelLink ∧ t.get F.SAF_STAT_link_ok = 0 ∧ t.get F.SAF_FAULT_link = 1
        ∧ (c = .a → t.safety.aloneA = true) ∧ (c = .b → t.safety.aloneB = true)) ∧
  ∀ (c : Channel) (o : Drive) (s : State), (o = .brkTrip → s.mach.tripSwitch c = true) → s.mach.safety.conds = [] →
    s.mach.safety.latched = [] →
    Completes (.outputTestPulse c o false) s fun t =>
      CauseTaken s.mach t .outputTest ∧ t.get (testFault o) = 1 ∧ (o, c) ∈ t.safety.outFail
        ∧ (o = .brkTrip → t.tripSwitch (otherChannel c) = false)

/-- R47, R72, R74, R80, R324 to R330, R333 to R336: what ends a safety condition or touches an output. Channels both on without a
re-test end the input's cause, a loop that carries 5 mA on a good supply ends its own, a passed test clears its failure, a test
during a demand is discarded, the trip rule's end releases the high-side switch; the sources pulse in turn. That TRIP_RELEASE and
CHANNEL_B_BRK_TRIP_RELEASE let time pass up to their instants is the model's choice (log entry 12, DESIGN CHOICE). -/
def Obligations.SafetyRecovery : Prop :=
  (∀ (i : ContactInput) (c : Channel) (s : State), s.mach.flag (inputField i (otherChannel c)) = true →
    s.mach.safety.retest i = none →
    Completes (match i with | .door => .doorInputChange c true | .estop => .estopInputChange c true) s fun t =>
      t.flag (inputField i c) = true ∧ inputCause i ∉ t.safety.conds ∧ t.runState = s.mach.runState ∧ t.mem = s.mach.mem) ∧
  (∀ (i : Byte) (over60 : Bool) (s : State), s.mach.flag F.SAF_STAT_loop_supply_ok = true → s.mach.extest = false →
    50 ≤ i.toNat →
    (s.mach.loopHeld = false → Completes (.faultLoopClose i over60) s fun t =>
      t.get F.SAF_INPUT_floop = 1 ∧ t.get F.SAF_INPUT_floop_i = i.toNat ∧ SafetyCause.floop ∉ t.safety.conds
        ∧ t.safety.shorts = (decide (130 < i.toNat) || over60, s.mach.safety.shorts.2) ∧ t.runState = s.mach.runState
        ∧ t.mem = s.mach.mem) ∧
    Completes (.hvilClose i over60) s fun t =>
      t.get F.SAF_INPUT_hvil = 1 ∧ t.get F.SAF_INPUT_hvil_i = i.toNat ∧ SafetyCause.hvil ∉ t.safety.conds
        ∧ t.safety.shorts = (s.mach.safety.shorts.1, decide (130 < i.toNat) || over60) ∧ t.runState = s.mach.runState
        ∧ t.mem = s.mach.mem) ∧
  (∀ (i : Byte) (over60 : Bool) (s : State), i.toNat < 50 ∨ s.mach.flag F.SAF_STAT_loop_supply_ok = false →
    Completes (.faultLoopClose i over60) s (fun t => t = s.mach) ∧ Completes (.hvilClose i over60) s fun t => t = s.mach) ∧
  (∀ s : State,
    Completes .loopSupplyRecovery s fun t =>
      t.get F.SAF_STAT_loop_supply_ok = 1 ∧ SafetyCause.loopSupply ∉ t.safety.conds ∧ t.runState = s.mach.runState) ∧
  (∀ s : State, 2000 ≤ s.mach.get F.PWR_SUP_STAT_aux_v →
    Completes .coilRailFault s fun t =>
      t.get F.SAF_STAT_coil_ok = 0 ∧ t.get F.SAF_FAULT_coil_rail = 1 ∧ t.get F.SAF_STAT_close_permit = 0
        ∧ t.safety.conds = s.mach.safety.conds ∧ t.runState = s.mach.runState) ∧
  (∀ s : State,
    Completes .coilRailRecovery s fun t =>
      t.get F.SAF_STAT_coil_ok = 1 ∧ t.get F.SAF_FAULT_coil_rail = 0 ∧ t.safety.conds = s.mach.safety.conds
        ∧ t.runState = s.mach.runState) ∧
  (∀ s : State,
    Completes .channelExchange s fun t =>
      t.get F.SAF_STAT_link_ok = 1 ∧ t.safety.aloneA = false ∧ t.safety.aloneB = false
        ∧ SafetyCause.channelLink ∉ t.safety.conds ∧ t.runState = s.mach.runState) ∧
  (∀ s : State, s.mach.safety.aloneB = true →
    Completes .channelBBrkTripRelease s fun t =>
      t.get F.SAF_STAT_trip_ls = 0 ∧ t.safety.closeOn = false ∧ RegsKept s.mach t [Reg.SAF_STAT] ∧ t.mem = s.mach.mem
        ∧ s.mach.safety.aloneBNs + s.mach.param 6 % 65536 * 1000 + 500000 ≤ t.upNs) ∧
  (∀ (c : Channel) (o : Drive) (s : State), (o = .brkTrip → s.mach.tripSwitch c = true) → s.mach.safety.conds = [] →
    s.mach.safety.latched = [] →
    Completes (.outputTestPulse c o true) s fun t =>
      (o, c) ∉ t.safety.outFail ∧ t.safety.conds = [] ∧ t.runState = s.mach.runState ∧ t.mem = s.mach.mem) ∧
  (∀ (c : Channel) (o : Drive) (ok : Bool) (s : State), (o = .brkTrip → s.mach.tripSwitch c = true) →
    s.mach.safety.conds ≠ [] ∨ s.mach.safety.latched ≠ [] →
    Completes (.outputTestPulse c o ok) s fun t =>
      t.rd Reg.SAF_CNT_TEST_DISC = s.mach.counted Reg.SAF_CNT_TEST_DISC ∧ t.safety.conds = s.mach.safety.conds
        ∧ t.safety.outFail = s.mach.safety.outFail ∧ (o = .brkTrip → t.tripSwitch c = false)) ∧
  (∀ (c : Channel) (s : State), (c = .a ↔ s.mach.safety.pulse ≠ some .a) →
    Completes (.sourceOffPulse c) s fun t =>
      t = { s.mach with safety := { s.mach.safety with pulse := some c }, out := .sourcePulse c :: s.mach.out }) ∧
  ∀ (t0 : Nat) (s : State), s.mach.safety.tripRule = some t0 → s.mach.tripHeld = false →
    Completes .tripRelease s fun t =>
      t.get F.SAF_STAT_trip_hs = 0 ∧ t.safety.tripRule = none ∧ t.safety.closeOn = false ∧ t.safety.conds = s.mach.safety.conds
        ∧ t.runState = s.mach.runState ∧ t.mem = s.mach.mem
        ∧ (s.mach.safety.quietNs = none → t0 + s.mach.param 6 % 65536 * 1000 ≤ t.upNs)
        ∧ ∀ q, s.mach.safety.quietNs = some q →
            min (t0 + s.mach.param 6 % 65536 * 1000) (max t0 (q + s.mach.param 5 % 65536 * 1000)) ≤ t.upNs

/-- R344 to R346: the keyed sequences. A first key opens one, its second key within 1 ms accepts it: the fault reset is armed
with no cause present, the parameter set comes into force when it lies in range; any other key, and no key within 1 ms, aborts.
-/
def Obligations.KeyedSequences : Prop :=
  (∀ (k : Nat) (key : Word) (s : State), s.mach.reachable Reg.SAF_KEY = true → s.mach.safety.key = none →
    (key = 0x0000A5C3 ∧ (1 ≤ k ∧ k ≤ 8 ∨ k = 13)) ∨ (key = 0x00009A7E ∧ k = 15) →
    Completes (.safKeyWrite k key) s fun t =>
      t = { s.mach.ok with safety := { s.mach.safety with key := some (k, key, s.mach.upNs) } }) ∧
  (∀ (k t0 : Nat) (s : State), s.mach.reachable Reg.SAF_KEY = true → k < 16 →
    s.mach.safety.key = some (k, 0x0000A5C3, t0) → s.mach.upNs ≤ t0 + 1000000 → s.mach.safety.conds = [] →
    Completes (.safKeyWrite k 0x00003C5A) s fun t =>
      t.safety = { s.mach.safety with key := none, armedNs := some s.mach.upNs } ∧ t.get F.SAF_STAT_reset_armed = 1
        ∧ t.get F.SAF_KEY_STAT_result = 1 ∧ t.get F.SAF_KEY_STAT_master = k
        ∧ RegsKept s.mach t [Reg.SAF_STAT, Reg.SAF_KEY_STAT]) ∧
  (∀ (t0 : Nat) (s : State), s.mach.reachable Reg.SAF_KEY = true → s.mach.safety.key = some (15, 0x00009A7E, t0) →
    s.mach.upNs ≤ t0 + 1000000 → s.mach.paramTime = true → paramInRange s.mach.paramWords = true →
    Completes (.safKeyWrite 15 0x0000E7A9) s fun t =>
      t.safety.paramForce = s.mach.paramWords ∧ t.get F.SAF_STAT_param_ok = 1
        ∧ t.rd Reg.SAF_PARAM_CRC = crcWords s.mach.paramWords ∧ t.rd Reg.SAF_PARAM_CRC_B = crcWords s.mach.paramWords
        ∧ t.get F.SAF_KEY_STAT_result = 1 ∧ SafetyCause.param ∉ t.safety.conds) ∧
  (∀ (k : Nat) (key : Word) (s : State) (k0 : Nat) (key0 : Word) (t0 : Nat), s.mach.reachable Reg.SAF_KEY = true → k < 16 →
    s.mach.safety.key = some (k0, key0, t0) → (k ≠ k0 ∨ key ≠ secondKey key0 ∨ t0 + 1000000 < s.mach.upNs) →
    Completes (.safKeyWrite k key) s fun t =>
      t.safety = { s.mach.safety with key := none } ∧ t.get F.SAF_KEY_STAT_result = 2 ∧ t.get F.SAF_KEY_STAT_master = k
        ∧ t.get F.SAF_IRQ_STAT_key_abort = 1) ∧
  (∀ (s : State) (k0 : Nat) (key0 : Word) (t0 : Nat), s.mach.safety.key = some (k0, key0, t0) →
    Completes .keySequenceTimeout s fun t =>
      t.safety = { s.mach.safety with key := none } ∧ t.get F.SAF_KEY_STAT_result = 2
        ∧ t.get F.SAF_IRQ_STAT_key_abort = 1 ∧ RegsKept s.mach t [Reg.SAF_KEY_STAT, Reg.SAF_IRQ_STAT]
        ∧ t0 + 1000000 ≤ t.upNs) ∧
  ∀ (t0 : Nat) (s : State), s.mach.safety.armedNs = some t0 →
    Completes .resetArmExpiry s fun t =>
      t.safety = { s.mach.safety with armedNs := none } ∧ t.get F.SAF_STAT_reset_armed = 0
        ∧ RegsKept s.mach t [Reg.SAF_STAT] ∧ t.mem = s.mach.mem ∧ t.runState = s.mach.runState ∧ t0 + 1000000000 ≤ t.upNs

/-- R339 to R342: safety telegrams. A bad copy is counted alone, a duplicate has no effect; the first good one waits for its second
and a trip or a missing permit acts at once; equal copies confirm, unequal ones demand; a copy that waited out its window is
confirmed alone; both paths lost, or 20 ms without a confirmed telegram, demand. That the commands of an interval's end let time
pass up to it is the model's choice (log entry 12, DESIGN CHOICE). -/
def Obligations.SafetyTelegrams : Prop :=
  (∀ (p : TelPath) (b : List Byte) (s : State),
    s.mach.telFormOk b = false ∨ (s.mach.safety.tel.has p (telWord b 0) = false ∧ s.mach.telLate p (telWord b 0) = none
      ∧ s.mach.telSeqOk (telWord b 0) = false) →
    Completes (.telegramCopyRx p b) s fun t =>
      t = { s.mach with regs := t.regs } ∧ RegsKept s.mach t [Reg.SAF_CNT_TEL_BAD]
        ∧ t.rd Reg.SAF_CNT_TEL_BAD = s.mach.counted Reg.SAF_CNT_TEL_BAD) ∧
  (∀ (p : TelPath) (b : List Byte) (s : State), s.mach.telFormOk b = true → s.mach.safety.tel.has p (telWord b 0) = true →
    Completes (.telegramCopyRx p b) s fun t => t = s.mach) ∧
  (∀ (p : TelPath) (b : List Byte) (s : State), s.mach.telFormOk b = true →
    s.mach.safety.tel.has p (telWord b 0) = false → s.mach.telLate p (telWord b 0) = none →
    s.mach.telSeqOk (telWord b 0) = true →
    (s.mach.safety.tel.firsts.find? (·.seq == telWord b 0) = none →
      (telFlag b 1 = true → SafetyCause.telTrip ∉ s.mach.safety.conds →
        Completes (.telegramCopyRx p b) s fun t =>
          CauseTaken s.mach t .telTrip ∧ t.get F.SAF_TEL_STAT_trip_pending = 1
            ∧ t.safety.tel.pending = some (.telTrip, telWord b 0)) ∧
      (telFlag b 1 = false → telFlag b 0 = false → SafetyCause.telNoPermit ∉ s.mach.safety.conds →
        Completes (.telegramCopyRx p b) s fun t =>
          CauseTaken s.mach t .telNoPermit ∧ t.safety.tel.pending = some (.telNoPermit, telWord b 0)) ∧
      (telFlag b 1 = false → telFlag b 0 = true →
        Completes (.telegramCopyRx p b) s fun t =>
          t.safety.tel.firsts = s.mach.safety.tel.firsts ++ [TelCopy.mk (telWord b 0) p b s.mach.upNs]
            ∧ t.safety.conds = s.mach.safety.conds ∧ t.runState = s.mach.runState ∧ t.mem = s.mach.mem)) ∧
    (∀ f, s.mach.safety.tel.firsts.find? (·.seq == telWord b 0) = some f →
      (f.bytes.take 28 = b.take 28 →
        Completes (.telegramCopyRx p b) s fun t =>
          t.rd Reg.SAF_TEL_SEQ = telWord b 0 ∧ t.get F.SAF_TEL_STAT_confirmed = 1
            ∧ t.safety.tel.lastOk = some (telWord b 0) ∧ t.safety.tel.permit = (telFlag b 0 && !telFlag b 1)
            ∧ t.safety.tel.ownSeq = s.mach.safety.tel.ownSeq + 1) ∧
      (f.bytes.take 28 ≠ b.take 28 →
        Completes (.telegramCopyRx p b) s fun t =>
          CauseTaken s.mach t .telMismatch ∧ t.get F.SAF_FAULT_tel_mismatch = 1))) ∧
  (∀ (s : State) (f : TelCopy) (rest : List TelCopy), s.mach.safety.tel.firsts = f :: rest →
    Completes .telegramConfirmWindow s fun t =>
      t.rd Reg.SAF_CNT_TEL_LATE = s.mach.counted Reg.SAF_CNT_TEL_LATE ∧ t.rd Reg.SAF_TEL_SEQ = f.seq
        ∧ t.get F.SAF_TEL_STAT_confirmed = 1 ∧ t.safety.tel.lastOk = some f.seq ∧ f.atNs + 5000000 ≤ t.upNs) ∧
  (∀ s : State, s.mach.flag F.SAF_TEL_STAT_can_lost = true → SafetyCause.telLoss ∉ s.mach.safety.conds →
    Completes (.telegramPathLoss .eth) s fun t =>
      CauseTaken s.mach t .telLoss ∧ t.get F.SAF_TEL_STAT_eth_lost = 1 ∧ t.get F.SAF_TEL_STAT_confirmed = 0
        ∧ t.safety.tel.lastOk = none ∧ t.safety.tel.firsts = []
        ∧ ∀ t0, s.mach.markOf (.path .eth) = some t0 → t0 + 20000000 ≤ t.upNs) ∧
  (∀ s : State, s.mach.flag F.SAF_TEL_STAT_eth_lost = false →
    (s.mach.safety.tel.confirmed = false → Completes (.telegramPathLoss .can1) s fun t =>
      t.get F.SAF_TEL_STAT_can_lost = 1 ∧ t.get F.SAF_STAT_close_permit = 0 ∧ t.safety.conds = s.mach.safety.conds
        ∧ t.runState = s.mach.runState ∧ t.mem = s.mach.mem) ∧
    (s.mach.safety.tel.confirmed = true → s.mach.safety.tel.okNs + 20000000 ≤ s.mach.upNs →
      SafetyCause.telLoss ∉ s.mach.safety.conds → Completes (.telegramPathLoss .can1) s fun t =>
      CauseTaken s.mach t .telLoss ∧ t.get F.SAF_TEL_STAT_can_lost = 1 ∧ t.get F.SAF_TEL_STAT_confirmed = 0)) ∧
  ∀ s : State, s.mach.safety.tel.pending.isSome = true →
    Completes .tripConfirmTimeout s fun t =>
      t.safety = { s.mach.safety with tel := { s.mach.safety.tel with pending := none } }
        ∧ t.get F.SAF_TEL_STAT_trip_pending = 0 ∧ RegsKept s.mach t [Reg.SAF_TEL_STAT] ∧ t.mem = s.mach.mem
        ∧ t.runState = s.mach.runState
        ∧ ∀ t0, s.mach.markOf .trip = some t0 → t0 + s.mach.param 2 % 256 * 2000000 ≤ t.upNs

/-! ## Protection and the breaker (R152, R153, R301, R310 to R318, R332, R464, R523) -/

/-- R301, R310 to R312, R318, R464: the stops that protection makes. An orderly one from the summary goes to STOPPING, an
immediate one and an orderly one that does not end in time are safety causes; so are a backstop and the module's own trip. That
ORDERLY_STOP_ESCALATE and OPEN_REQUEST_TIMEOUT let time pass up to their instants is the model's choice (log entry 12, DESIGN CHOICE).
-/
def Obligations.ProtectionStops : Prop :=
  (∀ (s : State) (t0 : Nat), s.mach.power.stopNs = some t0 → s.mach.runState = .stopping →
    Completes .orderlyStopEscalate s fun t =>
      CauseTaken s.mach t .protReq ∧ t.get F.SNS_PROT_STAT_escalated = 1 ∧ t0 + 200000000 ≤ t.upNs
        ∧ t.get F.PWR_RUN_STAT_last_cause = Cause.escalated) ∧
  (∀ (s : State) (t0 : Nat), s.mach.runState = .stopping → s.mach.power.openReq = true → s.mach.markOf .openReq = some t0 →
    Completes .openRequestTimeout s fun t =>
      CauseTaken s.mach t .protReq ∧ t.get F.SNS_PROT_STAT_escalated = 1 ∧ t0 + 100000000 ≤ t.upNs
        ∧ t.get F.PWR_RUN_STAT_last_cause = Cause.escalated) ∧
  (∀ s : State, s.mach.runState = .stopping → s.mach.power.distaffAbsent = false → s.mach.supply ≠ .holdup →
    s.mach.flag F.SAF_INPUT_brk_aux_a = true →
    Completes .stopCurrentZero s fun t =>
      t.runState = .stopping ∧ t.power.openReq = true ∧ t.power.blockHold = true ∧ t.mem = s.mach.mem
        ∧ ∀ k, k < 4 → t.rd (Reg.FLY_BLOCK k) = 0xFFFFFFFF) ∧
  (∀ s : State, s.mach.runState = .stopping → s.mach.power.distaffAbsent = false → s.mach.supply ≠ .holdup →
    s.mach.flag F.SAF_INPUT_brk_aux_a = false → s.mach.flag F.SAF_INPUT_brk_aux_b = false →
    Completes .stopCurrentZero s fun t =>
      t.runState = .safeHold ∧ t.power.openReq = false ∧ t.power.blockHold = false ∧ t.mem = s.mach.mem
        ∧ ∀ k, k < 4 → t.rd (Reg.FLY_BLOCK k) = 0) ∧
  (∀ c ∈ [(Instr.stringSummaryRead, false), (.supervisorSummaryRead, true)], ∀ s : State,
    s.mach.summaryThere = true → s.mach.power.distaffAbsent = c.2 →
    (intForm (s.mach.summary 6) = 1 → s.mach.role ≠ .standby → s.mach.runState = .precharge ∨ s.mach.runState = .run →
      Completes c.1 s fun t =>
        t.runState = .stopping ∧ t.get F.PWR_RUN_STAT_last_cause = Cause.protOrderly ∧ t.prog.stopReq = 1
          ∧ t.mem = s.mach.mem) ∧
    (intForm (s.mach.summary 6) = 2 → s.mach.prog.stopReq ≠ 2 → SafetyCause.protReq ∉ s.mach.safety.latched →
      Completes c.1 s fun t =>
        CauseTaken s.mach t .protReq ∧ t.prog.stopReq = 2
          ∧ (s.mach.runState ≠ .faultLatched → t.get F.PWR_RUN_STAT_last_cause = Cause.protImmediate))) ∧
  (∀ s : State, s.mach.cyclesOn = true → s.mach.power.distaffAbsent = false → s.mach.domOn .frame = true →
    s.mach.domOn .sense = true → SafetyCause.backstop ∉ s.mach.safety.latched →
    (s.mach.each (s.mach.backstopCycles.filter fun c => readMemWord s.mach.mem (frameAddr c) == c)
      Mach.backstopFrame).sense.backRun.toList.any (3 ≤ ·) = true →
    Completes .backstopCheck s fun t =>
      CauseTaken s.mach t .backstop ∧ t.get F.SNS_PROT_IRQ_STAT_backstop = 1) ∧
  (∀ (a b : Option Int) (die : Int) (s : State),
    Completes (.moduleTempRead a b die) s fun t =>
      t.power.modTemp = (baseplate a b die, die) ∧
      (s.mach.domOn .sense = true →
        t.get F.SNS_MOD_TEMP_baseplate = (BitVec.ofInt 16 (baseplate a b die)).toNat
          ∧ t.get F.SNS_MOD_TEMP_die = (BitVec.ofInt 16 die).toNat) ∧
      (850 ≤ baseplate a b die ∨ 1250 ≤ die → SafetyCause.moduleTrip ∉ s.mach.safety.latched →
        SafetyCause.moduleTrip ∈ t.safety.latched ∧ t.runState = .faultLatched
          ∧ t.get F.SAF_CAUSE_latest = SafetyCause.moduleTrip.code)) ∧
  ∀ (k : Nat) (s : State), s.mach.reachable Reg.SNS_PROT_CTRL = true → s.mach.runState = .off ∨ s.mach.runState = .safeHold →
    Completes (.clrCause k) s fun t =>
      t.get F.SNS_PROT_STAT_stop_cause = 0 ∧ t.get F.SNS_PROT_STAT_escalated = 0 ∧ t.prog.stopReq = 0
        ∧ t.runState = s.mach.runState ∧ t.answer.1 = Err.ok

/-- R315, R317, R322: the demand to the container is counted and numbered, a status message ends the loss of cooling, ten
seconds without one report it. That a command of an interval's end lets time pass up to it is the model's choice (log entry 12,
DESIGN CHOICE). -/
def Obligations.ThermalDemand : Prop :=
  (∀ s : State, s.mach.flag F.SNS_PROT_CTRL_can_dem_en = true → s.mach.domOn .sense = true →
    s.mach.power.distaffAbsent = false →
    Completes .thermalDemandSend s fun t =>
      t.rd Reg.SNS_CNT_DEMAND = s.mach.counted Reg.SNS_CNT_DEMAND
        ∧ (∀ t0, s.mach.markOf .demand = some t0 → t0 + 100000000 ≤ t.upNs)
        ∧ t.sense.demSeq = (if s.mach.role = .standby then s.mach.sense.demSeq else s.mach.sense.demSeq + 1)
        ∧ t.runState = s.mach.runState ∧ t.mem = s.mach.mem) ∧
  (∀ s : State, s.mach.power.distaffAbsent = false → s.mach.domOn .sense = true → s.mach.domOn .can = true →
    Completes .containerStatusRx s fun t =>
      t = { s.mach with regs := t.regs, power := { s.mach.power with marks := t.power.marks } }
        ∧ t.markOf .container = some s.mach.upNs ∧ RegsKept s.mach t [Reg.SNS_PROT_STAT, Reg.CAN_MB_CTRL 0 1]
        ∧ t.get F.SNS_PROT_STAT_cool_lost = 0 ∧ t.get (F.CAN_MB_CTRL_full 0 1) = 0) ∧
  ∀ s : State, s.mach.power.distaffAbsent = false → s.mach.domOn .sense = true →
    Completes .containerStatusLoss s fun t =>
      RegsKept s.mach t [Reg.SNS_PROT_STAT, Reg.SNS_PROT_IRQ_STAT] ∧ t.mem = s.mach.mem ∧ t.runState = s.mach.runState
        ∧ (∀ t0, s.mach.markOf .container = some t0 → t0 + 10000000000 ≤ t.upNs)
        ∧ t.get F.SNS_PROT_STAT_cool_lost = 1 ∧ t.get F.SNS_PROT_IRQ_STAT_cool_lost = 1
        ∧ t.get F.SNS_PROT_STAT_rate_level
          = (if s.mach.get F.SNS_PROT_STAT_rate_level = 1 then 2 else s.mach.get F.SNS_PROT_STAT_rate_level)

/-- R66, R67, R78, R152, R153, R332, R463 to R465, R467: precharge ends in RUN when the breaker reports closed, in a failure
when time runs out or the pulse does not close it; STOPPING ends when it reports open; channels of BRK_AUX that differ are a
cause; an insulation measurement keeps its result with the breaker's state at its start and decides the step of a start. That a
command of an interval's end lets time pass up to it is the model's choice (log entry 12, DESIGN CHOICE). -/
def Obligations.BreakerAndPrecharge : Prop :=
  (∀ s : State, s.mach.runState = .precharge →
    s.mach.get F.FLY_PRE_STAT_pre_state = 1 ∨ s.mach.get F.FLY_PRE_STAT_pre_state = 2 →
    Completes .prechargeTimeout s fun t =>
      t.get F.FLY_PRE_STAT_pre_state = 5 ∧ t.get F.FLY_PRE_STAT_fail_cause = 1 ∧ t.get F.FLY_IRQ_STAT_pre_fail = 1
        ∧ t.runState = (if s.mach.brkClosed then .stopping else .safeHold)
        ∧ t.get F.PWR_RUN_STAT_last_cause = Cause.prechargeFail ∧ t.mem = s.mach.mem
        ∧ ∀ t0, s.mach.markOf .precharge = some t0 → t0 + s.mach.get F.FLY_PRECHG_timeout * 10000000 ≤ t.upNs) ∧
  (∀ (s : State) (t0 : Nat), s.mach.safety.closeOn = true → s.mach.safety.closeNs = some t0 →
    (s.mach.power.afterClose = none → s.mach.brkClosed = false → s.mach.runState = .precharge →
      s.mach.get F.FLY_PRE_STAT_pre_state = 3 →
      Completes .closePulseTimeout s fun t =>
        t.safety.closeOn = false ∧ t0 + 100000000 ≤ t.upNs ∧ t.get F.FLY_PRE_STAT_pre_state = 5
          ∧ t.get F.FLY_PRE_STAT_fail_cause = 4 ∧ t.get F.FLY_IRQ_STAT_pre_fail = 1 ∧ t.runState = .safeHold
          ∧ t.get F.PWR_RUN_STAT_last_cause = Cause.prechargeFail ∧ t.mem = s.mach.mem) ∧
    (s.mach.power.afterClose = some Cause.hostStop →
      Completes .closePulseTimeout s fun t =>
        t.safety.closeOn = false ∧ t0 + 100000000 ≤ t.upNs ∧ t.power.afterClose = none
          ∧ t.runState = (if s.mach.brkClosed then .stopping else .safeHold)
          ∧ t.power.stopNs = (if s.mach.brkClosed then some t.upNs else none)
          ∧ t.get F.PWR_RUN_STAT_last_cause = Cause.hostStop ∧ t.mem = s.mach.mem) ∧
    (s.mach.power.afterClose = none → s.mach.brkClosed = true →
      Completes .closePulseTimeout s fun t =>
        t.safety = { s.mach.safety with closeOn := false } ∧ t0 + 100000000 ≤ t.upNs ∧ t.runState = s.mach.runState
          ∧ t.regs = s.mach.regs ∧ t.mem = s.mach.mem)) ∧
  (∀ (a b : Bool) (s : State),
    Completes (.brkAuxChange a b) s fun t =>
      t.flag F.SAF_INPUT_brk_aux_a = a ∧ t.flag F.SAF_INPUT_brk_aux_b = b ∧ t.flag F.SAF_STAT_brk_closed = (a && b)
        ∧ t.mem = s.mach.mem) ∧
  (∀ s : State, s.mach.brkClosed = false → s.mach.runState = .precharge → s.mach.get F.FLY_PRE_STAT_pre_state = 3 →
    s.mach.power.afterClose = none →
    Completes (.brkAuxChange true true) s fun t =>
      t.runState = .run ∧ t.get F.FLY_PRE_STAT_pre_state = 4 ∧ t.get F.SAF_STAT_brk_closed = 1 ∧ t.safety.closeOn = false
        ∧ t.get F.PWR_RUN_STAT_last_cause = Cause.prechargeDone
        ∧ t.rd Reg.MGT_PCNT_CLOSE = s.mach.counted Reg.MGT_PCNT_CLOSE) ∧
  (∀ s : State, s.mach.runState = .stopping → s.mach.power.distaffAbsent = false →
    Completes (.brkAuxChange false false) s fun t =>
      t.runState = .safeHold ∧ t.power.openReq = false ∧ t.power.blockHold = false ∧ t.get F.SAF_STAT_brk_closed = 0
        ∧ t.get F.PWR_RUN_STAT_last_cause = Cause.stopped ∧ ∀ k, k < 4 → t.rd (Reg.FLY_BLOCK k) = 0) ∧
  (∀ s : State, s.mach.flag F.SAF_INPUT_brk_aux_a ≠ s.mach.flag F.SAF_INPUT_brk_aux_b →
    Completes .brkAuxDiscrepancy s fun t =>
      CauseTaken s.mach t .discrepancy ∧ t.get F.SAF_FAULT_disc_brk_aux = 1 ∧ t.safety.floopA = s.mach.safety.floopA
        ∧ t.safety.floopB = s.mach.safety.floopB
        ∧ ∀ t0, s.mach.markOf (.differ .brkAux) = some t0 → t0 + 50000000 ≤ t.upNs) ∧
  (∀ (k : Nat) (s : State), s.mach.reachable Reg.SNS_CTRL = true →
    (s.mach.isoAllowed = true → s.mach.flag F.SNS_STAT_iso_busy = false →
      Completes (.isoStart k) s fun t =>
        t.get F.SNS_STAT_iso_busy = 1 ∧ t.sense = { s.mach.sense with isoNowBrk := s.mach.brkClosed }
          ∧ RegsKept s.mach t [Reg.SNS_STAT] ∧ t.runState = s.mach.runState ∧ t.mem = s.mach.mem ∧ t.answer.1 = Err.ok) ∧
    (s.mach.isoAllowed = false →
      Completes (.isoStart k) s fun t => t = { s.mach with answer := (Err.refusedState, 0, []) })) ∧
  ∀ (r : Nat) (s : State), s.mach.flag F.SNS_STAT_iso_busy = true →
    Completes (.isoMeasDone r) s fun t =>
      t.get F.SNS_STAT_iso_busy = 0 ∧ t.get F.SNS_ISO_valid = 1 ∧ t.sense.isoNs = s.mach.upNs
        ∧ t.sense.isoBrk = s.mach.sense.isoNowBrk ∧ t.mem = s.mach.mem
        ∧ t.get F.SNS_ISO_r_iso = (if 50000 < r then 0xFFFF else r) ∧ t.get F.SNS_IRQ_STAT_iso_done = 1 ∧
      (s.mach.inStep Step.insulation = true →
        t.runState = (if s.mach.get F.SNS_ISO_LIM_warn ≤ (if 50000 < r then 0xFFFF else r) then .precharge else .off)) ∧
      (s.mach.inStep Step.insulation = false → t.runState = s.mach.runState)

/-! ## The cycle (R130, R131, R164, R165, R191 to R206, R211, R224 to R226) -/

/-- R131, R201, R205, R379: the sample instant opens a cycle: no EMIT yet, FLY_BLOCK as it applies, a frame of its own with
nothing frozen. Comparator 0 is the same event; a section still in progress has overrun its budget. -/
def Obligations.CycleOpens : Prop :=
  (∀ s : State, s.mach.cyclesOn = true →
    Completes .sampleInstant s fun t =>
      t.fly.emit = none ∧ t.chain.frozen = false ∧ t.sense.frozen = false ∧ t.sense.data = none
        ∧ ∀ k : Fin 4, s.mach.fly.blockPend = [] → t.fly.blockPend = [] → t.fly.blockNow[k] = t.rd (Reg.FLY_BLOCK k)) ∧
  (∀ s : State, exec (.comparatorFire 0) s = exec .sampleInstant s) ∧
  (∀ s : State, s.mach.inSection = true →
    Completes .sectionOverrun s fun t =>
      (s.mach.inFast = true → t.rd Reg.SPN_CNT_OVR_FAST = s.mach.counted Reg.SPN_CNT_OVR_FAST
        ∧ t.get F.SPN_IRQ_STAT_ovr_fast = 1 ∧ t.get F.SPN_STAT_section = 2) ∧
      (s.mach.inFast = false → t.rd Reg.SPN_CNT_OVR_EST = s.mach.counted Reg.SPN_CNT_OVR_EST
        ∧ t.get F.SPN_IRQ_STAT_ovr_est = 1 ∧ t.get F.SPN_STAT_section = (if s.mach.spin.stopPend then 0 else 2))) ∧
  (∀ s : State, s.mach.cyclesOn = true → s.mach.arrayRuns = true → s.mach.spin.fastRan = false →
    s.mach.sense.frozen = false →
    Completes .fastSectionStart s fun t =>
      t.get F.SPN_STAT_section = 1 ∧ t.mem = s.mach.mem
        ∧ t.spin = { s.mach.spin.cleared (s.mach.get F.SPN_ENTRY_fast_pc) with
            fastRan := true, ctlRec := Vector.replicate 16 none }) ∧
  (∀ s : State, s.mach.cyclesOn = true → s.mach.get F.SPN_STAT_state = 2 → s.mach.inFast = false →
    s.mach.pair.resync = none → s.mach.spin.estRan = false → s.mach.chain.frozen = false →
    Completes .estSectionStart s fun t =>
      t.get F.SPN_STAT_section = 3 ∧ t.mem = s.mach.mem ∧ t.power.estSeen = true
        ∧ t.spin = { s.mach.spin.cleared (s.mach.get F.SPN_ENTRY_est_pc) with estRan := true }) ∧
  (∀ s : State, s.mach.cyclesOn = true → s.mach.sense.frozen = false → s.mach.arrayRuns = false ∨ s.mach.inSection = false →
    Completes .senseFreeze s fun t => t.sense.frozen = true ∧ t.spin = s.mach.spin ∧ t.runState = s.mach.runState) ∧
  (∀ s : State, s.mach.cyclesOn = true → s.mach.spin.refProg = true → s.mach.arrayRuns = true → s.mach.inFast = true →
    s.mach.memi.clean = true →
    Completes .senseFreeze s fun t => t.get F.SPN_STAT_section = 2) ∧
  ∀ s : State, s.mach.cyclesOn = true → s.mach.runState ≠ .starting → s.mach.arrayRuns = false ∨ s.mach.inSection = false →
    Completes .frameFreeze s fun t => t.chain.frozen = true ∧ t.memi.inval = [] ∧ t.spin = s.mach.spin

/-- R64, R69, R165, R166, R185, R195, R206: sense data stand until the freeze, and their values are read in their registers within
the resolution, whose rounding is open (log entry 41, DESIGN CHOICE); a commit makes a set-point pending, which takes force at its cycle, and reports its age once. -/
def Obligations.SenseAndSetPoints : Prop :=
  (∀ (d : SenseData) (s : State), s.mach.cyclesOn = true → s.mach.sense.frozen = false → s.mach.domOn .sense = true →
    s.mach.clkOk .sense = true →
    Completes (.senseDataWrite d) s fun t =>
      t.sense.data = some d ∧ t.sense.frozen = false
        ∧ (d.shuntLate = false → ∃ n : Int, t.rd Reg.SNS_I_SH = satWord n ∧ (n : Rat) - 1 < t.shAmps d * 1000
            ∧ t.shAmps d * 1000 < (n : Rat) + 1)
        ∧ (d.vStrLate = false → ∃ n : Int, t.rd Reg.SNS_VSTR = satWord n ∧ (n * 10000 - inRange d.vStr).natAbs < 10000)
        ∧ (d.vBusLate = false → ∃ n : Int, t.rd Reg.SNS_VBUS = satWord n ∧ (n * 10000 - inRange d.vBus).natAbs < 10000)
        ∧ t.rd Reg.SNS_VPOS_PE = (if s.mach.flag F.SNS_STAT_iso_busy then satWord (peRange d.vPosPe) else 0)
        ∧ t.rd Reg.SNS_VNEG_PE = (if s.mach.flag F.SNS_STAT_iso_busy then satWord (peRange d.vNegPe) else 0)) ∧
  (∀ (d : SenseData) (s : State), s.mach.cyclesOn = false → s.mach.domOn .sense = true → s.mach.clkOk .sense = true →
    Completes (.senseDataWrite d) s fun t =>
      t.sense.data = some d ∧ RegsKept s.mach t [Reg.SNS_STAT] ∧ t.mem = s.mach.mem ∧ t.runState = s.mach.runState
        ∧ t.flag F.SNS_STAT_cmp_sh = shLive d) ∧
  (∀ (k : Nat) (s : State), s.mach.reachable Reg.SNS_SP_CTRL = true → s.mach.get F.SNS_SP_OWNER_owner = k →
    s.mach.role ≠ .standby → s.mach.mirrors = false →
    (s.mach.flag F.SNS_SP_CTRL_at_cycle = true ∨ s.mach.rd Reg.SNS_SP_APPLY ≠ 0 →
      s.mach.cycleNameOk s.mach.commitCycle 2000 = true) →
    Completes (.commit k) s fun t =>
      t.get F.SNS_SP_CTRL_pending = 1 ∧ RegsKept s.mach t [Reg.SNS_SP_CTRL] ∧ t.answer.1 = Err.ok
        ∧ t.sense = { s.mach.sense with
            pending := some ⟨s.mach.rd Reg.SNS_SP_I, s.mach.rd Reg.SNS_SP_LIM, s.mach.commitCycle⟩ }) ∧
  (∀ (p : SetPoint) (s : State), s.mach.sense.pending = some p → s.mach.setpointDue p = true →
    Completes .setpointApply s fun t =>
      t.rd Reg.SNS_SP_STAT = p.target ∧ t.rd Reg.SNS_SP_CYC = p.cycle ∧ t.get F.SNS_SP_CTRL_pending = 0
        ∧ t.sense.pending = none ∧ t.sense.limits = p.limits ∧ t.sense.expired = false) ∧
  (∀ s : State, (if s.mach.cyclesOn then s.mach.frameOld else s.mach.setpointOld) = true → s.mach.sense.expired = false →
    Completes .setpointExpiry s fun t => t.sense.expired = true ∧ t.get F.SNS_IRQ_STAT_sp_timeout = 1) ∧
  (∀ (k : Nat) (s : State), s.mach.reachable Reg.SNS_CAP_CTRL = true → s.mach.capState ≠ 1 → s.mach.capState ≠ 2 →
    s.mach.get F.SNS_CAP_CTRL_chan_mask ≠ 0 →
    Completes (.arm k) s fun t =>
      t.get F.SNS_CAP_STAT_state = 1 ∧ t.get F.SNS_CAP_STAT_records = 0 ∧ t.sense.capHead = 0 ∧ t.sense.capTotal = 0
        ∧ RegsKept s.mach t [Reg.SNS_CAP_STAT] ∧ t.mem = s.mach.mem ∧ t.answer.1 = Err.ok) ∧
  (∀ (k : Nat) (s : State), s.mach.reachable Reg.SNS_CAP_CTRL = true →
    Completes (.abort k) s fun t => t.get F.SNS_CAP_STAT_state = 4 ∧ t.answer.1 = Err.ok) ∧
  ∀ s : State, s.mach.cyclesOn = true → s.mach.spin.fastRan = true →
    Completes .captureRecord s fun t =>
      t.law = (s.mach.controlWords.getD 15 0).getLsbD 5
        ∧ t.refSrc = RefSource.ofCode (fieldOf (s.mach.controlWords.getD 15 0) 6 2)
        ∧ t.sense.capStat = s.mach.controlWords.getD 15 0
        ∧ t.get F.SNS_STAT_ladder = fieldOf (s.mach.controlWords.getD 15 0) 0 3

/-- R211, R451: the parameter banks. A swap request locks the shadow bank for its cycle, at which the banks change places; a
cancel in time withdraws it; a copy makes the shadow bank equal to the bank in force. -/
def Obligations.ParameterBanks : Prop :=
  (∀ (k : Nat) (s : State), s.mach.reachable Reg.SPN_BANK_CTRL = true → s.mach.role ≠ .standby → s.mach.shadowLocked = false →
    s.mach.memi.poison = [] → s.mach.mirrors = false → s.mach.flag F.SPN_BANK_CTRL_at_cycle = true →
    s.mach.cycleNameOk (s.mach.rd Reg.SPN_BANK_APPLY) 100000 = true →
    Completes (.swap k) s fun t =>
      t.get F.SPN_BANK_STAT_pending = 1 ∧ t.get F.SPN_BANK_STAT_crc_busy = 1
        ∧ t.get F.SPN_BANK_STAT_in_force = s.mach.get F.SPN_BANK_STAT_in_force
        ∧ t.spin = { s.mach.spin with swapAt := some (s.mach.rd Reg.SPN_BANK_APPLY) } ∧ t.mem = s.mach.mem
        ∧ RegsKept s.mach t [Reg.SPN_BANK_STAT] ∧ t.answer.1 = Err.ok) ∧
  (∀ (k : Nat) (c : Word) (s : State), s.mach.reachable Reg.SPN_BANK_CTRL = true → s.mach.role ≠ .standby →
    s.mach.mirrors = false → s.mach.spin.swapAt = some c → s.mach.cyclesAhead c < 2 ^ 31 →
    s.mach.nowNs + 2000 ≤ s.mach.instantAhead c →
    Completes (.cancel k) s fun t =>
      t.get F.SPN_BANK_STAT_pending = 0 ∧ t.spin = { s.mach.spin with swapAt := none }
        ∧ RegsKept s.mach t [Reg.SPN_BANK_STAT] ∧ t.answer.1 = Err.ok) ∧
  (∀ (k : Nat) (s : State), s.mach.reachable Reg.SPN_BANK_CTRL = true → s.mach.shadowLocked = false →
    Completes (.copy k) s fun t =>
      t.get F.SPN_BANK_STAT_copy_busy = 1 ∧ RegsKept s.mach t [Reg.SPN_BANK_STAT] ∧ t.mem = s.mach.mem
        ∧ t.answer.1 = Err.ok) ∧
  (∀ s : State, s.mach.flag F.SPN_BANK_STAT_copy_busy = true → s.mach.memi.clean = true →
    Completes .bankCopyDone s fun t =>
      t.get F.SPN_BANK_STAT_copy_busy = 0 ∧
      (∀ i, i < 16384 →
        readMemWord t.mem (s.mach.shadowBase + 4 * i) = readMemWord s.mach.mem (s.mach.bankBase + 4 * i)) ∧
      ∀ a, a < s.mach.shadowBase ∨ s.mach.shadowBase + 0x10000 ≤ a → readByte t.mem a = readByte s.mach.mem a) ∧
  (∀ s : State, s.mach.flag F.SPN_BANK_STAT_crc_busy = true → s.mach.memi.upsets = [] →
    Completes .bankCrcDone s fun t =>
      t = { s.mach with regs := t.regs } ∧ RegsKept s.mach t [Reg.SPN_BANK_STAT, Reg.SPN_BANK_CRC_S]
        ∧ t.rd Reg.SPN_BANK_CRC_S = s.mach.bankCrc s.mach.shadowBase ∧ t.get F.SPN_BANK_STAT_crc_busy = 0) ∧
  ∀ (c : Word) (s : State), s.mach.spin.swapAt = some c → s.mach.reached c = true →
    Completes .bankSwap s fun t =>
      t.flag F.SPN_BANK_STAT_in_force = !s.mach.flag F.SPN_BANK_STAT_in_force ∧ t.get F.SPN_BANK_STAT_pending = 0
        ∧ t.rd Reg.SPN_BANK_CYC = c ∧ t.get F.SPN_IRQ_STAT_swap_done = 1 ∧ t.spin.swapAt = none

/-- R203, R204, R218, R224 to R226: the array's controls by register, and the digests of inputs, outputs and state. -/
def Obligations.ArrayControl : Prop :=
  (∀ (k : Nat) (s : State), s.mach.reachable Reg.SPN_CTRL = true → s.mach.get F.SPN_STAT_state = 1 →
    s.mach.cyclesOn = true → s.mach.domOn .spin1 = true → s.mach.spin.stopAt ≠ some s.mach.cycle →
    Completes (.spnRun k) s fun t => t = { s.mach.ok with spin := { s.mach.spin with runPend := true } }) ∧
  (∀ (k : Nat) (s : State), s.mach.reachable Reg.SPN_CTRL = true → s.mach.arrayRuns = true →
    Completes (.spnStop k) s fun t =>
      t = { s.mach.ok with spin := { s.mach.spin with stopPend := true, stopAt := some s.mach.cycle } }) ∧
  (∀ (k : Nat) (s : State), s.mach.reachable Reg.SPN_CTRL = true → s.mach.get F.SPN_STAT_state = 1 →
    s.mach.spin.runPend = true →
    Completes (.spnStop k) s fun t =>
      t = { s.mach.ok with spin := { s.mach.spin with runPend := false, stopAt := some s.mach.cycle } }) ∧
  (∀ (k : Nat) (s : State), s.mach.reachable Reg.SPN_CTRL = true → s.mach.get F.SPN_STAT_state = 2 →
    s.mach.cyclesAhead (s.mach.rd Reg.SPN_ST_CYC) < 2 ^ 31 →
    s.mach.nowNs + 100000 ≤ s.mach.instantAhead (s.mach.rd Reg.SPN_ST_CYC) →
    Completes (.spnSelftest k) s fun t => t = { s.mach.ok with spin := { s.mach.spin with stPend := true } }) ∧
  (∀ (k : Nat) (s : State), s.mach.reachable Reg.SPN_CTRL = true → s.mach.get F.SPN_STAT_state ≠ 3 →
    Completes (.clrTrap k) s fun t =>
      t = { s.mach.ok with regs := t.regs } ∧ t.rd Reg.SPN_TRAP = 0 ∧ t.rd Reg.SPN_TRAP_CYC = 0
        ∧ RegsKept s.mach t [Reg.SPN_TRAP, Reg.SPN_TRAP_CYC]) ∧
  (∀ s : State, s.mach.cyclesOn = true → s.mach.memi.upsets = [] →
    Completes .inputDigestReady s fun t =>
      t.rd Reg.SPN_DIG_IN = crcWords (s.mach.digestWords (frameAddr s.mach.cycle) 1152) ∧ t.runState = s.mach.runState) ∧
  (∀ s : State, s.mach.cyclesOn = true →
    Completes .outputDigestReady s fun t =>
      t.rd Reg.SPN_DIG_OUT = s.mach.outputDigest ∧ t.fly = s.mach.fly ∧ t.runState = s.mach.runState) ∧
  ∀ (c v : Word) (s : State), s.mach.cyclesOn = true → s.mach.spin.stateDig = some (c, v) → s.mach.pair.digState = none →
    Completes .stateDigestReady s fun t =>
      t.rd Reg.SPN_DIG_STATE = v ∧ t.rd Reg.SPN_DIG_STATE_CYC = c ∧ t.spin.stateDig = none
        ∧ t.runState = s.mach.runState

/-! ## The Flyer (R118, R141 to R150, R154 to R158, R363) -/

/-- R98 to R100, R105, R118, R142 to R145, R363: the trains of a cycle leave at their instants, as frames on every launching port,
or directly after a frame that is still being sent, which sets launch_overrun. A launch forms each node's command by the hard rules
and keeps the node's Flyer state; a SOLO module sends it with its claim. A relayed launch repeats the active's slots, or sends
carriers when they are late. Without cycles nothing leaves. That the commands let time pass up to their instants is the model's
choice (log entry 12, DESIGN CHOICE). -/
def Obligations.TrainLaunches : Prop :=
  (∀ c ∈ [Instr.uplinkLaunch, .syncLaunch, .commandLaunch, .relayedCmdLaunch, .emitDeadline], ∀ s : State,
    s.mach.cyclesOn = false → Completes c s fun t => t = s.mach) ∧
  (∀ (s : State) (q : Mach), q = s.mach.atPhase 200 → s.mach.cyclesOn = true →
    Completes .uplinkLaunch s fun t =>
      t.out = (s.mach.launchPorts.map fun p =>
          Out.chain p (q.fixedStart p) (uplinkFrame q.launcher s.mach.cycle s.mach.nodeCount).symbols).reverse ++ s.mach.out ∧
      RegsKept s.mach t [Reg.CH_IRQ_STAT 0, Reg.CH_IRQ_STAT 1] ∧ t.mem = s.mach.mem ∧
      ∀ p : Port, t.get (F.CH_IRQ_STAT_launch_overrun (portIx p)) =
        if p ∈ s.mach.launchPorts ∧ q.upNs < (q.port p).busyNs then 1
        else s.mach.get (F.CH_IRQ_STAT_launch_overrun (portIx p))) ∧
  (∀ (s : State) (q : Mach), q = s.mach.atPhase (s.mach.periodNs - 1000) → s.mach.cyclesOn = true →
    q.syncOf.seq = s.mach.cycle + 2 ∧ q.syncOf.param = BitVec.ofNat 32 (s.mach.periodNs + 1000) ∧
    q.syncOf.carrier = s.mach.asCarrier ∧
    Completes .syncLaunch s fun t =>
      t.out = (s.mach.launchPorts.map fun p => Out.chain p (q.fixedStart p) q.syncOf.symbols).reverse ++ s.mach.out ∧
      RegsKept s.mach t [Reg.CH_IRQ_STAT 0, Reg.CH_IRQ_STAT 1] ∧ t.mem = s.mach.mem ∧
      ∀ p : Port, s.mach.launchPorts = [p] → ∀ n : Fin 128, t.chain.nodes[n] =
        if n.val < s.mach.nodeCount ∧ s.mach.reaches p n.val = true ∧ q.syncOf.acts = true then
          q.chain.nodes[n].sync (!s.mach.atZero p) q.syncOf.seq (q.arrives p n.val q.chain.nodes[n] (q.fixedStart p))
            q.syncOf.param.toNat
        else q.chain.nodes[n]) ∧
  (∀ (s : State) (q : Mach), q = (s.mach.atPhase 5500).creditRefill → s.mach.cyclesOn = true → s.mach.launchPorts ≠ [] →
    Completes .commandLaunch s fun t =>
      t.fly.launched = ((List.range q.drafts.length).zip q.drafts).map (fun x => x.2.cmd.slot x.1 (s.mach.cycle + 1)) ∧
      (∀ (n : Fin 128) (d : Draft), q.drafts[n.val]? = some d →
        t.fly.lanes[n] = FlyerLane.after d (s.mach.get F.FLY_LIMITS_min_dwell) (s.mach.get F.FLY_TRIM_trim_rest)) ∧
      (s.mach.role = .solo → s.mach.pair.formed = false → s.mach.pair.handoverAt = none →
        t.out = (s.mach.launchPorts.map fun p => Out.chain p (q.fixedStart p)
          (cmdFrame q.launcher (s.mach.cycle + 1) s.mach.nodeCount s.mach.cellDiv t.fly.launched).symbols).reverse
            ++ s.mach.out)) ∧
  (∀ s : State, s.mach.cyclesOn = true → s.mach.launchPorts = [] →
    Completes .commandLaunch s fun t => t = (s.mach.atPhase 5500).creditRefill) ∧
  (∀ (f : XlCmdx) (s : State) (q : Mach), q = s.mach.atPhase 7000 → s.mach.cyclesOn = true → s.mach.relaying = true →
    s.mach.pair.cmdxRx = some f → f.cycle = s.mach.cycle →
    (s.mach.pair.cmdxTime = true → Completes .relayedCmdLaunch s fun t =>
      t.out = (s.mach.launchPorts.map fun p => Out.chain p (q.fixedStart p)
          (cmdFrame q.relayer (s.mach.cycle + 1) s.mach.nodeCount s.mach.cellDiv f.slots).symbols).reverse ++ s.mach.out
        ∧ RegsKept s.mach t [Reg.CH_IRQ_STAT 0, Reg.CH_IRQ_STAT 1]) ∧
    (s.mach.pair.cmdxTime = false → Completes .relayedCmdLaunch s fun t =>
      t.out = (s.mach.launchPorts.map fun p => Out.chain p (q.fixedStart p)
          (carrierFrame q.launcher (s.mach.cycle + 1) s.mach.nodeCount s.mach.cellDiv).symbols).reverse ++ s.mach.out
        ∧ t.rd Reg.XL_CNT_RELAY_LATE = s.mach.counted Reg.XL_CNT_RELAY_LATE)) ∧
  (∀ s : State, s.mach.cyclesOn = true → (s.mach.inSection && s.mach.inFast) = false → s.mach.fly.emit.isSome = true →
    Completes .emitDeadline s fun t =>
      t.get F.FLY_STOP_src_emit = 0 ∧ t.fly = { s.mach.fly with missing := 0 } ∧ RegsKept s.mach t [Reg.FLY_STOP]) ∧
  ∀ s : State, s.mach.cyclesOn = true → (s.mach.inSection && s.mach.inFast) = false → s.mach.fly.emit = none →
    Completes .emitDeadline s fun t =>
      t.rd Reg.FLY_CNT_NOEMIT = s.mach.counted Reg.FLY_CNT_NOEMIT ∧ t.get F.FLY_IRQ_STAT_emit_missing = 1 ∧
      (s.mach.acting = false → t.fly = s.mach.fly) ∧
      (s.mach.acting = true → t.fly.missing = s.mach.fly.missing + 1 ∧
        (4 ≤ s.mach.fly.missing → s.mach.domOn .chain = true →
          t.get F.FLY_STOP_src_emit = 1 ∧ t.get F.FLY_STOP_latched = 1 ∧ t.get F.FLY_STOP_active = 1))

/-- R149, R150: a sample of the comparator stream sends the symbol that the band asks for, once the spacing is kept, out of every
port that sends the module's commands, and the nodes that it reaches take it; without a band it only ages the last one. -/
def Obligations.HysteresisSample : Prop :=
  (∀ (i : Int) (s : State), s.mach.fly.hyst.band = none →
    Completes (.hystSample i) s fun t => t = { s.mach with
      fly := { s.mach.fly with hyst := { s.mach.fly.hyst with since := min 255 (s.mach.fly.hyst.since + 1) } } }) ∧
  ∀ (i lo mid hi : Int) (x : TrimSym) (s : State), s.mach.fly.hyst.band = some (lo, mid, hi) → s.mach.hystActs = true →
    s.mach.fly.hyst.limited = false →
    s.mach.get F.FLY_HYST_spacing ≤ min 255 (s.mach.fly.hyst.since + 1) →
    s.mach.fly.hyst.toggles < s.mach.get F.FLY_HYST_max_toggles →
    hystWants s.mach.fly.hyst.lastSym lo mid hi i = some x → (x ≠ .rel → s.mach.hystQuiet = false) →
    Completes (.hystSample i) s fun t =>
      t.out = (s.mach.launchPorts.map fun p => Out.chain p s.mach.upNs [.ctl x.code]).reverse ++ s.mach.out
        ∧ t.fly.hyst.lastSym = some x ∧ t.fly.hyst.since = 0
        ∧ t.fly.hyst.toggles = s.mach.fly.hyst.toggles + (if x = .rel then 0 else 1)
        ∧ (∀ n : Fin 128, t.chain.nodes[n] =
            if n.val < s.mach.nodeCount ∧ (s.mach.launchPorts.any fun p => s.mach.reaches p n.val) = true then
              s.mach.chain.nodes[n].symbols [.ctl x.code]
            else s.mach.chain.nodes[n])
        ∧ t.mem = s.mach.mem ∧ RegsKept s.mach t [Reg.FLY_CNT_TOGGLE]
        ∧ t.rd Reg.FLY_CNT_TOGGLE = (if x = .rel then s.mach.rd Reg.FLY_CNT_TOGGLE else s.mach.counted Reg.FLY_CNT_TOGGLE)

/-- R92, R154 to R157, R463: a demand starts the stop broadcast: STOP symbols leave every launching port and every node that they
reach stops, and the run state goes to SAFE_HOLD for a source of the Flyer's own; with no demand left it ends after 100 µs; the
software's demand is made and withdrawn by register. That STOP_BROADCAST_END lets the 100 µs pass is the model's choice (log entry
12, DESIGN CHOICE). -/
def Obligations.StopBroadcast : Prop :=
  (∀ (src : StopSrc) (s : State), s.mach.demandThere src = true → s.mach.domOn .chain = true →
    s.mach.flag F.FLY_STOP_active = false →
    Completes (.stopBroadcastStart src) s fun t =>
      t.get (stopField src) = 1 ∧ t.get F.FLY_STOP_latched = 1 ∧ t.get F.FLY_STOP_active = 1
        ∧ t.get F.FLY_IRQ_STAT_stop_on = 1 ∧ t.rd Reg.FLY_CNT_STOP = s.mach.counted Reg.FLY_CNT_STOP
        ∧ (∀ p ∈ s.mach.stopPorts, Out.stopGroups p true ∈ t.out)
        ∧ (∀ n : Fin 128, t.chain.nodes[n] =
            if n.val < s.mach.nodeCount ∧ (s.mach.stopPorts.any fun p => s.mach.reaches p n.val) = true then
              s.mach.chain.nodes[n].symbols [.ctl ctlStop, .ctl ctlStop]
            else s.mach.chain.nodes[n])
        ∧ t.fly.stopSinceNs = s.mach.upNs ∧ t.mem = s.mach.mem
        ∧ (s.mach.flag F.FLY_STOP_latched = false → s.mach.runState.busy = true → src ≠ .safety → src ≠ .clock →
            s.mach.flag F.FLY_STOP_src_safety = false → s.mach.flag F.FLY_STOP_src_clock = false →
            t.runState = .safeHold ∧ t.get F.PWR_RUN_STAT_last_cause = Cause.flyerStop)
        ∧ (s.mach.runState.busy = false → t.runState = s.mach.runState)) ∧
  (∀ (src : StopSrc) (s : State), s.mach.demandThere src = false →
    Completes (.stopBroadcastStart src) s fun t => t = s.mach) ∧
  (∀ x : NodeModel, (x.symbols [.ctl ctlStop, .ctl ctlStop]).stopLatched = true
    ∧ (x.symbols [.ctl ctlStop, .ctl ctlStop]).applied = .block) ∧
  (∀ s : State, s.mach.flag F.FLY_STOP_active = true → s.mach.flag F.FLY_STOP_src_safety = false →
    s.mach.flag F.FLY_STOP_src_clock = false → s.mach.flag F.FLY_STOP_src_sw = false →
    s.mach.flag F.FLY_STOP_src_emit = false →
    Completes .stopBroadcastEnd s fun t =>
      t.get F.FLY_STOP_active = 0 ∧ t.get F.FLY_STOP_src_partner = 0 ∧ t.get F.FLY_IRQ_STAT_stop_off = 1
        ∧ t.get F.FLY_STOP_latched = s.mach.get F.FLY_STOP_latched
        ∧ t.out = (s.mach.stopPorts.map fun p => Out.stopGroups p false).reverse ++ s.mach.out
        ∧ s.mach.fly.stopSinceNs + 100000 ≤ t.upNs
        ∧ t.runState = s.mach.runState ∧ RegsKept s.mach t [Reg.FLY_STOP, Reg.FLY_IRQ_STAT]) ∧
  (∀ s : State, s.mach.flag F.FLY_STOP_src_safety = true ∨ s.mach.flag F.FLY_STOP_src_clock = true ∨
      s.mach.flag F.FLY_STOP_src_sw = true ∨ s.mach.flag F.FLY_STOP_src_emit = true →
    Completes .stopBroadcastEnd s fun t => t = s.mach) ∧
  (∀ (k : Nat) (s : State), s.mach.reachable Reg.FLY_CTRL = true →
    Completes (.swStop k) s fun t =>
      t.get F.FLY_STOP_src_sw = 1 ∧ t.get F.FLY_STOP_latched = 1 ∧ t.get F.FLY_STOP_active = 1 ∧ t.mem = s.mach.mem
        ∧ t.answer.1 = Err.ok) ∧
  ∀ (k : Nat) (s : State), s.mach.reachable Reg.FLY_CTRL = true →
    Completes (.swRelease k) s fun t =>
      t = { s.mach.ok with regs := t.regs } ∧ t.get F.FLY_STOP_src_sw = 0
        ∧ t.get F.FLY_STOP_active = s.mach.get F.FLY_STOP_active ∧ RegsKept s.mach t [Reg.FLY_STOP]

/-! ## The Privor chain (R91 to R121, R519) -/

/-- R91, R99 to R102, R108, R116, R121: what a port receives. Code violations are counted; valid slots and records are kept as copies of their
position; a bad header is counted and nothing else; a turn notice and a lost lock show a break; the lock returns. -/
def Obligations.ChainReception : Prop :=
  (∀ (p : Port) (l : List Symbol) (k : Nat) (s : State), s.mach.portUp p = true → p ∈ s.mach.chainPorts →
    (receiveFrame l).header = none →
    (∀ c ∈ [Instr.uplinkTrainRx p l k, .cmdTrainRx p l k], Completes c s fun t =>
      t = { s.mach with regs := t.regs } ∧ RegsKept s.mach t [Reg.CH_CNT_CV (portIx p), Reg.CH_CNT_HDR (portIx p)]
        ∧ t.rd (Reg.CH_CNT_HDR (portIx p)) = s.mach.counted (Reg.CH_CNT_HDR (portIx p))
        ∧ (t.rd (Reg.CH_CNT_CV (portIx p))).toNat =
          min 0xFFFFFFFF ((s.mach.rd (Reg.CH_CNT_CV (portIx p))).toNat + violations l))) ∧
  (∀ (p : Port) (l : List Symbol) (k : Nat) (h : ChainFrame) (s : State), s.mach.portUp p = true →
    p ∈ s.mach.chainPorts → (receiveFrame l).header = some h →
    (h.kind = kindUplink → h.seq = s.mach.cycle → s.mach.chain.frozen = false →
      Completes (.uplinkTrainRx p l k) s fun t =>
        (t.port p).slots = (s.mach.port p).slots
            ++ (((receiveFrame (l.take k)).slots s.mach.nodeCount).filter fun x => slotValid x h.seq).map
              (fun x => (x.pos, x.word))
          ∧ (t.port p).records = (s.mach.port p).records ∧ t.runState = s.mach.runState ∧ t.mem = s.mach.mem) ∧
    (h.kind = kindCmd → h.seq = s.mach.cycle + 1 →
      Completes (.cmdTrainRx p l k) s fun t =>
        (t.port p).records = (s.mach.port p).records
            ++ ((s.mach.tailRecs h.seq ((receiveFrame l).records s.mach.nodeCount s.mach.cellDiv)).filter fun r =>
              s.mach.recordValid r h.seq).map (fun r => (h.seq, r.pos, r.words))
          ∧ (t.port p).slots = (s.mach.port p).slots ∧ t.runState = s.mach.runState ∧ t.mem = s.mach.mem) ∧
    (h.kind = kindCmd → h.seq = s.mach.cycle → s.mach.chain.frozen = false →
      Completes (.cmdTrainRx p l k) s fun t =>
        (t.port p).records = (s.mach.port p).records
            ++ ((s.mach.tailRecs h.seq ((receiveFrame (l.take k)).records s.mach.nodeCount s.mach.cellDiv)).filter fun r =>
              s.mach.recordValid r h.seq).map (fun r => (h.seq, r.pos, r.words))
          ∧ (t.port p).slots = (s.mach.port p).slots)) ∧
  (∀ (p : Port) (l : List Symbol) (s : State), s.mach.portUp p = true →
    Completes (.mgmtResponseRx p l) s fun t =>
      t.chain.lastMgmt = ((receiveFrame l).response.orElse fun _ => s.mach.chain.lastMgmt) ∧
      t = { s.mach with regs := t.regs, chain := { s.mach.chain with lastMgmt := t.chain.lastMgmt } } ∧
      RegsKept s.mach t [Reg.CH_CNT_CV (portIx p), Reg.CH_CNT_HDR (portIx p)]) ∧
  (∀ (p : Port) (n : Byte) (s : State), s.mach.portUp p = true →
    Completes (.turnNoticeRx p n) s fun t =>
      t.get (F.CH_LINK_STAT_turn_pos (portIx p)) = n.toNat % 128 ∧ (t.port p).turnSide = n.getLsbD 7
        ∧ t.chain.breakPend = true ∧ t.chain.nodes = s.mach.chain.nodes
        ∧ RegsKept s.mach t [Reg.CH_LINK_STAT (portIx p)]) ∧
  (∀ (p : Port) (s : State), s.mach.domOn .chain = true →
    Completes (.portLockLoss p) s fun t =>
      t.get (F.CH_LINK_STAT_rx_lock (portIx p)) = 0 ∧ (t.port p).clean = 0
        ∧ (p ∈ s.mach.chainPorts → t.chain.breakPend = true) ∧ (p = .a → t.get F.XL_STAT_claim_out = 0)
        ∧ (s.mach.flag (F.CH_LINK_STAT_rx_lock (portIx p)) = true → t.markOf (.lock p) = some s.mach.upNs)
        ∧ t.runState = s.mach.runState ∧ t.mem = s.mach.mem) ∧
  ∀ (p : Port) (s : State), s.mach.portUp p = true →
    Completes (.portRelock p) s fun t =>
      t.get (F.CH_LINK_STAT_rx_lock (portIx p)) = 1 ∧ RegsKept s.mach t [Reg.CH_LINK_STAT (portIx p)]
        ∧ (if p = .a then ReFunc.chainA else .chainB) ∉ t.power.portRetried

/-- R87, R92, R111 to R114, R120, R121, R468, R519: the chain is walked, loaded and repaired. In OFF a walk begins ROVING and a load
LOADING, and their ends come with time, as an idle block shows: a walk without a lock fails, one that passes stores what it found, a
load brings every node out of its ROM state. Launch and transmitter follow their bits, and the STOP symbols follow them; a broken
ring closes after its clean cycles and the echoes of every position; restarted nodes join and are released; a position missing at
both ends stops the string. When a walk or load in progress is looked at (log entry 69) and CHA's node_join for a restarted node
(log entry 68) are the model's choices (DESIGN CHOICE). -/
def Obligations.ChainWalkAndRepair : Prop :=
  (∀ (k : Nat) (p : Port) (w : WalkResult) (l : LoadResult) (s : State), s.mach.reachable (Reg.CH_CTRL (portIx p)) = true →
    (s.mach.runState = .off →
      (Completes (.rove k p w) s fun t =>
        t.chain.found = w ∧ t.runState = .off ∧ t.chain.walkNo = s.mach.chain.walkNo + 1 ∧ t.answer.1 = Err.ok ∧
        (∃ j : ChainJob, t.chain.job = some j ∧
          j.walk = some { w with locked := (w.locked && s.mach.chainPorts.all fun q =>
            s.mach.portUp q && s.mach.flag (F.CH_LINK_STAT_tx_on (portIx q))) }) ∧
        ∀ q ∈ s.mach.chainPorts, t.get (F.CH_LINK_STAT_rove_state (portIx q)) = 1) ∧
      (Completes (.boot k p l) s fun t =>
        t.chain.loaded = l ∧ t.runState = .off ∧ t.answer.1 = Err.ok ∧
        t.chain.job = some ⟨s.mach.upNs, s.mach.upNs + s.mach.loadNs s.mach.positions s.mach.chain.ids l, none, l⟩ ∧
        ∀ q ∈ s.mach.chainPorts, t.get (F.CH_LINK_STAT_rove_state (portIx q)) = 2)) ∧
    (s.mach.runState ≠ .off → ∀ c ∈ [Instr.rove k p w, .boot k p l],
      Completes c s fun t => t = s.mach.refuse Err.refusedState)) ∧
  (∀ (j : ChainJob) (w : WalkResult) (m : Mach), m.chain.job = some j → j.walk = some w → w.locked = false →
    m.get (F.CH_LINK_STAT_rove_state 0) = 1 → j.loadNs ≤ m.upNs + 8 →
    ∃ t : Mach, step ⟨m, []⟩ = .next ⟨t, []⟩ ∧ t.chain.job = none ∧
      ∀ q ∈ m.chainPorts, t.get (F.CH_LINK_STAT_rove_state (portIx q)) = 4
        ∧ t.get (F.CH_IRQ_STAT_rove_fail (portIx q)) = 1) ∧
  (∀ (j : ChainJob) (w : WalkResult) (m : Mach), m.chain.job = some j → j.walk = some w → w.load.failed = [] →
    m.get (F.CH_LINK_STAT_rove_state 0) = 2 → j.endNs ≤ m.upNs + 8 →
    ∃ t : Mach, step ⟨m, []⟩ = .next ⟨t, []⟩ ∧ t.chain.job = none ∧ t.chain.ids = w.nodes ∧ t.chain.rejoined = [] ∧
      t.get F.FLY_TIME_C_measured = 1 ∧
      ∀ q ∈ m.chainPorts, t.get (F.CH_LINK_STAT_rove_state (portIx q)) = 3
        ∧ t.get (F.CH_IRQ_STAT_rove_done (portIx q)) = 1) ∧
  (∀ (j : ChainJob) (m : Mach), m.chain.job = some j → j.walk = none → j.endNs ≤ m.upNs + 8 →
    ∃ t : Mach, step ⟨m, []⟩ = .next ⟨t, []⟩ ∧ t.chain.job = none ∧
      (m.canLoad' m.chain.ids = true → j.load.failed = [] →
        (∀ n : Fin 128, n.val < m.nodeCount → t.chain.nodes[n].rom = false) ∧
        ∀ q ∈ m.chainPorts, t.get (F.CH_LINK_STAT_rove_state (portIx q)) = 3) ∧
      (m.canLoad' m.chain.ids = false →
        ∀ q ∈ m.chainPorts, t.get (F.CH_LINK_STAT_rove_state (portIx q)) = 4)) ∧
  (∀ (j : ChainJob) (m : Mach), m.chain.job = some j → m.upNs + 8 < j.loadNs → m.upNs + 8 < j.endNs →
    ∃ t : Mach, step ⟨m, []⟩ = .next ⟨t, []⟩ ∧ t.chain.job = some j ∧
      ∀ q ∈ m.chainPorts, t.get (F.CH_LINK_STAT_rove_state (portIx q)) = m.get (F.CH_LINK_STAT_rove_state (portIx q))) ∧
  (∀ (k : Nat) (p : Port) (on : Bool) (s : State), s.mach.reachable (Reg.CH_CTRL (portIx p)) = true →
    Completes (.launch k p on) s fun t =>
      t.flag (F.CH_CTRL_launch (portIx p)) = on ∧ RegsKept s.mach t [Reg.CH_CTRL (portIx p)]
        ∧ t.get (F.CH_CTRL_tx_en (portIx p)) = s.mach.get (F.CH_CTRL_tx_en (portIx p))
        ∧ (s.mach.flag F.FLY_STOP_active = false → t = { s.mach.ok with regs := t.regs })
        ∧ (s.mach.flag F.FLY_STOP_active = true → p ∈ t.stopPorts → p ∉ s.mach.stopPorts →
            t.out = .stopGroups p true :: s.mach.out)
        ∧ (s.mach.flag F.FLY_STOP_active = true → p ∉ t.stopPorts → p ∈ s.mach.stopPorts →
            t.out = .stopGroups p false :: s.mach.out)) ∧
  (∀ (k : Nat) (p : Port) (on : Bool) (s : State), s.mach.reachable (Reg.CH_CTRL (portIx p)) = true →
    ((on && s.mach.pairRing && p == .b) = false → Completes (.txEn k p on) s fun t =>
      RegsKept s.mach t [Reg.CH_CTRL (portIx p), Reg.CH_LINK_STAT (portIx p)]
        ∧ t.flag (F.CH_CTRL_tx_en (portIx p)) = on ∧ t.flag (F.CH_LINK_STAT_tx_on (portIx p)) = on
        ∧ (s.mach.flag F.FLY_STOP_active = false → t = { s.mach.ok with regs := t.regs })) ∧
    ((on && s.mach.pairRing && p == .b) = true →
      Completes (.txEn k p on) s fun t => t = s.mach.refuse Err.refusedState)) ∧
  (∀ (rt : List (Nat × Nat × Nat)) (o : Bool) (s : State), s.mach.ringBroken = true → s.mach.cyclesOn = true →
    (s.mach.chainPorts.all fun p => decide (1000 ≤ (s.mach.port p).clean)) = true →
    (s.mach.pairRing = true → o = true) → (∀ n < s.mach.nodeCount, ∃ r ∈ rt, r.1 = n) →
    Completes (.ringClose rt o) s fun t =>
      t.ringBroken = false ∧ t.get (F.CH_LINK_STAT_ring_broken 0) = 0 ∧ t.get (F.CH_LINK_STAT_ring_broken 1) = 0
        ∧ t.runState = s.mach.runState ∧ t.mem = s.mach.mem) ∧
  (∀ (l : List Nat) (s : State), s.mach.runState = .run → s.mach.posZero = true → s.mach.portUp .a = true →
    s.mach.flag F.FLY_STOP_active = false →
    Completes (.periodicAssign l) s fun t =>
      t.out = .chain .a (s.mach.gapStart .a s.mach.upNs 28)
          (enumFrame s.mach.launcher s.mach.chain.walkNo 1 0 0 0).symbols :: s.mach.out ∧
      ∀ n : Fin 128, n.val ∈ l → n.val < s.mach.nodeCount →
        n.val ∈ t.chain.rejoined ∧ t.get (F.CH_IRQ_STAT_node_join 0) = 1 ∧
        t.chain.nodes[n] = if s.mach.reaches .a n.val then NodeModel.restarted.assign n.val else .restarted) ∧
  (∀ (n : Fin 128) (x : NodeId) (l : LoadResult) (s : State), s.mach.runState = .run → s.mach.mayManage = true →
    n.val ∈ s.mach.chain.rejoined → s.mach.slotBit n.val 15 = false → s.mach.slotBit n.val 14 = false →
    s.mach.stopDemanded = false → s.mach.chain.ids[n.val]? = some x → s.mach.hasNodeImage x = true → n.val ∉ l.failed →
    Completes (.nodeRejoinRelease n.val l) s fun t =>
      n.val ∉ t.chain.rejoined ∧ t.chain.nodes[n].rom = false ∧ t.regs = s.mach.regs ∧ t.mem = s.mach.mem ∧
      (s.mach.portUp .a = true → s.mach.ringBroken = false → s.mach.chain.breakPend = false → n.val < s.mach.nodeCount →
        s.mach.flag F.FLY_STOP_active = false → s.mach.flag F.SAF_INPUT_floop = true →
        t.chain.nodes[n].stopLatched = false ∧ t.chain.nodes[n].autoBlock = false ∧ t.chain.nodes[n].applied = .block)) ∧
  ∀ (n : Nat) (s : State), s.mach.ringBroken = true → 1000 ≤ s.mach.chain.bothEnds.toList.getD n 0 →
    n < s.mach.nodeCount →
    Completes (.positionIsolated n) s fun t =>
      n ∈ t.chain.isolated ∧
      (s.mach.runState = .run → s.mach.power.distaffAbsent = false → s.mach.role ≠ .standby →
        t.runState = .stopping ∧ t.get F.PWR_RUN_STAT_last_cause = Cause.hostStop)

/-! ## Measurements on the chain (R226, R284, R289, R295 to R297) -/

/-- R226, R284, R289, R295 to R297: open-wire sweeps go wire by wire and node by node; the poll reads the program's results; the
quiet mode reaches every node; a lane self-test ends with its result, or with none when a stop was asked for. That OW_SWEEP_PERIOD
and OW_NODE_TIMEOUT let their intervals pass is the model's choice (log entry 12, DESIGN CHOICE). -/
def Obligations.ChainMeasurements : Prop :=
  (∀ (k : Nat) (s : State), s.mach.reachable Reg.SNS_MEAS_CTRL = true → s.mach.flag F.SNS_MEAS_STAT_sweep_busy = false →
    s.mach.role ≠ .standby → s.mach.sweepMay = true → s.mach.nodeCount ≠ 0 →
    Completes (.owNow k) s fun t =>
      t.get F.SNS_MEAS_STAT_sweep_busy = 1 ∧ t.get F.SNS_MEAS_STAT_ow_node = 0 ∧ t.get F.SNS_MEAS_STAT_ow_wire = 0
        ∧ t.sense.sweep = s.mach.positions ∧ RegsKept s.mach t [Reg.SNS_MEAS_STAT] ∧ t.answer.1 = Err.ok) ∧
  (∀ (k : Nat) (s : State), s.mach.reachable Reg.SNS_MEAS_CTRL = true → s.mach.flag F.SNS_MEAS_STAT_sweep_busy = true →
    Completes (.owAbort k) s fun t =>
      t = { s.mach.ok with sense := { s.mach.sense with sweepAbort := true } }) ∧
  (∀ s : State, s.mach.sweepMay = true → s.mach.flag F.SNS_MEAS_STAT_sweep_busy = false →
    s.mach.get F.SNS_MEAS_CTRL_ow_period ≠ 0 → s.mach.nodeCount ≠ 0 →
    Completes (.owSweepPeriod false) s fun t =>
      (∀ t0, s.mach.markOf .sweep = some t0 → t0 + s.mach.get F.SNS_MEAS_CTRL_ow_period * 1000000000 ≤ t.upNs)
        ∧ t.get F.SNS_MEAS_STAT_sweep_busy = 1 ∧ t.get F.SNS_MEAS_STAT_ow_node = 0 ∧ t.get F.SNS_MEAS_STAT_ow_wire = 0
        ∧ t.sense.sweep = s.mach.positions ∧ RegsKept s.mach t [Reg.SNS_MEAS_STAT]) ∧
  (∀ (l : List Nat) (s : State), s.mach.sweepMay = true → s.mach.flag F.SNS_MEAS_STAT_sweep_busy = false →
    s.mach.domOn .spin0 = true → l = (s.mach.positions.filter fun n => requestOw (s.mach.requestOf n)) → l ≠ [] →
    Completes (.owSweepPeriod true) s fun t =>
      t.get F.SNS_MEAS_STAT_sweep_busy = 1 ∧ t.sense.sweep = l ∧ RegsKept s.mach t [Reg.SNS_MEAS_STAT]) ∧
  (∀ (x : BitVec 8) (n : Nat) (rest : List Nat) (s : State), s.mach.sweepMay = true →
    s.mach.flag F.SNS_MEAS_STAT_sweep_busy = true → s.mach.sense.sweep = n :: rest → s.mach.sense.sweepAbort = false →
    s.mach.get F.SNS_MEAS_STAT_ow_wire < s.mach.cellsOf n → s.mach.cellsOf n ≤ 6 → n < 128 →
    Completes (.owWireTest x) s fun t =>
      t.get F.SNS_MEAS_STAT_ow_wire = s.mach.get F.SNS_MEAS_STAT_ow_wire + 1 ∧ t.get F.SNS_MEAS_STAT_ow_node = n
        ∧ t.sense.sweep = n :: rest ∧ (x = 0 → t.rd Reg.SNS_CNT_OW = s.mach.counted Reg.SNS_CNT_OW)
        ∧ (x ≠ 0 → t.rd Reg.SNS_CNT_NODE_REF = s.mach.counted Reg.SNS_CNT_NODE_REF)) ∧
  (∀ (n : Nat) (rest : List Nat) (s : State), s.mach.sweepMay = true →
    s.mach.flag F.SNS_MEAS_STAT_sweep_busy = true → s.mach.sense.sweep = n :: rest → s.mach.sense.sweepAbort = false →
    Completes .owNodeTimeout s fun t =>
      t.sense.sweep = rest ∧ (∀ t0, s.mach.markOf .wire = some t0 → t0 + 10000000 ≤ t.upNs)
        ∧ t.rd Reg.SNS_CNT_NODE_REF = s.mach.counted Reg.SNS_CNT_NODE_REF ∧
      (rest = [] → t.get F.SNS_MEAS_STAT_sweep_busy = 0 ∧ t.get F.SNS_MEAS_IRQ_STAT_sweep_done = 1) ∧
      (∀ n', rest.head? = some n' → n' < 128 → t.get F.SNS_MEAS_STAT_ow_node = n' ∧ t.get F.SNS_MEAS_STAT_ow_wire = 0)) ∧
  (∀ (l : List Nat) (s : State), s.mach.power.distaffAbsent = false → s.mach.domOn .spin0 = true →
    s.mach.domOn .sense = true → s.mach.power.estSeen = true →
    Completes (.requestWordPoll l) s fun t =>
      t.rd Reg.SNS_SPEC_LEA = BitVec.ofInt 32 (intForm (s.mach.laneGet 0 0x1180)) ∧ t.mem = s.mach.mem
        ∧ t.runState = s.mach.runState ∧
      (s.mach.mayManage = true → s.mach.domOn .chain = true → s.mach.cyclesOn = true →
        ∀ n : Fin 128, n.val < s.mach.nodeCount → n.val ∉ l → t.sense.reqSeen[n] = s.mach.requestOf n.val)) ∧
  (∀ s : State, s.mach.mayManage = true → s.mach.domOn .chain = true → s.mach.domOn .spin0 = true →
    s.mach.domOn .sense = true → s.mach.power.distaffAbsent = false →
    Completes .quietModeWrite s fun t =>
      t.flag F.SNS_MEAS_STAT_quiet = s.mach.quietMode ∧ RegsKept s.mach t [Reg.SNS_MEAS_STAT] ∧
      (s.mach.portUp .a = true → s.mach.ringBroken = false → s.mach.chain.breakPend = false →
        s.mach.flag F.FLY_STOP_active = false →
        ∀ n : Fin 128, n.val < s.mach.nodeCount → s.mach.chain.nodes[n].rom = false →
          t.chain.nodes[n].quiet = s.mach.quietMode)) ∧
  (∀ (f : BitVec 128) (s : State), s.mach.get F.SPN_STAT_state = 4 → s.mach.spin.stLeft = 0 → s.mach.spin.stopPend = true →
    Completes (.laneSelftestEnd f) s fun t =>
      t.get F.SPN_STAT_state = 1 ∧ t.get F.SPN_STAT_section = 0 ∧ t.get F.SPN_ST_STAT_result ≠ 1
        ∧ RegsKept s.mach t [Reg.SPN_STAT, Reg.SPN_ST_STAT]) ∧
  ∀ (f : BitVec 128) (s : State), s.mach.get F.SPN_STAT_state = 4 → s.mach.spin.stLeft = 0 → s.mach.spin.stopPend = false →
    Completes (.laneSelftestEnd f) s fun t =>
      t.get F.SPN_STAT_state = 2 ∧ t.get F.SPN_ST_STAT_result = (if f = 0 then 2 else 3)
        ∧ t.get F.SPN_IRQ_STAT_st_done = 1
        ∧ ∀ k : Fin 4, t.rd (Reg.SPN_ST_FAIL k.val) = f.extractLsb' (32 * k.val) 32

/-! ## The pair (R348 to R365, R509) -/

/-- R350 to R353, R356, R509: the claim. It is taken when CLAIM_IN has read released long enough, settles, is given up with a
cause, and its settle is aborted when CLAIM_IN asserts; a standby that cannot take it trips; a hand-over is planned. That CLAIM_TAKE
and CLAIM_SETTLE_END let their intervals pass is the model's choice (log entry 12, DESIGN CHOICE). -/
def Obligations.ClaimMoves : Prop :=
  (∀ (t0 : Nat) (s : State), s.mach.pair.formed = true → s.mach.role = .standby → s.mach.flag F.XL_STAT_claim_in = false →
    s.mach.pair.releasedNs = some t0 → (s.mach.pair.partnerClaim && s.mach.flag F.XL_STAT_lease_ok) = false →
    s.mach.lowerTakes = true →
    Completes .claimTake s fun t =>
      t.role = .active ∧ t.get F.XL_STAT_claim_out = 1 ∧ t.pair.settle = true ∧ t.get F.XL_SWITCH_trigger = 0
        ∧ t0 + 10000 ≤ t.upNs ∧ t.pair.settleNs = t.upNs ∧ t.rd Reg.XL_CNT_SWITCH = s.mach.counted Reg.XL_CNT_SWITCH ∧ t.get F.XL_IRQ_STAT_switchover = 1
        ∧ t.runState = s.mach.runState ∧ t.mem = s.mach.mem) ∧
  (∀ (t0 k : Nat) (s : State) (q : Mach), q = s.mach.passUntil t0 10000 → s.mach.pair.formed = true → s.mach.role = .standby →
    s.mach.flag F.XL_STAT_claim_in = false → s.mach.pair.releasedNs = some t0 →
    (s.mach.pair.partnerClaim && s.mach.flag F.XL_STAT_lease_ok) = false → s.mach.lowerTakes = false →
    q.takeTrigger = some k → s.mach.readyCore = true →
    Completes .claimTake s fun t =>
      t.role = .active ∧ t.get F.XL_STAT_claim_out = 1 ∧ t.get F.XL_SWITCH_trigger = k
        ∧ t.pair.settle = !(k == 0 && s.mach.pair.noticeCause == some .handover)
        ∧ t.rd Reg.XL_CNT_SWITCH = s.mach.counted Reg.XL_CNT_SWITCH ∧ t.get F.XL_IRQ_STAT_switchover = 1
        ∧ t.runState = s.mach.runState ∧ t.mem = s.mach.mem) ∧
  (∀ s : State, s.mach.pair.formed = true → s.mach.role = .standby → s.mach.flag F.XL_STAT_claim_in = false →
    s.mach.pair.releasedNs.isSome = true → s.mach.pair.partnerClaim = true → s.mach.flag F.XL_STAT_lease_ok = true →
    Completes .claimTake s fun t =>
      t.get F.XL_IRQ_STAT_claim_fault = 1 ∧ t.role = .standby ∧ RegsKept s.mach t [Reg.XL_IRQ_STAT]) ∧
  (∀ s : State, s.mach.pair.settle = true →
    Completes .claimSettleEnd s fun t =>
      t.pair = { s.mach.pair with settle := false, settled := true } ∧ t.regs = s.mach.regs ∧ t.mem = s.mach.mem
        ∧ s.mach.pair.settleNs + s.mach.get F.XL_CFG_settle * 1000 ≤ t.upNs ∧ t.out = s.mach.out) ∧
  (∀ (c : ClaimCause) (s : State), s.mach.holdsClaim = true →
    Completes (.claimRelease c) s fun t =>
      t.get F.XL_STAT_claim_out = 0 ∧ t.get F.XL_SWITCH_cause = claimCode c ∧ t.get F.XL_IRQ_STAT_switchover = 1
        ∧ t.role = (if s.mach.pair.formed then .standby else s.mach.role)
        ∧ (s.mach.xlUp = true → XlSent s.mach t (.notice (.release c))) ∧ t.runState = s.mach.runState
        ∧ t.mem = s.mach.mem) ∧
  (∀ s : State, s.mach.flag F.XL_STAT_claim_in = false → s.mach.pair.settle = true → s.mach.pair.formed = true →
    Completes (.claimInChange true) s fun t =>
      t.get F.XL_STAT_claim_in = 1 ∧ t.get F.XL_STAT_claim_out = 0 ∧ t.role = .standby ∧ t.pair.settle = false
        ∧ t.runState = s.mach.runState) ∧
  (∀ s : State, s.mach.flag F.XL_STAT_claim_in = true →
    Completes (.claimInChange false) s fun t =>
      t.get F.XL_STAT_claim_in = 0 ∧ t.role = s.mach.role ∧ t.pair = { s.mach.pair with releasedNs := some s.mach.upNs }
        ∧ t.runState = s.mach.runState ∧ t.mem = s.mach.mem) ∧
  (∀ s : State, s.mach.pair.formed = true → s.mach.role = .standby → s.mach.flag F.XL_STAT_claim_in = false →
    s.mach.runState.busy = true → s.mach.readyCore = false →
    Completes .claimLapseTrip s fun t => CauseTaken s.mach t .protReq) ∧
  ∀ (k : Nat) (s : State), s.mach.reachable Reg.XL_CTRL = true → s.mach.role = .active → s.mach.runState = .run →
    s.mach.flag F.XL_STAT_partner_ready = true →
    Completes (.handover k) s fun t =>
      t = { s.mach.ok with pair := { s.mach.pair with handoverAt := some (s.mach.firstCycleAhead 100000) } }

/-- R354, R355, R358, R359, R364: what the cross link receives. A bad frame is counted alone. A good frame shows the link alive; a
CYCLE frame, command slots, a digest, slots and records of this cycle's frame and of the next one's, a lease, a mirrored item and its
acknowledgement, and a notice are kept or acted on as their kind says. -/
def Obligations.CrossLinkFrames : Prop :=
  ∀ s : State, s.mach.xlUp = true →
    (∀ (f : XlCycle) (g : XlCmdx) (h : XlLease) (n : NoticeKind) (i : MirrorItem) (k : DigestKind) (w : WalkResult) (l : List SlotRx)
      (r : List RecordRx) (x v : Word) (ws : List Word) (st : List (BitVec 20 × Word)) (b : Bool) (a : Int) (o : Nat),
      ∀ c ∈ [Instr.cycle f b a true, .cmdx g b true, .digest x k v true, .slotx x l r b true, .lease h b true, .mirror x i w true,
        .ack x b true, .notice n true, .snap o ws [] true, .store st true],
      Completes c s fun t => t = { s.mach with regs := t.regs } ∧ RegsKept s.mach t [Reg.XL_CNT_LINK_ERR]
        ∧ t.rd Reg.XL_CNT_LINK_ERR = s.mach.counted Reg.XL_CNT_LINK_ERR) ∧
    (∀ (f : XlCycle) (b : Bool) (a : Int), Completes (.cycle f b a false) s fun t =>
      t.pair.cycleRx = some f ∧ t.pair.cycleLate = b ∧ t.pair.cycleGap = 0 ∧ t.get F.XL_STAT_link_ok = 1) ∧
    (∀ (f : XlCmdx) (b : Bool), s.mach.pair.formed = true → Completes (.cmdx f b false) s fun t =>
      t = { s.mach with regs := t.regs, pair := { s.mach.pair with cmdxRx := some f, cmdxTime := b } }
        ∧ RegsKept s.mach t [Reg.XL_STAT] ∧ t.get F.XL_STAT_link_ok = 1) ∧
    (∀ (c : Word) (k : DigestKind) (v : Word), s.mach.pair.formed = true → Completes (.digest c k v false) s fun t =>
      (k = .input → t.pair.digIn = some (c, v)) ∧ (k = .output → t.pair.digOut = some (c, v)) ∧
      (k = .state → t.pair.digState = some (c, v)) ∧
      (k = .state → s.mach.rd Reg.SPN_DIG_STATE_CYC = c →
        (s.mach.rd Reg.SPN_DIG_STATE = v → t.pair.stateOk = true) ∧
        (s.mach.rd Reg.SPN_DIG_STATE ≠ v → t.pair.stateOk = false ∧ t.get F.XL_STAT_div = 3
          ∧ t.rd Reg.XL_CNT_DIV_STATE = s.mach.counted Reg.XL_CNT_DIV_STATE ∧ t.rd Reg.XL_DIV_CYC = c))) ∧
    (∀ (l : List SlotRx) (r : List RecordRx), s.mach.pair.formed = true →
      (s.mach.chain.frozen = false → Completes (.slotx s.mach.cycle l r true false) s fun t =>
        t.pair.slotxSlots = s.mach.pair.slotxSlots
          ++ (l.filter fun x => decide (x.pos < s.mach.nodeCount) && slotValid x s.mach.cycle).map (fun x => (x.pos, x.word))
        ∧ t.pair.slotxRecs = s.mach.pair.slotxRecs
          ++ (r.filter fun x => s.mach.recordValid x s.mach.cycle).map (fun x => (s.mach.cycle, x.pos, x.words))
        ∧ RegsKept s.mach t [Reg.XL_STAT] ∧ t.mem = s.mach.mem) ∧
      (Completes (.slotx (s.mach.cycle + 1) l r true false) s fun t =>
        t.pair.slotxSlots = s.mach.pair.slotxSlots
        ∧ t.pair.slotxRecs = s.mach.pair.slotxRecs
          ++ (r.filter fun x => s.mach.recordValid x (s.mach.cycle + 1)).map (fun x => (s.mach.cycle + 1, x.pos, x.words))
        ∧ RegsKept s.mach t [Reg.XL_STAT] ∧ t.mem = s.mach.mem)) ∧
    (∀ (f : XlLease) (b : Bool), Completes (.lease f b false) s fun t =>
      t.get F.XL_STAT_partner_slot = f.slot.toNat ∧ t.get F.XL_STAT_partner_role = f.role.toNat
        ∧ t.get F.XL_STAT_partner_run = f.runState.toNat ∧ t.flag F.XL_STAT_partner_ready = f.ready
        ∧ t.get F.XL_STAT_lease_ok = 1 ∧ t.pair.partnerClaim = f.claim ∧ t.pair.partnerProg = f.progId
        ∧ t.pair.partnerBank = f.bankCrc ∧ t.pair.alike = b ∧ t.markOf .lease = some s.mach.upNs) ∧
    (∀ (q c : Word) (k : Nat) (x : Word) (w : WalkResult), k < 4 → s.mach.role = .standby →
      Completes (.mirror q (.flyBlock k x c) w false) s fun t =>
        t.rd (Reg.FLY_BLOCK k) = x ∧ XlSent s.mach t (.ack q true) ∧ t.mem = s.mach.mem
          ∧ t.fly.blockPend = (if s.mach.cyclesOn then s.mach.fly.blockPend ++ [(c, k, x)] else s.mach.fly.blockPend)) ∧
    (∀ (q c v : Word) (w : WalkResult), s.mach.role = .standby → s.mach.bankCrc s.mach.shadowBase ≠ v →
      Completes (.mirror q (.swapReq c v) w false) s fun t =>
        t.pair.notReady = true ∧ t.get F.XL_STAT_ready = 0 ∧ XlSent s.mach t (.ack q false) ∧ t.spin = s.mach.spin) ∧
    (∀ (q : Word) (w : WalkResult), s.mach.role = .standby → s.mach.pair.formed = true → s.mach.runState = .run →
      Completes (.mirror q (.runState 4 2) w false) s fun t =>
        t.runState = .stopping ∧ t.get F.PWR_RUN_STAT_last_cause = Cause.hostStop) ∧
    (∀ (q : Word) (b : Bool) (w : MirrorWait) (k : Nat) (x c : Word), s.mach.pair.mirror.find? (·.seq == q) = some w →
      w.item = .flyBlock k x c → k < 4 → Completes (.ack q b false) s fun t =>
        t.rd (Reg.FLY_BLOCK k) = x ∧ t.pair.mirror = s.mach.pair.mirror.filter (·.seq != q) ∧ t.mem = s.mach.mem) ∧
    (∀ c : ClaimCause, Completes (.notice (.release c) false) s fun t =>
      t.pair = { s.mach.pair with noticeNs := some s.mach.upNs, noticeCause := some c, partnerClaim := false }
        ∧ RegsKept s.mach t [Reg.XL_STAT]) ∧
    (s.mach.pair.formed = true → s.mach.domOn .chain = true → Completes (.notice .stop false) s fun t =>
      t.get F.FLY_STOP_src_partner = 1 ∧ t.get F.FLY_STOP_active = 1 ∧ t.get F.FLY_STOP_latched = 1)

/-- R355, R358, R360: a partner whose lease lapses or whose link is dead is lost, and an item that nothing acknowledges is taken
alone; unequal inputs of a complete pair of digests are a divergence, unequal outputs of equal inputs the third time. That
LEASE_EXPIRY and MIRROR_ACK_TIMEOUT let their intervals pass is the model's choice (log entry 12, DESIGN CHOICE). -/
def Obligations.PartnerLossAndDivergence : Prop :=
  (∀ c ∈ [(Instr.leaseExpiry, F.XL_STAT_lease_ok), (.xlinkDead, F.XL_STAT_link_ok)], ∀ s : State,
    Completes c.1 s fun t =>
      t.get c.2 = 0 ∧ (c.1 = .leaseExpiry → ∀ t0, s.mach.markOf .lease = some t0 → t0 + 2000000 ≤ t.upNs) ∧ (s.mach.pair.partnerLost = false → t.pair.partnerLost = true ∧ t.get F.XL_STAT_ready = 0
        ∧ t.get F.XL_IRQ_STAT_partner_lost = 1 ∧ t.pair.mirror = [])) ∧
  (∀ (w : MirrorWait) (rest : List MirrorWait) (k : Nat) (x c : Word) (s : State), s.mach.role ≠ .standby →
    s.mach.pair.mirror = w :: rest → w.item = .flyBlock k x c → k < 4 →
    Completes .mirrorAckTimeout s fun t =>
      t.rd (Reg.FLY_BLOCK k) = x ∧ w.ns + 10000 ≤ t.upNs ∧ t.pair = { s.mach.pair with mirror := rest } ∧ RegsKept s.mach t [Reg.FLY_BLOCK k]) ∧
  (∀ s : State, s.mach.role = .standby →
    Completes .mirrorAckTimeout s fun t =>
      t.rd Reg.XL_CNT_MIRROR_NACK = s.mach.counted Reg.XL_CNT_MIRROR_NACK ∧ t.get F.XL_STAT_ready = 0
        ∧ t.pair = { s.mach.pair with notReady := true }) ∧
  (∀ (vo : Word) (s : State), s.mach.pair.formed = true →
    s.mach.pair.digIn = some (s.mach.rd Reg.SPN_DIG_CYC, s.mach.rd Reg.SPN_DIG_IN) →
    s.mach.pair.digOut = some (s.mach.rd Reg.SPN_DIG_CYC, vo) → vo ≠ s.mach.rd Reg.SPN_DIG_OUT →
    Completes .divergenceCheck s fun t =>
      t.rd Reg.XL_CNT_DIV_OUT = s.mach.counted Reg.XL_CNT_DIV_OUT ∧ t.pair.runIn = 0 ∧
      (s.mach.pair.runOut < 2 → t.pair.runOut = s.mach.pair.runOut + 1) ∧
      (s.mach.pair.runOut = 2 → t.get F.XL_STAT_div = 2 ∧ t.get F.XL_IRQ_STAT_divergence = 1
        ∧ t.rd Reg.XL_DIV_CYC = s.mach.rd Reg.SPN_DIG_CYC ∧
        (s.mach.role = .active → t.get F.XL_STAT_selftest_busy = 1)) ∧ t.mem = s.mach.mem) ∧
  ∀ (vi vo : Word) (s : State), s.mach.pair.formed = true →
    s.mach.pair.digIn = some (s.mach.rd Reg.SPN_DIG_CYC, vi) → s.mach.pair.digOut = some (s.mach.rd Reg.SPN_DIG_CYC, vo) →
    vi ≠ s.mach.rd Reg.SPN_DIG_IN →
    Completes .divergenceCheck s fun t =>
      t.rd Reg.XL_CNT_DIV_IN = s.mach.counted Reg.XL_CNT_DIV_IN ∧ t.get F.XL_STAT_div = 1
        ∧ t.get F.XL_IRQ_STAT_divergence = 1 ∧ t.rd Reg.XL_DIV_CYC = s.mach.rd Reg.SPN_DIG_CYC
        ∧ t.pair.runIn = min 1000 (s.mach.pair.runIn + 1) ∧ t.runState = s.mach.runState

/-- R361, R364: a resynchronisation is named, carries lane memory to the standby, and ends, is given up or is tried again. That
RESYNC_TIMEOUT lets its interval pass is the model's choice (log entry 12, DESIGN CHOICE). -/
def Obligations.Resynchronisation : Prop :=
  (∀ (k : Nat) (s : State), s.mach.reachable Reg.XL_CTRL = true → s.mach.role = .active → s.mach.runState = .run →
    s.mach.resyncCan = true →
    Completes (.resync k) s fun t =>
      t.get F.XL_STAT_resync_busy = 1 ∧ t.pair.resync = some (s.mach.firstCycleAhead 100000) ∧ t.pair.resyncFails = 0
        ∧ (s.mach.xlUp = true → XlSent s.mach t (.notice (.resyncStart (s.mach.firstCycleAhead 100000)))) ∧ t.answer.1 = Err.ok) ∧
  (∀ s : State, s.mach.pair.resyncRetry = true → s.mach.resyncCan = true →
    Completes .resyncRetry s fun t =>
      t.get F.XL_STAT_resync_busy = 1 ∧ t.pair.resync = some (s.mach.firstCycleAhead 100000)
        ∧ t.pair.resyncFails = s.mach.pair.resyncFails ∧ t.pair.resyncRetry = false) ∧
  (∀ s : State, s.mach.flag F.XL_STAT_resync_busy = true →
    Completes .resyncTimeout s fun t =>
      t.get F.XL_STAT_resync_busy = 0 ∧ t.pair.resync = none ∧ t.pair.resyncFails = s.mach.pair.resyncFails + 1
        ∧ (∀ t0, s.mach.markOf .resync = some t0 → t0 + 10000000 ≤ t.upNs)
        ∧ t.pair.resyncRetry = decide (s.mach.pair.resyncFails + 1 < 3)
        ∧ (2 ≤ s.mach.pair.resyncFails → t.get F.XL_IRQ_STAT_resync_fail = 1)) ∧
  (∀ s : State, s.mach.flag F.XL_STAT_resync_busy = true → s.mach.role = .active → s.mach.pair.resyncEnd = none →
    s.mach.pair.snapAt < 1024 →
    Completes .resyncEndCycle s fun t =>
      t.pair.resyncEnd = some (s.mach.cycle + 1) ∧ t.pair.snapAt = 1024 ∧
      (s.mach.xlUp = true → t.out.head? = some (.xl (BitVec.ofNat 6 (s.mach.get F.GLB_SLOT_slot)) (t.pair.xlSeq - 1)
        (.notice (.resyncEnd (s.mach.cycle + 1)))))) ∧
  (∀ (e : Word) (s : State), s.mach.flag F.XL_STAT_resync_busy = true → s.mach.pair.resyncEnd = some e →
    cycleAfter s.mach.cycle e = true →
    Completes .resyncEndCycle s fun t =>
      t.get F.XL_STAT_resync_busy = 0 ∧ t.get F.XL_IRQ_STAT_resync_done = 1 ∧ t.get F.XL_STAT_div = 0
        ∧ t.rd Reg.XL_CNT_RESYNC = s.mach.counted Reg.XL_CNT_RESYNC ∧ t.pair.resync = none ∧ t.pair.notReady = false
        ∧ t.mem = s.mach.mem) ∧
  ∀ s : State, s.mach.xlUp = true → s.mach.role = .standby → s.mach.flag F.XL_STAT_resync_busy = true →
    (∀ (o : Nat) (ws : List Word) (ps : List Nat), o + 4 * ws.length ≤ 0x80000 → o % 8 = 0 →
      (∀ k ∈ ps, 8 * k + 8 ≤ 4 * ws.length) → s.mach.memi.clean = true →
      Completes (.snap o ws ps false) s fun t =>
        (∀ (i : Nat) (h : i < ws.length), i / 2 ∉ ps → readMemWord t.mem (laneMemBase + o + 4 * i) = ws[i]) ∧
        (∀ a, a < laneMemBase + o ∨ laneMemBase + o + 4 * ws.length ≤ a → readByte t.mem a = readByte s.mach.mem a) ∧
        (∀ k ∈ ps, t.poisoned (laneMemBase + o + 8 * k) = true) ∧
        (ps = [] → RegsKept s.mach t [Reg.XL_STAT])) ∧
    ∀ (o : BitVec 20) (w : Word), o.toNat + 4 ≤ 0x80000 → s.mach.memi.clean = true →
      Completes (.store [(o, w)] false) s fun t =>
        readMemWord t.mem (laneMemBase + o.toNat) = w ∧ RegsKept s.mach t [Reg.XL_STAT] ∧
        ∀ a, a < laneMemBase + o.toNat ∨ laneMemBase + o.toNat + 4 ≤ a → readByte t.mem a = readByte s.mach.mem a

/-! ## The time base (R366 to R385) -/

/-- R368 to R370, R372, R373, R378 to R381: rate and phase by register, comparators, captures, and the servo's states. That
COMPARATOR_FIRE and HOLDOVER_MAX_EXPIRY let time pass up to their instants is the model's choice (log entry 12, DESIGN CHOICE). -/
def Obligations.TimeBase : Prop :=
  (∀ (k : Nat) (ns : BitVec 8) (s : State), s.mach.reachable Reg.TB_INCR_NS = true → s.mach.timeOwned k = true →
    s.mach.incrOk (incrUnits ns.toNat (s.mach.rd Reg.TB_INCR_FRAC)) = true →
    Completes (.tbIncrNsWrite k ns) s fun t =>
      t = { s.mach.ok with regs := t.regs,
                           time := { s.mach.time with incrNs := ns.toNat, incrFrac := s.mach.rd Reg.TB_INCR_FRAC } }
        ∧ t.rd Reg.TB_INCR_NS = ns.setWidth 32 ∧ RegsKept s.mach t [Reg.TB_INCR_NS]) ∧
  (∀ (k : Nat) (d : Word) (s : State), s.mach.reachable Reg.TB_ADJ_NS = true → s.mach.timeOwned k = true →
    s.mach.cyclesOn = false → d.toNat % 2 ^ 30 < 1000000000 → d.getLsbD 31 = true →
    Completes (.tbAdjNsWrite k d) s fun t =>
      t.time = { s.mach.time with
          sec := (s.mach.rd Reg.TB_ADJ_SEC_HI).toNat * 2 ^ 32 + (s.mach.rd Reg.TB_ADJ_SEC_LO).toNat
          ns := d.toNat % 2 ^ 30, frac := 0, stepAt := some s.mach.time.up }
        ∧ t.rd Reg.TB_CNT_STEP = s.mach.counted Reg.TB_CNT_STEP ∧ t.get F.TB_IRQ_STAT_step = 1
        ∧ t.runState = s.mach.runState ∧ t.mem = s.mach.mem ∧ t.answer.1 = Err.ok) ∧
  (∀ (c : BitVec 4) (s : State), c ≠ 0 → s.mach.cmpOn c.toNat = true →
    Completes (.comparatorFire c) s fun t =>
      t.bit Reg.TB_CMP_HIT c.toNat = true ∧ t.get F.TB_IRQ_STAT_cmp = 1 ∧ s.mach.nowNs ≤ t.nowNs
        ∧ s.mach.dueNs c.toNat ≤ (t.nowNs : Int)
        ∧ (s.mach.flag (F.TB_CMP_CTRL_periodic c.toNat) = false → t.rd (Reg.TB_CMP_NS c.toNat) = s.mach.rd (Reg.TB_CMP_NS c.toNat))
        ∧ t.runState = s.mach.runState ∧ t.mem = s.mach.mem) ∧
  (∀ (k : Nat) (u : BitVec 3) (src : BitVec 4) (s : State), s.mach.reachable (Reg.TB_CAP_CTRL u.toNat) = true →
    src.toNat ≤ 9 →
    Completes (.captureArm k u src) s fun t =>
      t = { s.mach.ok with regs := t.regs } ∧ RegsKept s.mach t [Reg.TB_CAP_CTRL u.toNat]
        ∧ t.get (F.TB_CAP_CTRL_src u.toNat) = src.toNat ∧ t.get (F.TB_CAP_CTRL_full u.toNat) = 0
        ∧ t.get (F.TB_CAP_CTRL_ovr u.toNat) = 0) ∧
  (∀ (u : BitVec 3) (s : State), s.mach.get (F.TB_CAP_CTRL_src u.toNat) ≠ 0 →
    Completes (.captureEvent u) s fun t =>
      t = { s.mach with regs := t.regs } ∧
      (s.mach.flag (F.TB_CAP_CTRL_full u.toNat) = false →
        t.rd (Reg.TB_CAP_SEC u.toNat) = BitVec.ofNat 32 s.mach.time.sec
          ∧ t.get (F.TB_CAP_NS_ns u.toNat) = s.mach.time.ns % 2 ^ 30 ∧ t.get (F.TB_CAP_CTRL_full u.toNat) = 1
          ∧ t.get F.TB_IRQ_STAT_cap = 1) ∧
      (s.mach.flag (F.TB_CAP_CTRL_full u.toNat) = true →
        t.get (F.TB_CAP_CTRL_ovr u.toNat) = 1 ∧ t.rd Reg.TB_CNT_CAP_OVR = s.mach.counted Reg.TB_CNT_CAP_OVR
          ∧ RegsKept s.mach t [Reg.TB_CAP_CTRL u.toNat, Reg.TB_CNT_CAP_OVR])) ∧
  (∀ s : State, s.mach.get (F.TB_CAP_CTRL_src 0) = 1 → s.mach.flag (F.TB_CAP_CTRL_full 0) = false →
    s.mach.time.ns < 1000000000 →
    (s.mach.get F.TB_CTRL_src ≠ 2 → Completes .ppsInEdge s fun t =>
      t = { s.mach with regs := t.regs } ∧ t.get (F.TB_CAP_CTRL_full 0) = 1 ∧ t.get (F.TB_CAP_NS_ns 0) = s.mach.time.ns) ∧
    (s.mach.get F.TB_CTRL_src = 2 → s.mach.power.distaffAbsent = false → s.mach.get F.TB_STAT_state ≠ Sync.locked →
      Completes .ppsInEdge s fun t =>
        t.rd Reg.TB_OFFSET = satWord (if s.mach.time.ns < 500000000 then s.mach.time.ns
          else (s.mach.time.ns : Int) - 1000000000) ∧ t.get (F.TB_CAP_CTRL_full 0) = 0) ∧
    (s.mach.get F.TB_CTRL_src = 2 → s.mach.power.distaffAbsent = false → s.mach.get F.TB_STAT_state = Sync.locked →
      250000000 < s.mach.time.ns → s.mach.time.ns < 750000000 → Completes .ppsInEdge s fun t =>
        t.rd Reg.TB_CNT_PPS_REJ = s.mach.counted Reg.TB_CNT_PPS_REJ ∧ t.rd Reg.TB_OFFSET = s.mach.rd Reg.TB_OFFSET
          ∧ t.time = s.mach.time)) ∧
  (∀ s : State, s.mach.get F.TB_STAT_state = Sync.locked ∨ s.mach.get F.TB_STAT_state = Sync.acquiring →
    Completes .syncHoldover s fun t =>
      t.get F.TB_STAT_state = Sync.holdover ∧ t.get F.TB_IRQ_STAT_state_change = 1 ∧ t.time = s.mach.time) ∧
  (∀ (t0 : Nat) (s : State), s.mach.time.lastOkNs = some t0 →
    Completes .holdoverMaxExpiry s fun t =>
      t.get F.TB_STAT_synced = 0 ∧ t0 + s.mach.get F.TB_SYNC_CFG_holdover_max * 1000000000 < t.upNs) ∧
  ∀ (r : Nat) (s : State), s.mach.timeSource = 3 →
    Completes (.xlinkMarkEcho r) s fun t =>
      t.time.echoes = (r :: s.mach.time.echoes).take 16 ∧ t.out = s.mach.out
        ∧ RegsKept s.mach t [Reg.TB_XL_DELAY]

/-- R374 to R376, R392: PTP messages. A message that the Control bucket has no token for is discarded and counted; an unusable Sync
is counted and dropped, a usable one kept for its port; a request leaves and waits for its response, which completes the exchange; the
selected master is shown; a transparent clock adds its residence. -/
def Obligations.PtpMessages : Prop :=
  (∀ (f : PtpSync) (g : PtpAnnounce) (p : BitVec 1) (t4 c : Int) (r : Nat) (s : State), s.mach.ethServes (portNo p) = true →
    s.mach.bucketHas (portNo p) 3 1 = false → f.port = p → g.port = p →
    ∀ i ∈ [Instr.ptpSyncRx f, .ptpAnnounceRx g, .ptpDelayRespRx p t4 c, .ptpTcForward p r], Completes i s fun t =>
      RegsKept s.mach t [Reg.ETH_CNT_RX (portNo p), Reg.ETH_CNT_POLICE (portNo p)] ∧ t.time = s.mach.time ∧ t.out = s.mach.out
        ∧ t.rd (Reg.ETH_CNT_POLICE (portNo p)) = s.mach.counted (Reg.ETH_CNT_POLICE (portNo p))) ∧
  (∀ (f : PtpSync) (s : State), s.mach.ptpOn = true → s.mach.ethServes (portNo f.port) = true →
    s.mach.bucketHas (portNo f.port) 3 1 = true →
    (f.valid = false ∨ s.mach.flag F.ETH_PTP_STAT_master_sel = false →
      Completes (.ptpSyncRx f) s fun t =>
        t = { s.mach with regs := t.regs, host := t.host }
          ∧ RegsKept s.mach t [Reg.ETH_PTP_CNT_BAD, Reg.ETH_CNT_RX (portNo f.port)]
          ∧ t.rd Reg.ETH_PTP_CNT_BAD = s.mach.counted Reg.ETH_PTP_CNT_BAD
          ∧ t.rd (Reg.ETH_CNT_RX (portNo f.port)) = s.mach.counted (Reg.ETH_CNT_RX (portNo f.port))) ∧
    (f.valid = true → s.mach.flag F.ETH_PTP_STAT_master_sel = true →
      Completes (.ptpSyncRx f) s fun t =>
        t.rd Reg.ETH_PTP_CNT_SYNC = s.mach.counted Reg.ETH_PTP_CNT_SYNC ∧ ofPort f.port t.time.syncs = some f
          ∧ t.get F.ETH_PTP_STAT_log_sync = f.logInt.toNat ∧ t.mem = s.mach.mem)) ∧
  (∀ (t3 : Int) (s : State), s.mach.ptpOn = true →
    Completes (.ptpDelayReqSend t3) s fun t =>
      t.rd Reg.ETH_PTP_CNT_DREQ = s.mach.counted Reg.ETH_PTP_CNT_DREQ ∧ t.out = .delayReq s.mach.time.reqPort :: s.mach.out
        ∧ ofPort s.mach.time.reqPort t.time.dreqs = some t3 ∧ t.time.reqPort = s.mach.time.reqPort + 1
        ∧ RegsKept s.mach t [Reg.ETH_PTP_CNT_DREQ]) ∧
  (∀ (p : BitVec 1) (t4 c : Int) (f : PtpSync) (t3 : Int) (s : State), s.mach.ptpOn = true →
    s.mach.ethServes (portNo p) = true → s.mach.bucketHas (portNo p) 3 1 = true →
    ofPort p s.mach.time.syncs = some f → ofPort p s.mach.time.dreqs = some t3 →
    Completes (.ptpDelayRespRx p t4 c) s fun t =>
      ofPort p t.time.paths = (((f.t2 - f.t1 - f.cSync) + (t4 - t3 - c)) :: ofPort p s.mach.time.paths).take 16
        ∧ ofPort p t.time.dreqs = none
        ∧ t.get (if p = 0 then F.ETH_PTP_STAT_port1_ok else F.ETH_PTP_STAT_port2_ok) = 1) ∧
  (∀ (f : PtpAnnounce) (s : State), s.mach.ptpOn = true → f.domain.toNat = s.mach.get F.ETH_PTP_CFG_domain →
    s.mach.ethServes (portNo f.port) = true → s.mach.bucketHas (portNo f.port) 3 1 = true → f.best = true →
    Completes (.ptpAnnounceRx f) s fun t =>
      t = { s.mach with regs := t.regs, host := t.host } ∧ t.rd Reg.ETH_PTP_GM_LO = f.identity.setWidth 32
        ∧ t.rd Reg.ETH_PTP_GM_HI = (f.identity >>> 32).setWidth 32 ∧ t.get F.ETH_PTP_STAT_master_sel = 1
        ∧ RegsKept s.mach t [Reg.ETH_PTP_GM_LO, Reg.ETH_PTP_GM_HI, Reg.ETH_PTP_STAT, Reg.ETH_CNT_RX (portNo f.port)]) ∧
  ∀ (p : BitVec 1) (r : Nat) (s : State), s.mach.ethServes (portNo p) = true → s.mach.bucketHas (portNo p) 3 1 = true →
    Completes (.ptpTcForward p r) s fun t =>
      if s.mach.flag F.ETH_PTP_CFG_tc_en then
        t.out = .tcForward r :: s.mach.out ∧ t.rd Reg.ETH_PTP_CNT_TC = s.mach.counted Reg.ETH_PTP_CNT_TC
          ∧ RegsKept s.mach t [Reg.ETH_PTP_CNT_TC, Reg.ETH_CNT_RX (portNo p)]
      else t.out = .tcForward 0 :: s.mach.out ∧ RegsKept s.mach t [Reg.ETH_CNT_RX (portNo p)]

/-! ## Host accesses (R6 to R10, R24, R397 to R403) -/

/-- R6 to R10, R24, R30, R394, R396 to R399, R402, R403: the first checks of an access refuse it and nothing else changes; in
DECOMMISSIONED every write is refused; an accepted write acts by the access codes; a free lock is taken by a read and released by
a write of 0; a latching read fills the master's copy, which the next read answers from; a record of a session is counted as bad, answered as a
KEEPALIVE, dropped with the ring full, answered again, or executed. -/
def Obligations.RegisterAccess : Prop :=
  (∀ (k a : Nat) (d : Word) (s : State),
    ∀ c ∈ [Instr.registerWrite k a d, .lockRelease k a, .lockRead k a, .latchingRead k a],
    (assigned (a / 4 * 4) = false → Completes c s fun t => t = s.mach.refuse Err.badAddress) ∧
    (assigned (a / 4 * 4) = true → a % 4 ≠ 0 → Completes c s fun t => t = s.mach.refuse Err.align) ∧
    (∀ e, assigned (a / 4 * 4) = true → a % 4 = 0 → s.mach.offCode a = some e →
      Completes c s fun t => t = s.mach.refuse e)) ∧
  (∀ (k a : Nat) (d : Word) (s : State), s.mach.addressRefusal a = none → s.mach.lifeCycle = .decommissioned →
    Completes (.registerWrite k a d) s fun t =>
      t = { s.mach with answer := t.answer } ∧ (t.answer.1 = Err.lifeCycle ∨ t.answer.1 = Err.notOwner)) ∧
  (∀ (k a : Nat) (d : Word) (r : RegRow) (s : State), a < 0x20000 → a % 4 = 0 → regRow? a = some r →
    s.mach.reachable a = true →
    Completes (.registerWrite k a d) s fun t =>
      t = { s.mach.ok with regs := t.regs } ∧ RegsKept s.mach t [a]
        ∧ t.rd a = (s.mach.rd a &&& ~~~(r.rw ||| (r.w1c &&& d))) ||| (d &&& r.rw)) ∧
  (∀ (k a : Nat) (s : State), a ∈ lockRegs → s.mach.addressRefusal a = none → s.mach.latched k a = none →
    (s.mach.rd a = 0 → Completes (.lockRead k a) s fun t =>
      t = { s.mach.ok [0] with regs := t.regs } ∧ t.rd a = BitVec.ofNat 32 k ∧ RegsKept s.mach t [a]) ∧
    (s.mach.rd a ≠ 0 → Completes (.lockRead k a) s fun t => t = s.mach.ok [s.mach.rd a])) ∧
  (∀ (k a : Nat) (s : State), a ∈ (List.range 16).map Reg.MBX_GLOCK → s.mach.reachable a = true → s.mach.rd a ≠ 0 →
    ((s.mach.rd a).toNat = k → Completes (.lockRelease k a) s fun t =>
      t = { s.mach.ok with regs := t.regs } ∧ t.rd a = 0 ∧ RegsKept s.mach t [a]) ∧
    ((s.mach.rd a).toNat ≠ k → Completes (.lockRelease k a) s fun t => t = s.mach.refuse Err.notOwner (s.mach.rd a))) ∧
  (∀ (k a : Nat) (s : State), latchesOf a ≠ [] → s.mach.addressRefusal a = none → s.mach.latched k a = none →
    Completes (.latchingRead k a) s fun t =>
      t = { s.mach.ok [s.mach.view a] with latches := t.latches }
        ∧ t.latches.head? = some ⟨k, a, (latchesOf a).map fun x => (x, s.mach.view x)⟩) ∧
  (∀ (k a : Nat) (l : LatchCopy) (s : State), a < 0x30200 ∨ 0x30280 ≤ a ∧ a < 0x118000 → s.mach.addressRefusal a = none →
    s.mach.latched k a = some l →
    Completes (.latchingRead k a) s fun t => t = s.mach.ok [((l.copy.find? (·.1 == a)).map (·.2)).getD 0]) ∧
  (∀ (k : Nat) (u : BitVec 3) (s : State), s.mach.addressRefusal (Reg.TB_CAP_NS u.toNat) = none →
    (s.mach.latched k (Reg.TB_CAP_NS u.toNat) = none →
      Completes (.captureNsRead k u) s fun t => t = s.mach.ok [s.mach.rd (Reg.TB_CAP_NS u.toNat)]) ∧
    (∀ l : LatchCopy, s.mach.latched k (Reg.TB_CAP_NS u.toNat) = some l →
      Completes (.captureNsRead k u) s fun t =>
        t.get (F.TB_CAP_CTRL_full u.toNat) = 0 ∧ l ∉ t.latches ∧ RegsKept s.mach t [Reg.TB_CAP_CTRL u.toNat]
          ∧ t.answer = (0, 0, [((l.copy.find? (·.1 == Reg.TB_CAP_NS u.toNat)).map (·.2)).getD 0]))) ∧
  ∀ (x : Nat) (bs : List Byte) (full : Bool) (z : Session) (s : State),
    s.mach.domOn (if x = 13 then .svc else .host) = true → s.mach.session x = some z →
    (Completes (.request x bs false full) s fun t =>
      t = { s.mach with regs := t.regs } ∧ RegsKept s.mach t [Reg.ETH_CNT_BAD_REC]
        ∧ t.rd Reg.ETH_CNT_BAD_REC = s.mach.counted Reg.ETH_CNT_BAD_REC) ∧
    (dareriOf bs = none → Completes (.request x bs true full) s fun t =>
      RegsKept s.mach t [Reg.ETH_CNT_BAD_MSG] ∧ t.rd Reg.ETH_CNT_BAD_MSG = s.mach.counted Reg.ETH_CNT_BAD_MSG
        ∧ t.out = s.mach.out ∧ t.mem = s.mach.mem) ∧
    ∀ d : DareriMsg, dareriOf bs = some d →
      (d.kind = Dareri.keepalive → d.body = [] → Completes (.request x bs true full) s fun t =>
        t.out = .dareri x keepaliveMsg :: s.mach.out ∧ t.regs = s.mach.regs ∧ t.mem = s.mach.mem) ∧
      (d.kind ≠ Dareri.keepalive → d.kind ≠ Dareri.telegram → d.asRequest = none →
        Completes (.request x bs true full) s fun t =>
          RegsKept s.mach t [Reg.ETH_CNT_BAD_MSG] ∧ t.rd Reg.ETH_CNT_BAD_MSG = s.mach.counted Reg.ETH_CNT_BAD_MSG
            ∧ t.out = s.mach.out ∧ t.mem = s.mach.mem) ∧
      ∀ q : DareriReq, d.asRequest = some q →
        (full = true → Completes (.request x bs true full) s fun t =>
          t.rd Reg.ETH_CNT_REQ_DROP = s.mach.counted Reg.ETH_CNT_REQ_DROP ∧ t.out = s.mach.out ∧ t.mem = s.mach.mem) ∧
        (∀ (k : List Byte) (rs : List AccessResult), full = false →
          (z.cache.find? fun e => (dareriOf e.1).any (·.tag == q.tag)) = some (k, rs) →
          Completes (.request x bs true full) s fun t => t.regs = s.mach.regs ∧ t.mem = s.mach.mem ∧
            t.out = .dareri x (if k = bs then responseMsg q.tag true rs
              else responseMsg q.tag false (q.ops.map fun _ => ⟨Err.duplicateTag, 0, []⟩)) :: s.mach.out) ∧
        ∀ (a n : Nat), full = false → (z.cache.find? fun e => (dareriOf e.1).any (·.tag == q.tag)) = none →
          q.ops = [.read a n] →
          (assigned (a / 4 * 4) = false → Completes (.request x bs true full) s fun t =>
            t.regs = s.mach.regs ∧ t.mem = s.mach.mem
              ∧ t.out = .dareri x (responseMsg q.tag false [⟨Err.badAddress, 0, []⟩]) :: s.mach.out) ∧
          (n = 4 → a < 0x20000 → a % 4 = 0 → (regRow? a).isSome = true → s.mach.reachable a = true →
            s.mach.latched x a = none → latchesOf a = [] → Completes (.request x bs true full) s fun t =>
              t.regs = s.mach.regs ∧ t.mem = s.mach.mem
                ∧ t.out = .dareri x (responseMsg q.tag false [⟨0, 0, [s.mach.view a]⟩]) :: s.mach.out)

/-- R121, R159, R196, R227, R322, R363, R384, R418, R440, R458, R480: a clear-counters command sets every counter of its block to
0 and no other register. R449 to R454, R458: Carder's read goes to the next word and reports what it finds, an uncorrectable word
becomes poison and reads as zeros; a word that has been upset waits for its reader; a poisoned program word is repaired from the image; a weak line takes an entry. R513 to R515:
an EXTEST-class instruction that may not load is refused, one that loads holds the module safe, leaving it asks for a reset. Where the condition of an
event does not hold it changes nothing, which is the model's choice (log entry 2). -/
def Obligations.CountersAndMemoryEngine : Prop :=
  (∀ (p : Port) (x : BitVec 1),
    ∀ c ∈ ([(.flyClrCnt, Reg.FLY_CTRL, flyCounters), ((.chxClrCnt · p), Reg.CH_CTRL (portIx p), chCounters p),
      (.spnClrCnt, Reg.SPN_CTRL, spnCounters), (.snsClrCnt, Reg.SNS_CTRL, snsCounters),
      (.protClrCnt, Reg.SNS_PROT_CTRL, protCounters),
      (.xlClrCnt, Reg.XL_CTRL, [Reg.XL_CNT_DIV_IN, Reg.XL_CNT_DIV_OUT, Reg.XL_CNT_DIV_STATE, Reg.XL_CNT_CMD_MISM,
        Reg.XL_CNT_MIRROR_NACK, Reg.XL_CNT_RELAY_LATE, Reg.XL_CNT_SWITCH, Reg.XL_CNT_RESYNC, Reg.XL_CNT_LINK_ERR]),
      (.tbClrCnt, Reg.TB_CTRL, [Reg.TB_CNT_STEP, Reg.TB_CNT_SKIP, Reg.TB_CNT_CAP_OVR, Reg.TB_CNT_PPS_REJ]),
      (.ethClrCnt, Reg.ETH_CTRL, ethCounters), (.pwrClrCnt, Reg.PWR_CTRL, pwrCounters),
      ((.canClrCnt · x), Reg.CAN_CTRL x.toNat, canCounters x.toNat),
      (.memClrCnt, Reg.MEM_CTRL, [Reg.MEM_CNT_UE, Reg.MEM_CNT_POISON_HIT, Reg.MEM_CNT_MERGE, Reg.MEM_CNT_ABANDON,
        Reg.MEM_CNT_REPAIR, Reg.MEM_CNT_REMAP, Reg.MEM_CNT_PASS] ++ (List.range 48).map Reg.MEM_CNT_CE)] :
      List ((Nat → Instr) × Nat × List Nat)), ∀ (k : Nat) (s : State), s.mach.reachable c.2.1 = true →
      Completes (c.1 k) s fun t =>
        t = { s.mach.ok with regs := t.regs } ∧ (∀ a ∈ c.2.2, t.rd a = 0) ∧ RegsKept s.mach t c.2.2) ∧
  (∀ (syn : Byte) (i w : Nat) (s : State), s.mach.domOn .mgmt = true → s.mach.domOn (instDomain i) = true → 13 ≤ i →
    i < 48 → w < 16383 → s.mach.memi.upsets = [] → s.mach.get F.MEM_SCRUB_POS_instance = i → s.mach.get F.MEM_SCRUB_POS_word = w →
    s.mach.memi.spareAt = none →
    (s.mach.poisoned (wordAddr i w) = false →
      (Completes (.carderRead .clean syn []) s fun t =>
        t = { s.mach with regs := t.regs } ∧ RegsKept s.mach t [Reg.MEM_SCRUB_POS]
          ∧ t.get F.MEM_SCRUB_POS_word = w + 1) ∧
      (∀ u : Upset, s.mach.domOn (instDomain (instOf u.addr)) = true → s.mach.poisoned u.addr = false → u.addr % 8 = 0 →
        u.addr ≠ wordAddr i w → Completes (.carderRead .clean syn [u]) s fun t =>
          t.memi.upsets = [u] ∧ t.mem = s.mach.mem ∧ RegsKept s.mach t [Reg.MEM_SCRUB_POS]) ∧
      (Completes (.carderRead .ce syn []) s fun t =>
        t.rd (Reg.MEM_CNT_CE i) = s.mach.counted (Reg.MEM_CNT_CE i) ∧ t.get F.MEM_IRQ_STAT_ce = 1
          ∧ t.get F.MEM_ERR_INFO_class = 1 ∧ t.get F.MEM_ERR_LOC_instance = i ∧ t.get F.MEM_ERR_LOC_word = w
          ∧ t.mem = s.mach.mem ∧ ((i, w) ∈ s.mach.memi.cePrev → (i, w / 8) ∈ t.memi.weak)) ∧
      (Completes (.carderRead .ue syn []) s fun t =>
        wordAddr i w ∈ t.memi.poison ∧ (i, w / 8) ∈ t.memi.weak ∧ t.get F.MEM_IRQ_STAT_ue = 1
          ∧ t.rd Reg.MEM_CNT_UE = s.mach.counted Reg.MEM_CNT_UE
          ∧ (i = 15 → t.get F.MEM_IRQ_STAT_bank = 1)
          ∧ (∀ j, j < 8 → readByte t.mem (wordAddr i w + j) = 0)
          ∧ ∀ a, a < wordAddr i w ∨ wordAddr i w + 8 ≤ a → readByte t.mem a = readByte s.mach.mem a)) ∧
    (s.mach.poisoned (wordAddr i w) = true → ∀ cls : EccClass, Completes (.carderRead cls syn []) s fun t =>
      t = { s.mach with regs := t.regs } ∧ t.get F.MEM_ERR_INFO_class = 3 ∧ t.get F.MEM_ERR_INFO_syndrome = 0xFF
        ∧ RegsKept s.mach t [Reg.MEM_ERR_LOC, Reg.MEM_ERR_INFO, Reg.MEM_SCRUB_POS])) ∧
  (∀ s : State, s.mach.domOn .spin0 = true → s.mach.power.distaffAbsent = false → s.mach.repairWindow = true →
    (∀ (a : Nat) (p : ProgImage), s.mach.memi.poison.filter inProgMem = [a] → a % 8 = 0 →
      s.mach.slotCheck s.mach.mgmt.loadedSlot 15 = .ok p →
      Completes .programRepair s fun t =>
        readMemWord t.mem a = p.words.getD ((a - progMemBase) / 4) 0
          ∧ readMemWord t.mem (a + 4) = p.words.getD ((a - progMemBase) / 4 + 1) 0 ∧ a ∉ t.memi.poison
          ∧ t.get F.MEM_IRQ_STAT_repair = 1 ∧ t.rd Reg.MEM_CNT_REPAIR = s.mach.counted Reg.MEM_CNT_REPAIR
          ∧ ∀ b, b < a ∨ a + 8 ≤ b → readByte t.mem b = readByte s.mach.mem b) ∧
    (s.mach.memi.poison.filter inProgMem = [] → Completes .programRepair s fun t => t = s.mach)) ∧
  (∀ (i : Nat) (l : BitVec 11) (s : State), s.mach.domOn .mgmt = true → s.mach.domOn (instDomain i) = true →
    (i, l.toNat) ∈ s.mach.memi.weak → s.mach.memi.upsets = [] → (13 ≤ i ∧ i ≤ 39 → s.mach.repairWindow = true) →
    s.mach.remapOf i l.toNat = none →
    (∀ e, s.mach.freeEntry i = some e → Completes (.lineRemap i l) s fun t =>
      t.rd (Reg.MEM_REMAP i e) = BitVec.ofNat 32 (2 ^ 31 + l.toNat) ∧ t.get F.MEM_IRQ_STAT_remap = 1
        ∧ t.rd Reg.MEM_CNT_REMAP = s.mach.counted Reg.MEM_CNT_REMAP ∧ t.mem = s.mach.mem
        ∧ (i, l.toNat) ∉ t.memi.weak) ∧
    (s.mach.freeEntry i = none → Completes (.lineRemap i l) s fun t =>
      t.get F.MEM_IRQ_STAT_remap_full = 1 ∧ t.mem = s.mach.mem ∧ (i, l.toNat) ∉ t.memi.weak)) ∧
  (∀ (k i : Nat) (e : BitVec 3) (d : Word) (s : State), i < 48 → s.mach.reachable (Reg.MEM_REMAP i e.toNat) = true →
    ((s.mach.rd (Reg.MEM_REMAP i e.toNat) ^^^ d) &&& 0x800007FF = 0 →
      Completes (.memRemapWrite k i e d) s fun t => t = s.mach.ok) ∧
    ((s.mach.rd (Reg.MEM_REMAP i e.toNat) ^^^ d) &&& 0x800007FF ≠ 0 →
      (s.mach.lifeCycle ≠ .manufacture → s.mach.lifeCycle ≠ .service →
        Completes (.memRemapWrite k i e d) s fun t => t = s.mach.refuse Err.lifeCycle) ∧
      (s.mach.lifeCycle = .manufacture ∨ s.mach.lifeCycle = .service → s.mach.flag (F.MEM_REMAP_valid i e.toNat) = false →
        s.mach.memi.upsets = [] → Completes (.memRemapWrite k i e d) s fun t =>
          t.rd (Reg.MEM_REMAP i e.toNat) = d &&& 0x800007FF ∧ RegsKept s.mach t [Reg.MEM_REMAP i e.toNat]
            ∧ (d.getLsbD 31 = false → t.mem = s.mach.mem)))) ∧
  (∀ (a : Byte) (b : BitVec 6) (s : State), Completes (.tapUpdateIr a b) s fun t =>
    t.power.irCtrl = (if (ctrlInstr a).extestClass && !s.mach.extestOk then 0xFF else a)
      ∧ t.power.irComp = (if (compInstr b).extestClass && !s.mach.extestOk then 0x3F else b)
      ∧ t.power.irRefCtrl = ((ctrlInstr a).extestClass && !s.mach.extestOk) ∧ t.power.irRefComp = ((compInstr b).extestClass && !s.mach.extestOk)
      ∧ (t.extest = true → t.safety.closeOn = false ∧ t.safety.discOn = false ∧ t.power.pwrCycleReq = false
        ∧ t.get F.XL_STAT_claim_out = 0 ∧ t.get F.SAF_STAT_trip_hs = 0 ∧ t.get F.SAF_STAT_trip_ls = 0
        ∧ t.flag F.SAF_INPUT_floop = false)
      ∧ (s.mach.extest = true → t.extest = false → t.power.resetPend = some 2)) ∧
  ∀ s : State, Completes .tapLeaveExtest s fun t =>
    t.power.irCtrl = 0x01 ∧ t.power.irComp = 0x01 ∧ t.regs = s.mach.regs ∧ t.mem = s.mach.mem
      ∧ t.power.resetPend = if s.mach.extest then some 2 else s.mach.power.resetPend

/-! ## Mailboxes, starts and stops (R404 to R407, R463, R466 to R468, R479, R502) -/

/-- R404 to R407, R463, R466 to R468, R502: a go bit is refused or taken, what is no command is answered so, a mailbox that lasts
too long is completed with TIMEOUT; the commands answer, and start, settle, stop or release the string as their rules say. Where the condition of an
event does not hold it changes nothing, and MAILBOX_TIMEOUT lets time pass up to its instant, which are the model's choices (log
entries 2 and 12, DESIGN CHOICE); the order of the starting steps is that of log entry 25. -/
def Obligations.MailboxCommands : Prop :=
  (∀ (k : Nat) (b : BitVec 4) (op : Byte) (len : BitVec 5) (s : State), s.mach.reachable (Reg.MBX_CTRL b.toNat) = true →
    (s.mach.get (F.MBX_LOCK_owner b.toNat) ≠ k → Completes (.go k b op len) s fun t =>
      t = s.mach.refuse Err.notOwner (BitVec.ofNat 32 (s.mach.get (F.MBX_LOCK_owner b.toNat)))) ∧
    (s.mach.get (F.MBX_LOCK_owner b.toNat) = k → s.mach.mbxBusy b.toNat = true → Completes (.go k b op len) s fun t =>
      t = s.mach.refuse Err.busy (BitVec.ofNat 32 k)) ∧
    (s.mach.get (F.MBX_LOCK_owner b.toNat) = k → s.mach.mbxBusy b.toNat = false → 16 < len.toNat →
      Completes (.go k b op len) s fun t => t = s.mach.refuse Err.refusedValue) ∧
    (s.mach.get (F.MBX_LOCK_owner b.toNat) = k → s.mach.mbxBusy b.toNat = false → len.toNat ≤ 16 →
      s.mach.host.mbxOrder = [] →
      (∀ e ∈ mbxOpcodes, e.1 = op.toNat → e.2.1 ≤ len.toNat → len.toNat ≤ e.2.2 → Completes (.go k b op len) s fun t =>
        t.get (F.MBX_CTRL_busy b.toNat) = 1 ∧ t.get (F.MBX_CTRL_opcode b.toNat) = op.toNat
          ∧ t.get (F.MBX_CTRL_length b.toNat) = len.toNat ∧ t.host.mbxOrder = [b.toNat] ∧ t.mbxCaller b.toNat = k
          ∧ t.host.mbxNs.toList[b.toNat]? = some s.mach.upNs
          ∧ RegsKept s.mach t [Reg.MBX_CTRL b.toNat] ∧ t.mem = s.mach.mem) ∧
      (s.mach.power.distaffAbsent = false → b.toNat ∉ s.mach.host.mbxOrphan →
        ((∀ e ∈ mbxOpcodes, e.1 ≠ op.toNat) →
          Completes (.go k b op len) s fun t => MbxAnswered t b.toNat Err.badOpcode) ∧
        ∀ e ∈ mbxOpcodes, e.1 = op.toNat → len.toNat < e.2.1 ∨ e.2.2 < len.toNat →
          Completes (.go k b op len) s fun t => MbxAnswered t b.toNat Err.badLength))) ∧
  (∀ (b : BitVec 4) (s : State),
    (s.mach.mbxBusy b.toNat = true → b.toNat ∉ s.mach.host.mbxOrphan →
      Completes (.mailboxTimeout b) s fun t => MbxAnswered t b.toNat Err.timeout
        ∧ t.rd Reg.MBX_CNT_TIMEOUT = s.mach.counted Reg.MBX_CNT_TIMEOUT
        ∧ s.mach.host.mbxNs.toList.getD b.toNat 0 + s.mach.get F.MBX_CFG_timeout * 1000000 ≤ t.upNs) ∧
    (s.mach.mbxBusy b.toNat = false → Completes (.mailboxTimeout b) s fun t => t = s.mach)) ∧
  (∀ (b : BitVec 4) (s : State), b.toNat ∉ s.mach.host.mbxOrphan → s.mach.mbxBad b.toNat = none →
    (s.mach.mbxServes b.toNat 0x01 = true → Completes (.echo b) s fun t =>
      MbxAnswered t b.toNat Err.ok ∧ t = { s.mach with regs := t.regs, host := t.host }
        ∧ t.get (F.MBX_STAT_resp_len b.toNat) = s.mach.get (F.MBX_CTRL_length b.toNat)
        ∧ ∀ j, j < 16 → t.rd (Reg.MBX_DATA b.toNat j) = s.mach.rd (Reg.MBX_DATA b.toNat j)) ∧
    (s.mach.mbxServes b.toNat 0x02 = true → Completes (.sessionInfo b) s fun t =>
      MbxAnswered t b.toNat Err.ok ∧ t.get (F.MBX_STAT_resp_len b.toNat) = 3
        ∧ t.rd (Reg.MBX_DATA b.toNat 0) = BitVec.ofNat 32 (s.mach.mbxCaller b.toNat)
        ∧ t.rd (Reg.MBX_DATA b.toNat 1) = s.mach.rd Reg.ETH_SESS_STAT &&& 0x21FE ∧ t.mem = s.mach.mem) ∧
    (s.mach.mbxServes b.toNat 0x20 = true → Completes (.logMark b) s fun t =>
      MbxAnswered t b.toNat Err.ok ∧ t.rd (Reg.MBX_DATA b.toNat 0) = s.mach.rd Reg.MGT_LOG_SEQ ∧
      ∃ (e : LogEntry) (rest : List LogEntry), t.mgmt.log = e :: rest ∧ e.seq = s.mach.rd Reg.MGT_LOG_SEQ ∧ e.cls = 9
        ∧ e.code = BitVec.ofNat 16 (fieldOf ((s.mach.mbxWords b.toNat).getD 0 0) 0 16)
        ∧ e.data0 = (s.mach.mbxWords b.toNat).getD 1 0 ∧ e.data1 = (s.mach.mbxWords b.toNat).getD 2 0)) ∧
  (∀ (b : BitVec 4) (w : WalkResult) (s : State), s.mach.mbxServes b.toNat 0x10 = true →
    (∀ (e : BitVec 16) (aux : Nat), s.mach.startError = some (e, aux) → b.toNat ∉ s.mach.host.mbxOrphan →
      Completes (.runStart b w) s fun t =>
        MbxAnswered t b.toNat e ∧ t = { s.mach with regs := t.regs, host := t.host }) ∧
    (s.mach.startError = none → Completes (.runStart b w) s fun t =>
      t.get (F.MBX_CTRL_busy b.toNat) = 0 ∧ (t.spin.runPend = true ∨ t.get F.PWR_IRQ_STAT_start_fail = 1))) ∧
  (∀ s : State,
    (s.mach.inStep Step.settle = false ∨ s.mach.power.startLeft ≠ 0 → Completes .settleCountEnd s fun t => t = s.mach) ∧
    (∀ n ∈ s.mach.positions, s.mach.inStep Step.settle = true → s.mach.power.startLeft = 0 → s.mach.chain.lastSlot.toList.getD n none = none →
      Completes .settleCountEnd s fun t => t.runState = .off ∧ t.get F.PWR_RUN_STAT_fail = Err.chain.toNat
        ∧ t.get F.PWR_IRQ_STAT_start_fail = 1) ∧
    (s.mach.inStep Step.settle = true → s.mach.power.startLeft = 0 → s.mach.power.settleBad = false → s.mach.startForbidden = false →
      (∀ n ∈ s.mach.positions, (s.mach.chain.lastSlot.toList.getD n none).isSome = true
        ∧ (s.mach.chain.lastRec.toList.getD n none).isSome = true ∧ s.mach.chain.slotAge.toList.getD n 1000 < 1000
        ∧ s.mach.chain.recAge.toList.getD n 1000 < 1000) →
      Completes .settleCountEnd s fun t => t.runState = .starting
        ∧ t.get F.PWR_RUN_STAT_start_step = Step.stopClear ∧ t.power.startLeft = 10)) ∧
  (∀ (b : BitVec 4) (s : State), s.mach.mbxServes b.toNat 0x11 = true →
    (s.mach.role = .standby → b.toNat ∉ s.mach.host.mbxOrphan → Completes (.runStop b) s fun t =>
      MbxAnswered t b.toNat Err.role ∧ t.runState = s.mach.runState) ∧
    (s.mach.role ≠ .standby →
      (s.mach.runState = .off ∨ s.mach.runState = .faultLatched → b.toNat ∉ s.mach.host.mbxOrphan →
        Completes (.runStop b) s fun t => MbxAnswered t b.toNat Err.refusedState ∧ t.runState = s.mach.runState) ∧
      (s.mach.runState = .starting ∨ s.mach.runState = .safeHold → Completes (.runStop b) s fun t =>
        t.runState = .off ∧ t.get F.PWR_RUN_STAT_last_cause = Cause.hostStop) ∧
      (s.mach.runState = .run → Completes (.runStop b) s fun t =>
        t.runState = .stopping ∧ t.get F.PWR_RUN_STAT_last_cause = Cause.hostStop) ∧
      (s.mach.runState = .stopping → b.toNat ∉ s.mach.host.mbxOrphan → Completes (.runStop b) s fun t =>
        MbxAnswered t b.toNat Err.ok ∧ t = { s.mach with regs := t.regs, host := t.host }) ∧
      (s.mach.runState = .precharge → s.mach.safety.closeOn = true → Completes (.runStop b) s fun t =>
        t.runState = .precharge ∧ t.power.afterClose = some Cause.hostStop) ∧
      (s.mach.runState = .precharge → s.mach.safety.closeOn = false → Completes (.runStop b) s fun t =>
        t.runState = (if s.mach.brkClosed then .stopping else .safeHold)))) ∧
  ∀ (b : BitVec 4) (w : Word) (s : State), s.mach.mbxServes b.toNat 0x12 = true → s.mach.mbxWords b.toNat = [w] →
    b.toNat ∉ s.mach.host.mbxOrphan →
    (s.mach.runState.rest = true → s.mach.flag F.FLY_STOP_active = false → s.mach.safety.conds = [] →
      Completes (.stopClear b) s fun t => MbxAnswered t b.toNat Err.ok ∧ t.runState = s.mach.runState
        ∧ ∀ n : Fin 128, t.chain.nodes[n] =
          if s.mach.mayManage = true ∧ n.val < s.mach.nodeCount ∧ (fieldOf w 0 8 = 0xFF ∨ fieldOf w 0 8 = n.val)
            ∧ s.mach.chain.nodes[n].rom = false
            ∧ ((s.mach.mgmtPorts (fieldOf w 0 8)).any fun p => s.mach.portUp p && s.mach.reaches p n.val) = true
          then s.mach.chain.nodes[n].release false (!s.mach.flag F.SAF_INPUT_floop) else s.mach.chain.nodes[n]) ∧
    (s.mach.runState.rest = false ∨ s.mach.flag F.FLY_STOP_active = true ∨ s.mach.safety.conds ≠ [] →
      Completes (.stopClear b) s fun t =>
        MbxAnswered t b.toNat Err.noPermit ∧ t = { s.mach with regs := t.regs, host := t.host })

/-! ## Operations (R408 to R414, R498 to R500, R516) -/

/-- R408 to R414, R498 to R500, R516: a slot is started, aborted, acknowledged and ended by its rules; an operation whose condition
does not hold fails with its code; one whose condition holds has its effect and writes its records. Where the condition of an
event does not hold it changes nothing, which is the model's choice (log entry 2, DESIGN CHOICE). -/
def Obligations.OperationSlots : Prop :=
  (∀ (k : Nat) (n : BitVec 4) (s : State), s.mach.reachable (Reg.OP_CTRL n.toNat) = true →
    (∀ c ∈ [Instr.start k n, .opAbort k n], s.mach.get (F.OP_OWNER_owner n.toNat) ≠ k → Completes c s fun t =>
      t = s.mach.refuse Err.notOwner (BitVec.ofNat 32 (s.mach.get (F.OP_OWNER_owner n.toNat)))) ∧
    (s.mach.get (F.OP_OWNER_owner n.toNat) = k →
      (s.mach.opActive n.toNat = true →
        (Completes (.start k n) s fun t => t = s.mach.refuse Err.busy (BitVec.ofNat 32 k)) ∧
        (Completes (.opAbort k n) s fun t => t.get (F.OP_STATUS0_state n.toNat) = 5
          ∧ t.get (F.OP_STATUS0_error n.toNat) = Err.aborted.toNat ∧ n.toNat ∉ t.host.opQueue)) ∧
      (s.mach.opActive n.toNat = false → opKnown (s.mach.opCode n.toNat) = false →
        Completes (.start k n) s fun t => t = s.mach.refuse Err.badOpcode) ∧
      (s.mach.opActive n.toNat = false → opKnown (s.mach.opCode n.toNat) = true → s.mach.host.opQueue = [] →
        Completes (.start k n) s fun t => t.get (F.OP_STATUS0_state n.toNat) = 2
          ∧ t.get (F.OP_STATUS1_gen n.toNat) = (s.mach.get (F.OP_STATUS1_gen n.toNat) + 1) % 16
          ∧ t.get (F.OP_STATUS1_partial n.toNat) = 0 ∧ t.rd (Reg.OP_ACK n.toNat) = 0 ∧ t.host.opQueue = [n.toNat]
          ∧ t.opCaller n.toNat = k
          ∧ RegsKept s.mach t [Reg.OP_STATUS0 n.toNat, Reg.OP_STATUS1 n.toNat, Reg.OP_ACK n.toNat]) ∧
      (s.mach.opState n.toNat = 0 → Completes (.opAbort k n) s fun t => t = s.mach.refuse Err.refusedState) ∧
      (3 ≤ s.mach.opState n.toNat → Completes (.opAbort k n) s fun t => t = s.mach.ok))) ∧
  (∀ (k : Nat) (n : BitVec 4) (c : BitVec 24) (s : State), s.mach.reachable (Reg.OP_ACK n.toNat) = true →
    s.mach.get (F.OP_OWNER_owner n.toNat) = k →
    (c.toNat < s.mach.get (F.OP_ACK_ack n.toNat) ∨ s.mach.get (F.OP_STATUS1_partial n.toNat) < c.toNat →
      Completes (.opAckWrite k n c) s fun t => t = s.mach.refuse Err.refusedValue) ∧
    (s.mach.get (F.OP_ACK_ack n.toNat) ≤ c.toNat → c.toNat ≤ s.mach.get (F.OP_STATUS1_partial n.toNat) →
      s.mach.flag (F.OP_STATUS0_paused n.toNat) = false → Completes (.opAckWrite k n c) s fun t =>
        t = { s.mach.ok with regs := t.regs } ∧ t.get (F.OP_ACK_ack n.toNat) = c.toNat
          ∧ RegsKept s.mach t [Reg.OP_ACK n.toNat])) ∧
  (∀ (n : BitVec 4) (s : State),
    (s.mach.opState n.toNat = 2 → n.toNat ∈ s.mach.host.opDone →
      s.mach.opCode n.toNat ≠ 0x14 ∨ s.mach.supply = .normal → Completes (.operationEnd n) s fun t =>
      t.get (F.OP_STATUS0_state n.toNat) = 3 ∧ t.get (F.OP_STATUS0_error n.toNat) = 0
        ∧ t.get (F.OP_STATUS0_progress n.toNat) = 1000 ∧ n.toNat ∉ t.host.opQueue
        ∧ (s.mach.opCode n.toNat = 0x18 → t.power.resetPend = some 2 ∧ t.power.lifePend = false
          ∧ t.markOf .lifeReset = some s.mach.upNs)
        ∧ (s.mach.opCode n.toNat = 0x14 → ∀ v, s.mach.mgmt.journal = .confirming v →
          t.mgmt.journal = .normal ∧ t.mgmt.confirmNs = none ∧ t.get F.LCY_ROLLBACK_count = max v (s.mach.get F.LCY_ROLLBACK_count)
            ∧ t.stage = (if s.mach.mgmt.updOwner = 0 then Stage.idle else Stage.orphaned))) ∧
    (s.mach.opState n.toNat ≠ 2 ∨ n.toNat ∉ s.mach.host.opDone ∨ (s.mach.opCode n.toNat = 0x14 ∧ s.mach.supply ≠ .normal) →
      Completes (.operationEnd n) s fun t => t = s.mach)) ∧
  (∀ (n : BitVec 4) (r : Option MgmtResp) (ws : List WireRec) (ts : List TestResult) (ok : Bool) (s : State),
    ∀ x ∈ ([(.nodeRead n r, 0x01, s.mach.nodeError n.toNat 64 false r),
      (.nodeWrite n r, 0x02, s.mach.nodeError n.toNat 56 true r), (.wireCal n ws, 0x03, s.mach.wireError),
      (.logRead n, 0x04, errIf (s.mach.opArg n.toNat 2 == 0 || decide (16777216 ≤ (s.mach.opArg n.toNat 2).toNat))
        Err.refusedValue),
      (.progStore n ok, 0x05, s.mach.storeError n.toNat ok), (.progLoad n, 0x06, s.mach.loadError n.toNat),
      (.calRead n, 0x07, errIf (!s.mach.calRange n.toNat 16384) Err.refusedValue),
      (.calWrite n ok, 0x08, s.mach.calError n.toNat ok), (.configSave n ok, 0x09, s.mach.saveError ok),
      (.selftest n ts, 0x0A, errIf (fieldOf (s.mach.opArg n.toNat 0) 0 8 == 0) Err.refusedValue)] :
      List (Instr × Nat × Option (BitVec 16 × Nat))),
    (s.mach.opMay n.toNat x.2.1 = true → ∀ e a, x.2.2 = some (e, a) → Completes x.1 s fun t => OpFailed t n.toNat e) ∧
    (s.mach.opWorks n.toNat x.2.1 = true → s.mach.opServed x.2.1 = false → Completes x.1 s fun t =>
      OpFailed t n.toNat Err.refusedState) ∧
    (s.mach.opWorks n.toNat x.2.1 = false → Completes x.1 s fun t => t = s.mach)) ∧
  (∀ (n : BitVec 4) (r : MgmtResp) (s : State),
    (s.mach.opFresh n.toNat 0x01 = true → s.mach.nodeError n.toNat 64 false (some r) = none →
      Completes (.nodeRead n (some r)) s fun t => OpWorked t n.toNat 1
        ∧ t = { s.mach with regs := t.regs, host := t.host, chain := t.chain, out := t.out }
        ∧ t.rd (opWindow n.toNat)
          = bytesWord r.status (BitVec.ofNat 8 (s.mach.nodeArgs n.toNat).1) (BitVec.ofNat 8 (s.mach.nodeArgs n.toNat).2.1) 0
        ∧ ∀ j, j < 16 → t.rd (opWindow n.toNat + 4 + 4 * j) = (bytesWords (fillBytes (s.mach.nodeAnswer
          (s.mach.nodeArgs n.toNat).1 (s.mach.nodeArgs n.toNat).2.2 (s.mach.nodeArgs n.toNat).2.1 r) 64)).getD j 0) ∧
    (s.mach.opFresh n.toNat 0x02 = true → s.mach.nodeError n.toNat 56 true (some r) = none →
      Completes (.nodeWrite n (some r)) s fun t => OpWorked t n.toNat 1
        ∧ t = { s.mach with regs := t.regs, host := t.host, chain := t.chain, out := t.out } ∧ t.rd (opWindow n.toNat)
        = bytesWord r.status (BitVec.ofNat 8 (s.mach.nodeArgs n.toNat).1) r.ackCnt 0)) ∧
  (∀ (n : BitVec 4) (ws : List WireRec) (s : State), s.mach.opFresh n.toNat 0x03 = true → s.mach.wireError = none →
    Completes (.wireCal n ws) s fun t => t.get (F.OP_STATUS1_partial n.toNat) = min 64 s.mach.nodeCount
      ∧ t.runState = s.mach.runState ∧ t.mem = s.mach.mem
      ∧ ∀ p, p < min 64 s.mach.nodeCount → ∀ r, ws.find? (·.pos == p) = some r →
        t.rd (opWindow n.toNat + 32 * p) = bytesWord (BitVec.ofNat 8 p) (wireCode r) (BitVec.ofNat 8 r.cells) 0) ∧
  (∀ (n : BitVec 4) (s : State),
    (s.mach.opFresh n.toNat 0x04 = true → s.mach.opArg n.toNat 2 ≠ 0 → (s.mach.opArg n.toNat 2).toNat < 16777216 →
      Completes (.logRead n) s fun t => t = { s.mach with regs := t.regs, host := t.host }
        ∧ t.get (F.OP_STATUS1_partial n.toNat) = min 64
          ((if (s.mach.opArg n.toNat 0).getLsbD 0 then s.mach.mgmt.archive else s.mach.mgmt.log).filter fun e =>
            decide ((e.seq - s.mach.opArg n.toNat 1).toNat < (s.mach.opArg n.toNat 2).toNat)).length) ∧
    (s.mach.opFresh n.toNat 0x07 = true → s.mach.calRange n.toNat 16384 = true → Completes (.calRead n) s fun t =>
      t = { s.mach with regs := t.regs, host := t.host }
        ∧ t.get (F.OP_STATUS1_partial n.toNat) = min 32 (s.mach.opArg n.toNat 1).toNat
        ∧ ∀ j, j < 16 → t.rd (opWindow n.toNat + 4 * j)
          = (s.mach.mgmt.cal (s.mach.opArg n.toNat 0).toNat).1.getD j 0) ∧
    (s.mach.opFresh n.toNat 0x05 = true → s.mach.storeError n.toNat true = none → Completes (.progStore n true) s fun t =>
      OpWorked t n.toNat 1 ∧ t.mgmt.slots.toList[(s.mach.opArg n.toNat 0).toNat]? = some ⟨s.mach.mgmt.staged⟩
        ∧ t.stage = Stage.open ∧ t.mgmt.blockMap = []) ∧
    (s.mach.opFresh n.toNat 0x06 = true → s.mach.loadError n.toNat = none →
      ((s.mach.domainOn .spin0).domFault .spin0 = true → Completes (.progLoad n) s fun t =>
        OpFailed t n.toNat Err.domainOff) ∧
      ((s.mach.domainOn .spin0).domFault .spin0 = false →
      (∀ p : ProgImage, (s.mach.domainOn .spin0).slotCheck (fieldOf (s.mach.opArg n.toNat 0) 0 3) (s.mach.opCaller n.toNat)
        = .ok p → Completes (.progLoad n) s fun t => OpWorked t n.toNat 1 ∧ t.get F.SPN_STAT_state = 1
          ∧ t.mgmt.loadedSlot = fieldOf (s.mach.opArg n.toNat 0) 0 3 ∧ t.domOn .spin0 = true) ∧
      (∀ e, (s.mach.domainOn .spin0).slotCheck (fieldOf (s.mach.opArg n.toNat 0) 0 3) (s.mach.opCaller n.toNat) = .error e →
        Completes (.progLoad n) s fun t => OpFailed t n.toNat e ∧ t.get F.SPN_STAT_state = 0
          ∧ t.get F.GLB_PROG_VER_major = 0))) ∧
    (s.mach.opFresh n.toNat 0x08 = true → s.mach.calError n.toNat true = none → Completes (.calWrite n true) s fun t =>
      OpWorked t n.toNat 1 ∧ ∀ j, j < 16 * (s.mach.opArg n.toNat 1).toNat →
        lookup 0 t.mgmt.calA (16 * (s.mach.opArg n.toNat 0).toNat + j) = s.mach.rd (Reg.MGT_XFER_BUF j)
          ∧ lookup 0 t.mgmt.calB (16 * (s.mach.opArg n.toNat 0).toNat + j) = s.mach.rd (Reg.MGT_XFER_BUF j)) ∧
    (s.mach.opFresh n.toNat 0x09 = true → s.mach.saveError true = none → Completes (.configSave n true) s fun t =>
      OpWorked t n.toNat 1 ∧ t.rd (opWindow n.toNat) = BitVec.ofNat 32 s.mach.mgmt.nextGen
        ∧ t.mgmt = s.mach.mgmt.configPut (some ⟨s.mach.mgmt.nextGen, s.mach.configNow, s.mach.mgmt.bootSlot⟩)) ∧
    (s.mach.opFresh n.toNat 0x09 = true → s.mach.saveError false = some (Err.flash, 0) →
      Completes (.configSave n false) s fun t => OpFailed t n.toNat Err.flash ∧ t.mgmt = s.mach.mgmt.configPut none)) ∧
  ∀ (n : BitVec 4) (ts : List TestResult) (s : State), s.mach.opFresh n.toNat 0x0A = true →
    fieldOf (s.mach.opArg n.toNat 0) 0 8 ≠ 0 → Completes (.selftest n ts) s fun t =>
      OpWorked t n.toNat ((List.range 8).filter fun b => (s.mach.opArg n.toNat 0).getLsbD b).length

/-! ## Updates and the life cycle (R482 to R484, R491 to R495, R501 to R503) -/

/-- R482, R483, R491 to R495, R501 to R503: each update operation fails with the code of the first condition that does not hold, or
moves the update session to its next stage; a change of life cycle is made with its wipe pending; the lock and the confirmation
window run out; entries are archived, hours counted and sensors read. Where the condition of an
event does not hold it changes nothing, which is the model's choice (log entry 2). -/
def Obligations.UpdatesAndLifeCycle : Prop :=
  (∀ (n : BitVec 4) (ok : Bool) (sig : SigFacts) (s : State),
    ∀ x ∈ ([(.updateOpen n, 0x10, s.mach.openError n.toNat),
      (.updateWrite n ok, 0x11, if s.mach.writeCheck n.toNat = none ∧ s.mach.supply ≠ .normal then none
        else s.mach.writeError n.toNat ok),
      (.updateVerify n sig, 0x12, s.mach.verifyError n.toNat sig), (.updateActivate n, 0x13, s.mach.activateError n.toNat),
      (.updateConfirm n, 0x14, s.mach.confirmError n.toNat),
      (.updateClose n, 0x15, orErr (s.mach.lockError (s.mach.opCaller n.toNat))
        (s.mach.needSession [Stage.open, Stage.orphaned, Stage.verified])),
      (.lifecycleSet n, 0x18, s.mach.lifeSetError n.toNat)] : List (Instr × Nat × Option (BitVec 16 × Nat))),
    (s.mach.opWorks n.toNat x.2.1 = true → ∀ e a, x.2.2 = some (e, a) → Completes x.1 s fun t => OpFailed t n.toNat e) ∧
    (s.mach.opWorks n.toNat x.2.1 = false → Completes x.1 s fun t => t = s.mach)) ∧
  (∀ (n : BitVec 4) (ok : Bool) (s : State), s.mach.opWorks n.toNat 0x11 = true → s.mach.writeCheck n.toNat = none →
    s.mach.supply ≠ .normal →
    (s.mach.markOf .flash = none → Completes (.updateWrite n ok) s fun t => t = s.mach.mark .flash) ∧
    ∀ t0, s.mach.markOf .flash = some t0 → Completes (.updateWrite n ok) s fun t =>
      OpFailed t n.toNat Err.supply ∧ t0 + 10000000000 ≤ t.upNs ∧ t.markOf .flash = none
        ∧ t.mgmt.stagePages = s.mach.mgmt.stagePages) ∧
  (∀ (n : BitVec 4) (sig : SigFacts) (s : State),
    (s.mach.opFresh n.toNat 0x10 = true → s.mach.openError n.toNat = none → Completes (.updateOpen n) s fun t =>
      OpWorked t n.toNat 1 ∧ t.mgmt.updOwner = s.mach.opCaller n.toNat ∧ t.stage = Stage.open
        ∧ t.mgmt.updLen = (s.mach.opArg n.toNat 1).toNat ∧ t.mgmt.updDigest = s.mach.openDigest n.toNat
        ∧ t.mgmt.updCert = s.mach.certHash (s.mach.opCaller n.toNat) ∧ t.mgmt.updNs = s.mach.upNs) ∧
    (s.mach.opFresh n.toNat 0x11 = true → s.mach.writeError n.toNat true = none →
      Completes (.updateWrite n true) s fun t =>
        OpWorked t n.toNat 1 ∧ (s.mach.opArg n.toNat 0).toNat ∈ t.mgmt.blockMap ∧ t.stage = Stage.open
          ∧ t.mgmt.verified = false ∧ t.mgmt.staged = none ∧ t.mgmt.stagePages.head? = some ((s.mach.opArg n.toNat 0).toNat,
            s.mach.xferWords ((s.mach.opArg n.toNat 1).toNat / 4))) ∧
    (s.mach.opFresh n.toNat 0x12 = true → s.mach.verifyError n.toNat sig = none →
      Completes (.updateVerify n sig) s fun t =>
        OpWorked t n.toNat 1 ∧ t.mgmt.staged = some (s.mach.stagedImage sig) ∧ t.mgmt.verified = true ∧ t.stage = Stage.verified
          ∧ t.get F.MGT_IMG_SECVER_staged = (s.mach.stagedImage sig).secVer.toNat) ∧
    (s.mach.opFresh n.toNat 0x13 = true → s.mach.activateError n.toNat = none → ∀ img, s.mach.mgmt.staged = some img →
      (img.kind = .keyBundle → Completes (.updateActivate n) s fun t =>
        OpWorked t n.toNat 1 ∧ t.mgmt.keys = img.keys.orElse (fun _ => s.mach.mgmt.keys) ∧ t.power.resetPend = some 2) ∧
      (img.kind = .firmware → Completes (.updateActivate n) s fun t =>
        OpWorked t n.toNat 1 ∧ t.mgmt.journal = .activating ∧ t.mgmt.jDigest = some img.digest ∧ t.mgmt.updOwner = 0
          ∧ t.stage = Stage.activating ∧ t.power.resetPend = some 2)) ∧
    (s.mach.opFresh n.toNat 0x14 = true → s.mach.confirmError n.toNat = none → Completes (.updateConfirm n) s fun t =>
      OpWorked t n.toNat 1 ∧ t.stage = s.mach.stage ∧ t.get F.LCY_ROLLBACK_advance_pending = 1
        ∧ t.mgmt.journal = .confirming ((s.mach.mgmt.running.map (·.secVer.toNat)).getD 0)
        ∧ t.rd (opWindow n.toNat) = BitVec.ofNat 32
          (max ((s.mach.mgmt.running.map (·.secVer.toNat)).getD 0) (s.mach.get F.LCY_ROLLBACK_count))) ∧
    (s.mach.opFresh n.toNat 0x15 = true → s.mach.lockError (s.mach.opCaller n.toNat) = none →
      s.mach.needSession [Stage.open, Stage.orphaned, Stage.verified] = none → Completes (.updateClose n) s fun t =>
        OpWorked t n.toNat 1 ∧ t.mgmt.updOwner = 0 ∧ t.mgmt.blockMap = [] ∧ t.mgmt.staged = none
          ∧ t.stage = s.mach.restStage) ∧
    (∀ dst : LifeCycle, s.mach.opFresh n.toNat 0x18 = true → s.mach.lifeSetError n.toNat = none →
      LifeCycle.ofCode (fieldOf (s.mach.opArg n.toNat 0) 0 3) = some dst → Completes (.lifecycleSet n) s fun t =>
        OpWorked t n.toNat 1 ∧ t.lifeCycle = dst ∧ t.power.lifePend = true ∧ t.rd (opWindow n.toNat) = BitVec.ofNat 32 dst.code
          ∧ t.mgmt.wiped = wipeCode dst (fieldOf (s.mach.opArg n.toNat 1) 0 4))) ∧
  (∀ s : State,
    (s.mach.mgmt.updOwner = 0 → Completes .updateLockTimeout s fun t => t = s.mach) ∧
    (s.mach.mgmt.updOwner ≠ 0 → Completes .updateLockTimeout s fun t =>
      t.mgmt.updOwner = 0 ∧ t.mgmt.blockMap = [] ∧ t.mgmt.staged = none ∧ t.stage = s.mach.restStage
        ∧ s.mach.mgmt.updNs + 600000000000 ≤ t.upNs
        ∧ t.get F.MGT_IRQ_STAT_lock_timeout = 1 ∧ t.runState = s.mach.runState ∧ t.mem = s.mach.mem)) ∧
  (∀ s : State,
    (s.mach.mgmt.confirmNs = none → Completes .confirmWindowExpiry s fun t => t = s.mach) ∧
    (∀ c, s.mach.mgmt.confirmNs = some c → s.mach.power.distaffAbsent = false → Completes .confirmWindowExpiry s fun t =>
      t.mgmt.confirmNs = none ∧ c ≤ t.upNs ∧ ∃ e ∈ t.mgmt.log, e.cls = 7 ∧ e.seq = s.mach.rd Reg.MGT_LOG_SEQ)) ∧
  (∀ s : State,
    (128 ≤ s.mach.mgmt.unarchived → s.mach.supply = .normal → s.mach.power.distaffAbsent = false →
      Completes .logArchive s fun t => t = { s.mach with mgmt := { s.mach.mgmt with
        archive := (((s.mach.mgmt.log.drop (s.mach.mgmt.unarchived - 128)).take 128) ++ s.mach.mgmt.archive).take 819200
        unarchived := s.mach.mgmt.unarchived - 128 } }) ∧
    (s.mach.mgmt.unarchived < 128 ∨ s.mach.supply ≠ .normal → Completes .logArchive s fun t => t = s.mach)) ∧
  (∀ s : State,
    (s.mach.power.powered = true → Completes .operatingHour s fun t =>
      t = { s.mach with regs := t.regs, time := t.time, chain := t.chain, power := { s.mach.power with marks := t.power.marks } }
        ∧ t.rd Reg.MGT_PCNT_HOURS = s.mach.counted Reg.MGT_PCNT_HOURS ∧ t.markOf .hour = some t.upNs
        ∧ (∀ t0, s.mach.markOf .hour = some t0 → t0 + 3600000000000 ≤ t.upNs)
        ∧ RegsKept s.mach t [Reg.MGT_PCNT_HOURS]) ∧
    (s.mach.power.powered = false → Completes .operatingHour s fun t => t = s.mach)) ∧
  ∀ (vs : List (Option Int)) (s : State),
    (s.mach.power.distaffAbsent = true → Completes (.sensorRead vs) s fun t => t = s.mach) ∧
    (s.mach.power.distaffAbsent = false → Completes (.sensorRead vs) s fun t =>
      (∀ t0, s.mach.markOf .sensors = some t0 → t0 + 100000000 ≤ t.upNs) ∧ t.markOf .sensors = some t.upNs ∧
      (∀ l, s.mach.power.modRead = some l → ∀ n, n < 3 → n < vs.length → (∀ x, l.getD n none = some x →
        t.get (F.MGT_SENS_value n) = (BitVec.ofInt 16 x).toNat ∧ t.get (F.MGT_SENS_status n)
          = if (sensorRange n).1 ≤ x ∧ x ≤ (sensorRange n).2 then 0 else 1) ∧
        (l.getD n none = none → t.get (F.MGT_SENS_status n) = 1 ∧ t.get F.MGT_IRQ_STAT_sensor_fail = 1)) ∧
      ∀ n, n < 12 → ∀ v, vs[n]? = some v → 3 ≤ n ∨ s.mach.power.modRead = none →
        (v = none ∨ (10 ≤ n ∧ s.mach.get (F.ETH_PORT_STAT_speed (n - 9)) = 0
            ∧ s.mach.flag (F.ETH_PORT_STAT_unsupported (n - 9)) = false ∧ s.mach.flag (F.ETH_PORT_STAT_fault (n - 9)) = false) →
          t.get (F.MGT_SENS_value n) = 0 ∧ t.get (F.MGT_SENS_status n) = 2) ∧
        (n < 10 ∨ s.mach.get (F.ETH_PORT_STAT_speed (n - 9)) ≠ 0 → ∀ x : Int, v = some x →
          t.get (F.MGT_SENS_value n) = (BitVec.ofInt 16 x).toNat ∧ t.get (F.MGT_SENS_status n)
            = if (sensorRange n).1 ≤ x ∧ x ≤ (sensorRange n).2 then 0 else 1))

/-! ## Sessions, streams and the host ring (R386 to R396, R400, R401, R416, R418) -/

/-- R386 to R396, R400, R401, R416: a handshake opens a session or ends with an alert; every way of closing a session leaves it
closed; keep-alives, telegrams and event notifications; a stream is configured and its records leave or are dropped; the ports'
links, modules and faults; ARP, ICMP, HSR and the babble finding. Where the condition of an
event does not hold it changes nothing, a command of an interval's end lets time pass up to it, and a stream sends one record per
message, which are the model's choices (log entries 2, 12 and 44, DESIGN CHOICE). -/
def Obligations.SessionsAndRing : Prop :=
  (∀ (svc : Bool) (c : ClientCert) (s : State), s.mach.power.distaffAbsent = false →
    s.mach.domOn (if svc then .svc else .host) = true →
    (∀ k, s.mach.certOk svc c = true → s.mach.freeSession svc = some k → Completes (.dtlsHandshake svc c) s fun t =>
      t.host.sessions = s.mach.host.sessions ++ [⟨k, c, [], s.mach.upNs, false, 0⟩] ∧ t.bit Reg.ETH_SESS_STAT k = true
        ∧ t.get F.ETH_IRQ_STAT_session = 1 ∧ RegsKept s.mach t [Reg.ETH_SESS_STAT, Reg.ETH_IRQ_STAT]) ∧
    (s.mach.certOk svc c = false ∨ s.mach.freeSession svc = none → Completes (.dtlsHandshake svc c) s fun t =>
      t = { s.mach with regs := t.regs, out := .closeAlert 0 :: s.mach.out }
        ∧ t.rd Reg.ETH_CNT_HS_FAIL = s.mach.counted Reg.ETH_CNT_HS_FAIL ∧ RegsKept s.mach t [Reg.ETH_CNT_HS_FAIL])) ∧
  (∀ (x : Nat) (s : State), ∀ c ∈ [Instr.sessionClose x, .closeNotify x, .sessionIdleTimeout x],
    (s.mach.sessionOpen x = true → Completes c s fun t =>
      t.sessionOpen x = false ∧ t.get F.ETH_IRQ_STAT_session = 1 ∧ t.bit Reg.ETH_SESS_STAT x = false
        ∧ ∀ l ∈ t.latches, l.master ≠ x) ∧
    (s.mach.sessionOpen x = false → Completes c s fun t => t = s.mach)) ∧
  (∀ (x : Nat) (s : State) (z : Session), s.mach.session x = some z → Completes (.sessionIdleTimeout x) s fun t =>
    t.sessionOpen x = false ∧ z.lastNs + s.mach.get F.ETH_SESS_CFG_idle * 1000000000 ≤ t.upNs) ∧
  (∀ (k : Nat) (d : Word) (s : State), s.mach.reachable Reg.ETH_SESS_CLOSE = true →
    (∀ e h, sessCloseRefusal k d = some (e, h) → Completes (.ethSessCloseWrite k d) s fun t =>
      t = s.mach.refuse e (BitVec.ofNat 32 h)) ∧
    (sessCloseRefusal k d = none → Completes (.ethSessCloseWrite k d) s fun t =>
      ∀ x ∈ [1, 2, 3, 4, 5, 6, 7, 8, 13], d.getLsbD x = true → t.sessionOpen x = false)) ∧
  (∀ (x : Nat) (bs : List Byte) (s : State),
    (s.mach.sessionOpen x = false → ∀ c ∈ [Instr.keepalive x, .telegram x bs], Completes c s fun t => t = s.mach) ∧
    (s.mach.sessionOpen x = true →
      (Completes (.keepalive x) s fun t =>
        t.out = .dareri x keepaliveMsg :: s.mach.out ∧ t.regs = s.mach.regs
          ∧ t.host.sessions = s.mach.host.sessions.map fun z => if z.id = x then { z with lastNs := s.mach.upNs } else z) ∧
      (x = 13 → Completes (.telegram x bs) s fun t => t = { s.mach with host := t.host }) ∧
      (x ≠ 13 → s.mach.telFormOk bs = false → Completes (.telegram x bs) s fun t =>
        t.rd Reg.SAF_CNT_TEL_BAD = s.mach.counted Reg.SAF_CNT_TEL_BAD ∧ RegsKept s.mach t [Reg.SAF_CNT_TEL_BAD]
          ∧ t.runState = s.mach.runState ∧ t.safety = s.mach.safety))) ∧
  (∀ (x : Nat) (z : Session) (s : State), 1 ≤ x → x ≤ 8 → s.mach.domOn .host = true → s.mach.session x = some z →
    (s.mach.irqSum &&& s.mach.rd (Reg.GLB_IRQ_EN x) ≠ 0 → z.irqHigh = false → Completes (.eventNotify x) s fun t =>
      t.out = .dareri x (eventMsg (z.events + 1) [s.mach.irqSum, s.mach.rd (Reg.GLB_IRQ_EN x),
        BitVec.ofNat 32 s.mach.time.sec, BitVec.ofNat 32 s.mach.time.ns]) :: s.mach.out ∧ t.regs = s.mach.regs) ∧
    (s.mach.irqSum &&& s.mach.rd (Reg.GLB_IRQ_EN x) = 0 ∨ z.irqHigh = true → Completes (.eventNotify x) s fun t =>
      t = { s.mach with host := t.host })) ∧
  (∀ (x : BitVec 4) (full : Bool) (s : State),
    (s.mach.get (F.Q_STR_CFG_session x.toNat) = 0 ∨ s.mach.power.distaffAbsent = true →
      Completes (.streamRecord x full) s fun t => t = s.mach) ∧
    (s.mach.get (F.Q_STR_CFG_session x.toNat) ≠ 0 → s.mach.power.distaffAbsent = false →
      (s.mach.get (F.Q_STR_CFG_set x.toNat) ≠ 7 → s.mach.host.streamSkip.toList.getD x.toNat 0 ≠ 0 →
        Completes (.streamRecord x full) s fun t => t = { s.mach with host := t.host }
          ∧ t.host.streamSkip.toList.getD x.toNat 0 = s.mach.host.streamSkip.toList.getD x.toNat 0 - 1) ∧
      (s.mach.get (F.Q_STR_CFG_set x.toNat) = 7 ∨ s.mach.host.streamSkip.toList.getD x.toNat 0 = 0 →
        ∀ r : List Byte, s.mach.streamRecords x.toNat = [r] → Completes (.streamRecord x full) s fun t =>
          t.host.streamSeq.toList.getD x.toNat 0 = s.mach.host.streamSeq.toList.getD x.toNat 0 + 1 ∧
          if full then t.rd (Reg.Q_STR_DROP x.toNat) = s.mach.counted (Reg.Q_STR_DROP x.toNat) ∧ t.out = s.mach.out
          else t.rd (Reg.Q_STR_SEQ x.toNat) = BitVec.ofNat 32 (s.mach.host.streamSeq.toList.getD x.toNat 0 + 1)
            ∧ t.out = .dareri (s.mach.get (F.Q_STR_CFG_session x.toNat)) (streamMsg (t.rd (Reg.Q_STR_SEQ x.toNat)) x.toNat
              (s.mach.get (F.Q_STR_CFG_set x.toNat)) s.mach.frozenCycle (s.mach.rd (Reg.Q_STR_DROP x.toNat)) r)
              :: s.mach.out))) ∧
  (∀ (k : Nat) (x : BitVec 4) (d : Word) (s : State), s.mach.reachable (Reg.Q_STR_CFG x.toNat) = true →
    (∀ e h, s.mach.streamRefusal k x.toNat d = some (e, h) → Completes (.streamCfgWrite k x d) s fun t =>
      t = s.mach.refuse e (BitVec.ofNat 32 h)) ∧
    (s.mach.streamRefusal k x.toNat d = none → Completes (.streamCfgWrite k x d) s fun t =>
      t.rd (Reg.Q_STR_CFG x.toNat) = d &&& 0xFFFF0000 ∧ t.mem = s.mach.mem
        ∧ (s.mach.get (F.Q_STR_CFG_session x.toNat) = 0 →
          t.rd (Reg.Q_STR_SEQ x.toNat) = 0 ∧ t.rd (Reg.Q_STR_DROP x.toNat) = 0)
        ∧ RegsKept s.mach t [Reg.Q_STR_CFG x.toNat, Reg.Q_STR_SEQ x.toNat, Reg.Q_STR_DROP x.toNat])) ∧
  (∀ (p : BitVec 1) (s : State), s.mach.domOn .host = true →
    (s.mach.ethServes (portNo p) = true → s.mach.get (F.ETH_PORT_STAT_speed (portNo p)) ≠ 0 → Completes (.linkUp p) s fun t =>
      t.get (F.ETH_PORT_STAT_link (portNo p)) = 1 ∧ t.out = .gratuitousArp p :: s.mach.out
        ∧ RegsKept s.mach t [Reg.ETH_PORT_STAT (portNo p), Reg.ETH_IRQ_STAT]) ∧
    (Completes (.linkDown p) s fun t => t.get (F.ETH_PORT_STAT_link (portNo p)) = 0
      ∧ RegsKept s.mach t [Reg.ETH_PORT_STAT (portNo p), Reg.ETH_IRQ_STAT]) ∧
    (∀ k : SfpKind, Completes (.sfpModuleChange p k) s fun t =>
      t.get (F.ETH_PORT_STAT_speed (portNo p))
          = (if s.mach.flag (F.ETH_PORT_STAT_fault (portNo p)) then 0 else sfpSpeed k)
        ∧ t.get (F.ETH_PORT_STAT_unsupported (portNo p)) = (k == .other).toNat
        ∧ (t.get (F.ETH_PORT_STAT_speed (portNo p)) = 0 → t.get (F.ETH_PORT_STAT_link (portNo p)) = 0)
        ∧ t.host.cages.toList[p.toNat]? = some ⟨t.get (F.ETH_PORT_STAT_speed (portNo p)) == 2,
          t.get (F.ETH_PORT_STAT_speed (portNo p)) == 0, !s.mach.flag (F.ETH_PORT_STAT_fault (portNo p))⟩) ∧
    (Completes (.sfpPowerFault p) s fun t =>
      t.get (F.ETH_PORT_STAT_fault (portNo p)) = 1 ∧ t.get (F.ETH_PORT_STAT_speed (portNo p)) = 0
        ∧ t.get (F.ETH_PORT_STAT_link (portNo p)) = 0 ∧ t.host.cages.toList[p.toNat]? = some ⟨false, true, false⟩
        ∧ RegsKept s.mach t [Reg.ETH_PORT_STAT (portNo p), Reg.ETH_IRQ_STAT]) ∧
    (∀ n d : Nat, s.mach.host.window.toList[p.toNat]? = some (n, d) → Completes (.babbleWindow p) s fun t =>
      t = { s.mach with regs := t.regs, host := t.host } ∧ t.host.window.toList[p.toNat]? = some (0, 0)
        ∧ (n < 10 * d → t.get (F.ETH_PORT_STAT_babble (portNo p)) = 1 ∧ t.get F.ETH_IRQ_STAT_babble = 1)
        ∧ (10 * d ≤ n → t.regs = s.mach.regs)) ∧
    (s.mach.ethServes (portNo p) = true → s.mach.flag (F.ETH_PORT_STAT_link (portNo p)) = true →
      (Completes (.hsrFrameRx p .ownReturned) s fun t =>
        t = { s.mach with regs := t.regs, host := t.host } ∧ RegsKept s.mach t [Reg.ETH_CNT_RX (portNo p)]
          ∧ t.rd (Reg.ETH_CNT_RX (portNo p)) = s.mach.counted (Reg.ETH_CNT_RX (portNo p))) ∧
      (∀ (n : Nat), s.mach.bucketHas (portNo p) 0 (8 * n) = true →
        Completes (.hsrFrameRx p (.unicastOther n)) s fun t => t.out = .hsrForward p :: s.mach.out
          ∧ RegsKept s.mach t [Reg.ETH_CNT_RX (portNo p)]) ∧
      (∀ (a : BitVec 48) (q : BitVec 16) (n : Nat), s.mach.bucketHas (portNo p) 1 (8 * n) = true →
        Completes (.hsrFrameRx p (.unicastOwn a q n)) s fun t =>
          if s.mach.hsrSeen.any fun e => e.1 == a && e.2.1 == q then
            t.out = s.mach.out ∧ t.rd (Reg.ETH_CNT_DUP (portNo p)) = s.mach.counted (Reg.ETH_CNT_DUP (portNo p))
          else t.out = .hsrDeliver p :: s.mach.out ∧ t.hsrSeen.any (fun e => e.1 == a && e.2.1 == q) = true) ∧
      (∀ (a : BitVec 48) (q : BitVec 16) (n : Nat), s.mach.bucketHas (portNo p) 0 (8 * n) = true →
        s.mach.bucketHas (portNo p) 2 (8 * n) = true → (s.mach.hsrSeen.any fun e => e.1 == a && e.2.1 == q) = false →
        Completes (.hsrFrameRx p (.group a q n)) s fun t => t.out = .hsrDeliver p :: .hsrForward p :: s.mach.out) ∧
      (∀ (a : BitVec 48) (q : BitVec 16), s.mach.bucketHas (portNo p) 3 1 = true →
        (s.mach.hsrSeen.any fun e => e.1 == a && e.2.1 == q) = false →
        Completes (.hsrFrameRx p (.supervision a q)) s fun t => t.out = .hsrDeliver p :: .hsrForward p :: s.mach.out) ∧
      (∀ (f : HsrFrame) (n : Nat), f = .unicastOther n → s.mach.bucketHas (portNo p) 0 (8 * n) = false →
        Completes (.hsrFrameRx p f) s fun t => t.out = s.mach.out
          ∧ t.rd (Reg.ETH_CNT_POLICE (portNo p)) = s.mach.counted (Reg.ETH_CNT_POLICE (portNo p))))) ∧
  ∀ (a : BitVec 48) (w : Word) (own : Bool) (s : State),
    (s.mach.ringServes = true → Completes .hsrSupervisionSend s fun t =>
      t.out = .hsrSupervision (s.mach.get F.ETH_HSR_CFG_net_id) :: s.mach.out ∧ t.regs = s.mach.regs
        ∧ t.markOf .supervision = some t.upNs
        ∧ ∀ t0, s.mach.markOf .supervision = some t0 → t0 + 2000000000 ≤ t.upNs) ∧
    (s.mach.ringServes = false → Completes .hsrSupervisionSend s fun t => t = s.mach) ∧
    (s.mach.domOn .host = true →
      (Completes (.arpRequestRx a w own) s fun t =>
        t.out = (if w = s.mach.rd Reg.ETH_IP_ADDR then .arpReply a :: s.mach.out else s.mach.out)
          ∧ (own = true → t.get F.ETH_STAT_addr_conflict = 1 ∧ t.get F.ETH_IRQ_STAT_addr_conflict = 1)
          ∧ (own = false → t.regs = s.mach.regs)) ∧
      (w ≠ s.mach.rd Reg.ETH_IP_ADDR → Completes (.icmpEchoRx a w) s fun t => t = s.mach) ∧
      (w = s.mach.rd Reg.ETH_IP_ADDR →
        ((s.mach.host.icmpAt.filter fun x => decide (s.mach.upNs < x + 1000000000)).length < 10 →
          Completes (.icmpEchoRx a w) s fun t => t = { s.mach with host := t.host, out := .icmpReply a :: s.mach.out }
            ∧ t.host.icmpAt.head? = some s.mach.upNs) ∧
        (10 ≤ (s.mach.host.icmpAt.filter fun x => decide (s.mach.upNs < x + 1000000000)).length →
          Completes (.icmpEchoRx a w) s fun t => t = s.mach)))

/-! ## The CAN ports (R423 to R440) -/

/-- R423 to R440: a received frame enters its buffer or the FIFO; a sent one frees its buffer; a clash is counted and the eighth in
a row suspends the buffer; errors add to the counters and lead to bus-off, which a recovery ends; a port joins the bus; a host
commits, aborts, frees and pops. Where the condition of an
event does not hold it changes nothing, and a command of an interval's end lets time pass up to it, which are the model's choices
(log entries 2 and 12, DESIGN CHOICE). -/
def Obligations.CanPorts : Prop :=
  (∀ (x : BitVec 1) (f : CanFrame) (sof : Nat) (s : State), s.mach.canUp x.toNat = true →
    (∀ b, (canEntry f).info.getLsbD 20 = false → s.mach.canMatch x.toNat (canEntry f) = some b → ¬(x = 1 ∧ b = 1) →
      Completes (.canFrameRx x f sof) s fun t =>
        t.rd (Reg.CAN_MB_ID x.toNat b) = (canEntry f).id ∧ t.rd (Reg.CAN_MB_INFO x.toNat b) = (canEntry f).info
          ∧ (∀ j, j < 16 → t.rd (Reg.CAN_MB_DATA x.toNat b j) = (canEntry f).data.getD j 0)
          ∧ t.rd (Reg.CAN_MB_STAMP x.toNat b) = canCounter (s.mach.nowNs - sof)
          ∧ t.get (F.CAN_MB_CTRL_full x.toNat b) = 1 ∧ t.get (F.CAN_IRQ_STAT_rx x.toNat) = 1
          ∧ (s.mach.flag (F.CAN_MB_CTRL_full x.toNat b) = true → t.get (F.CAN_MB_CTRL_ovr x.toNat b) = 1)
          ∧ t.rd (Reg.CAN_CNT_RX x.toNat) = s.mach.counted (Reg.CAN_CNT_RX x.toNat)) ∧
    (s.mach.canMatch x.toNat (canEntry f) = none → s.mach.flag (F.CAN_CTRL_fifo_en x.toNat) = true →
      canPasses (canEntry f) (s.mach.rd (Reg.CAN_FIFO_ID x.toNat)) (s.mach.rd (Reg.CAN_FIFO_MASK x.toNat)) = true →
      ((s.mach.canPort x.toNat).fifo.length < 51 → s.mach.domOn .mgmt = true → Completes (.canFrameRx x f sof) s fun t =>
        (t.canPort x.toNat).fifo = (s.mach.canPort x.toNat).fifo ++ [(canEntry f, canCounter (s.mach.nowNs - sof))]
          ∧ t.get (F.CAN_FIFO_STAT_count x.toNat) = (s.mach.canPort x.toNat).fifo.length + 1
          ∧ t.get (F.CAN_IRQ_STAT_fifo_rx x.toNat) = 1) ∧
      (51 ≤ (s.mach.canPort x.toNat).fifo.length → Completes (.canFrameRx x f sof) s fun t =>
        (t.canPort x.toNat).fifo = (s.mach.canPort x.toNat).fifo ∧ t.get (F.CAN_IRQ_STAT_fifo_ovr x.toNat) = 1
          ∧ t.rd (Reg.CAN_CNT_FIFO_OVR x.toNat) = s.mach.counted (Reg.CAN_CNT_FIFO_OVR x.toNat)))) ∧
  (∀ (x : BitVec 1) (b : BitVec 5) (v : BitVec 7) (sof : Nat) (s : State), s.mach.canUp x.toNat = true →
    s.mach.canWinner x.toNat = some b.toNat →
    (Completes (.canFrameTxDone x b v sof) s fun t =>
      t.get (F.CAN_MB_CTRL_pending x.toNat b.toNat) = 0 ∧ t.get (F.CAN_MB_CTRL_losses x.toNat b.toNat) = 0
        ∧ t.rd (Reg.CAN_MB_STAMP x.toNat b.toNat) = canCounter (s.mach.nowNs - sof)
        ∧ t.rd (Reg.CAN_CNT_TX x.toNat) = s.mach.counted (Reg.CAN_CNT_TX x.toNat)
        ∧ t.get (F.CAN_STAT_tec x.toNat) = s.mach.get (F.CAN_STAT_tec x.toNat) - 1
        ∧ (2 ≤ b.toNat → t.get (F.CAN_IRQ_STAT_tx_done x.toNat) = 1)
        ∧ t.out = .canTx x (canOut ((s.mach.canPort x.toNat).bufs.toList.getD b.toNat emptyCanFrame)
          (s.mach.get (F.CAN_STAT_state x.toNat) == 1)) :: s.mach.out
        ∧ (s.mach.domOn .mgmt = true → (t.canPort x.toNat).sent.head? = some
          (canOut ((s.mach.canPort x.toNat).bufs.toList.getD b.toNat emptyCanFrame)
            (s.mach.get (F.CAN_STAT_state x.toNat) == 1), canCounter (s.mach.nowNs - sof)))) ∧
    (∀ e : Bool, s.mach.get (F.CAN_MB_CTRL_losses x.toNat b.toNat) < 7 → Completes (.canClashLoss x b e) s fun t =>
      t.get (F.CAN_MB_CTRL_losses x.toNat b.toNat) = s.mach.get (F.CAN_MB_CTRL_losses x.toNat b.toNat) + 1
        ∧ t.get (F.CAN_MB_CTRL_pending x.toNat b.toNat) = 1) ∧
    (∀ e : Bool, s.mach.get (F.CAN_MB_CTRL_losses x.toNat b.toNat) = 7 → Completes (.canClashLoss x b e) s fun t =>
      t.get (F.CAN_MB_CTRL_suspended x.toNat b.toNat) = 1 ∧ t.get (F.CAN_MB_CTRL_pending x.toNat b.toNat) = 0
        ∧ t.get (F.CAN_IRQ_STAT_id_clash x.toNat) = 1 ∧ (b = 0 → (t.canPort x.toNat).suspNs = s.mach.upNs))) ∧
  (∀ (x : BitVec 1) (s : State),
    (s.mach.domOn .can = true → s.mach.flag (F.CAN_MB_CTRL_suspended x.toNat 0) = true →
      Completes (.canFixedResume x) s fun t =>
        t.get (F.CAN_MB_CTRL_suspended x.toNat 0) = 0 ∧ t.get (F.CAN_MB_CTRL_losses x.toNat 0) = 0
          ∧ t.get (F.CAN_MB_CTRL_pending x.toNat 0) = 1 ∧ RegsKept s.mach t [Reg.CAN_MB_CTRL x.toNat 0]
          ∧ (s.mach.canPort x.toNat).suspNs + 1000000000 ≤ t.upNs) ∧
    (s.mach.flag (F.CAN_MB_CTRL_suspended x.toNat 0) = false → Completes (.canFixedResume x) s fun t => t = s.mach) ∧
    (s.mach.domOn .can = true → s.mach.get (F.CAN_STAT_state x.toNat) = 2 → (s.mach.canPort x.toNat).recovers = true →
      Completes (.canRecoveryEnd x) s fun t =>
        t.get (F.CAN_STAT_state x.toNat) = 0 ∧ t.get (F.CAN_STAT_tec x.toNat) = 0 ∧ t.get (F.CAN_STAT_rec x.toNat) = 0
          ∧ t.get (F.CAN_IRQ_STAT_recovered x.toNat) = 1
          ∧ (s.mach.canPort x.toNat).recNs + 1408 * s.mach.canBit x.toNat * 25 / 2 ≤ t.upNs) ∧
    (s.mach.domOn .can = true → s.mach.clkOk .can = true → s.mach.flag (F.CAN_CTRL_en x.toNat) = true →
      s.mach.get (F.CAN_STAT_state x.toNat) = 3 → Completes (.canBusJoin x) s fun t =>
        t = { s.mach with regs := t.regs, time := t.time, chain := t.chain } ∧ t.get (F.CAN_STAT_state x.toNat) = 0
          ∧ (s.mach.canPort x.toNat).sinceNs + 11 * s.mach.canBit x.toNat * 25 / 2 ≤ t.upNs
          ∧ RegsKept s.mach t [Reg.CAN_STAT x.toNat])) ∧
  (∀ (x : BitVec 1) (e : CanErr) (d : Bool) (i j : Nat) (s : State), s.mach.canUp x.toNat = true →
    (s.mach.get (F.CAN_STAT_tec x.toNat) + i ≤ 255 → Completes (.canError x e d true i j) s fun t =>
      t.get (F.CAN_STAT_lec x.toNat) = lecCode e ∧ t.get (F.CAN_STAT_lec_data x.toNat) = d.toNat
        ∧ t.rd (Reg.CAN_CNT_ERR x.toNat) = s.mach.counted (Reg.CAN_CNT_ERR x.toNat)
        ∧ t.get (F.CAN_STAT_tec x.toNat) = s.mach.get (F.CAN_STAT_tec x.toNat) + i
        ∧ t.get (F.CAN_STAT_rec x.toNat) = s.mach.get (F.CAN_STAT_rec x.toNat)
        ∧ t.get (F.CAN_STAT_state x.toNat) = if 128 ≤ s.mach.get (F.CAN_STAT_tec x.toNat) + i
          ∨ 128 ≤ s.mach.get (F.CAN_STAT_rec x.toNat) then 1 else 0) ∧
    (255 < s.mach.get (F.CAN_STAT_tec x.toNat) + i → Completes (.canError x e d true i j) s fun t =>
      t.get (F.CAN_STAT_state x.toNat) = 2 ∧ t.get (F.CAN_IRQ_STAT_bus_off x.toNat) = 1
        ∧ t.rd (Reg.CAN_CNT_BUSOFF x.toNat) = s.mach.counted (Reg.CAN_CNT_BUSOFF x.toNat)
        ∧ (t.canPort x.toNat).recovers = s.mach.flag (F.CAN_CTRL_auto_rec x.toNat)) ∧
    (Completes (.canError x e d false i j) s fun t =>
      t.get (F.CAN_STAT_rec x.toNat) = min 255 (s.mach.get (F.CAN_STAT_rec x.toNat) + j)
        ∧ t.get (F.CAN_STAT_tec x.toNat) = s.mach.get (F.CAN_STAT_tec x.toNat))) ∧
  ∀ (k : Nat) (x : BitVec 1) (b : BitVec 5) (s : State),
    (s.mach.reachable (Reg.CAN_CTRL x.toNat) = true →
      (s.mach.get (F.CAN_STAT_state x.toNat) = 2 → (s.mach.canPort x.toNat).recovers = false →
        Completes (.recover k x) s fun t =>
          t = s.mach.ok.setCan x.toNat { s.mach.canPort x.toNat with recovers := true, recNs := s.mach.upNs }) ∧
      (s.mach.get (F.CAN_STAT_state x.toNat) ≠ 2 ∨ (s.mach.canPort x.toNat).recovers = true → Completes (.recover k x) s fun t => t = s.mach.ok)) ∧
    (s.mach.reachable (Reg.CAN_FIFO_CTRL x.toNat) = true → Completes (.pop k x) s fun t =>
      (t.canPort x.toNat).fifo = (s.mach.canPort x.toNat).fifo.tail
        ∧ RegsKept s.mach t [Reg.CAN_FIFO_STAT x.toNat, Reg.Q_PTR (20 + 2 * x.toNat)] ∧ t.answer.1 = Err.ok) ∧
    (s.mach.reachable (Reg.CAN_MB_CTRL x.toNat b.toNat) = true →
      (b.toNat < 2 → ∀ c ∈ [Instr.mbCommit k x b, .mbAbort k x b, .clrFull k x b], Completes c s fun t =>
        t = s.mach.refuse Err.refusedState) ∧
      (2 ≤ b.toNat →
        (s.mach.flag (F.CAN_MB_CTRL_dir x.toNat b.toNat) = false → Completes (.mbCommit k x b) s fun t => t = s.mach.ok) ∧
        (s.mach.flag (F.CAN_MB_CTRL_dir x.toNat b.toNat) = true →
          infoOk (s.mach.rd (Reg.CAN_MB_INFO x.toNat b.toNat)) = false → Completes (.mbCommit k x b) s fun t =>
            t = s.mach.refuse Err.refusedValue) ∧
        (s.mach.flag (F.CAN_MB_CTRL_dir x.toNat b.toNat) = true →
          infoOk (s.mach.rd (Reg.CAN_MB_INFO x.toNat b.toNat)) = true → Completes (.mbCommit k x b) s fun t =>
            (t.canPort x.toNat).bufs.toList.getD b.toNat emptyCanFrame = s.mach.canShadow x.toNat b.toNat
              ∧ RegsKept s.mach t [Reg.CAN_MB_CTRL x.toNat b.toNat]
              ∧ (s.mach.flag (F.CAN_MB_CTRL_suspended x.toNat b.toNat) = false →
                t.get (F.CAN_MB_CTRL_pending x.toNat b.toNat) = 1)) ∧
        (Completes (.mbAbort k x b) s fun t => t = { s.mach.ok with regs := t.regs }
          ∧ t.get (F.CAN_MB_CTRL_pending x.toNat b.toNat) = 0 ∧ RegsKept s.mach t [Reg.CAN_MB_CTRL x.toNat b.toNat]) ∧
        (Completes (.clrFull k x b) s fun t => t = { s.mach.ok with regs := t.regs }
          ∧ t.get (F.CAN_MB_CTRL_full x.toNat b.toNat)
            = (if s.mach.canNewer k x.toNat b.toNat then s.mach.get (F.CAN_MB_CTRL_full x.toNat b.toNat) else 0) ∧ t.get (F.CAN_MB_CTRL_ovr x.toNat b.toNat) = 0
          ∧ RegsKept s.mach t [Reg.CAN_MB_CTRL x.toNat b.toNat])))
end

