-- ==== Sys2Proof/Laws/State.lean ====
section
/-!
SUPPORT. One lemma per field and update of the module: what an update does not touch reads as before.
-/

namespace Sys2Proof.Machine

variable (m : Mach)

/-! ## `Mach.wr` -/

@[simp] theorem Mach.wr_lifeCycle (a : Nat) (w : Word) : (m.wr a w).lifeCycle = m.lifeCycle := rfl
@[simp] theorem Mach.wr_runState (a : Nat) (w : Word) : (m.wr a w).runState = m.runState := rfl
@[simp] theorem Mach.wr_role (a : Nat) (w : Word) : (m.wr a w).role = m.role := rfl
@[simp] theorem Mach.wr_ringBroken (a : Nat) (w : Word) : (m.wr a w).ringBroken = m.ringBroken := rfl
@[simp] theorem Mach.wr_supply (a : Nat) (w : Word) : (m.wr a w).supply = m.supply := rfl
@[simp] theorem Mach.wr_law (a : Nat) (w : Word) : (m.wr a w).law = m.law := rfl
@[simp] theorem Mach.wr_refSrc (a : Nat) (w : Word) : (m.wr a w).refSrc = m.refSrc := rfl
@[simp] theorem Mach.wr_mem (a : Nat) (w : Word) : (m.wr a w).mem = m.mem := rfl
@[simp] theorem Mach.wr_power (a : Nat) (w : Word) : (m.wr a w).power = m.power := rfl
@[simp] theorem Mach.wr_chain (a : Nat) (w : Word) : (m.wr a w).chain = m.chain := rfl
@[simp] theorem Mach.wr_fly (a : Nat) (w : Word) : (m.wr a w).fly = m.fly := rfl
@[simp] theorem Mach.wr_spin (a : Nat) (w : Word) : (m.wr a w).spin = m.spin := rfl
@[simp] theorem Mach.wr_prog (a : Nat) (w : Word) : (m.wr a w).prog = m.prog := rfl
@[simp] theorem Mach.wr_sense (a : Nat) (w : Word) : (m.wr a w).sense = m.sense := rfl
@[simp] theorem Mach.wr_safety (a : Nat) (w : Word) : (m.wr a w).safety = m.safety := rfl
@[simp] theorem Mach.wr_pair (a : Nat) (w : Word) : (m.wr a w).pair = m.pair := rfl
@[simp] theorem Mach.wr_time (a : Nat) (w : Word) : (m.wr a w).time = m.time := rfl
@[simp] theorem Mach.wr_host (a : Nat) (w : Word) : (m.wr a w).host = m.host := rfl
@[simp] theorem Mach.wr_can0 (a : Nat) (w : Word) : (m.wr a w).can0 = m.can0 := rfl
@[simp] theorem Mach.wr_can1 (a : Nat) (w : Word) : (m.wr a w).can1 = m.can1 := rfl
@[simp] theorem Mach.wr_memi (a : Nat) (w : Word) : (m.wr a w).memi = m.memi := rfl
@[simp] theorem Mach.wr_mgmt (a : Nat) (w : Word) : (m.wr a w).mgmt = m.mgmt := rfl
@[simp] theorem Mach.wr_latches (a : Nat) (w : Word) : (m.wr a w).latches = m.latches := rfl
@[simp] theorem Mach.wr_out (a : Nat) (w : Word) : (m.wr a w).out = m.out := rfl
@[simp] theorem Mach.wr_answer (a : Nat) (w : Word) : (m.wr a w).answer = m.answer := rfl
@[simp] theorem Mach.wr_freeTick (a : Nat) (w : Word) : (m.wr a w).freeTick = m.freeTick := rfl

/-! ## `Mach.set` -/

@[simp] theorem Mach.set_lifeCycle (f : Field) (v : Nat) : (m.set f v).lifeCycle = m.lifeCycle := rfl
@[simp] theorem Mach.set_runState (f : Field) (v : Nat) : (m.set f v).runState = m.runState := rfl
@[simp] theorem Mach.set_role (f : Field) (v : Nat) : (m.set f v).role = m.role := rfl
@[simp] theorem Mach.set_ringBroken (f : Field) (v : Nat) : (m.set f v).ringBroken = m.ringBroken := rfl
@[simp] theorem Mach.set_supply (f : Field) (v : Nat) : (m.set f v).supply = m.supply := rfl
@[simp] theorem Mach.set_law (f : Field) (v : Nat) : (m.set f v).law = m.law := rfl
@[simp] theorem Mach.set_refSrc (f : Field) (v : Nat) : (m.set f v).refSrc = m.refSrc := rfl
@[simp] theorem Mach.set_mem (f : Field) (v : Nat) : (m.set f v).mem = m.mem := rfl
@[simp] theorem Mach.set_power (f : Field) (v : Nat) : (m.set f v).power = m.power := rfl
@[simp] theorem Mach.set_chain (f : Field) (v : Nat) : (m.set f v).chain = m.chain := rfl
@[simp] theorem Mach.set_fly (f : Field) (v : Nat) : (m.set f v).fly = m.fly := rfl
@[simp] theorem Mach.set_spin (f : Field) (v : Nat) : (m.set f v).spin = m.spin := rfl
@[simp] theorem Mach.set_prog (f : Field) (v : Nat) : (m.set f v).prog = m.prog := rfl
@[simp] theorem Mach.set_sense (f : Field) (v : Nat) : (m.set f v).sense = m.sense := rfl
@[simp] theorem Mach.set_safety (f : Field) (v : Nat) : (m.set f v).safety = m.safety := rfl
@[simp] theorem Mach.set_pair (f : Field) (v : Nat) : (m.set f v).pair = m.pair := rfl
@[simp] theorem Mach.set_time (f : Field) (v : Nat) : (m.set f v).time = m.time := rfl
@[simp] theorem Mach.set_host (f : Field) (v : Nat) : (m.set f v).host = m.host := rfl
@[simp] theorem Mach.set_can0 (f : Field) (v : Nat) : (m.set f v).can0 = m.can0 := rfl
@[simp] theorem Mach.set_can1 (f : Field) (v : Nat) : (m.set f v).can1 = m.can1 := rfl
@[simp] theorem Mach.set_memi (f : Field) (v : Nat) : (m.set f v).memi = m.memi := rfl
@[simp] theorem Mach.set_mgmt (f : Field) (v : Nat) : (m.set f v).mgmt = m.mgmt := rfl
@[simp] theorem Mach.set_latches (f : Field) (v : Nat) : (m.set f v).latches = m.latches := rfl
@[simp] theorem Mach.set_out (f : Field) (v : Nat) : (m.set f v).out = m.out := rfl
@[simp] theorem Mach.set_answer (f : Field) (v : Nat) : (m.set f v).answer = m.answer := rfl
@[simp] theorem Mach.set_freeTick (f : Field) (v : Nat) : (m.set f v).freeTick = m.freeTick := rfl

/-! ## `Mach.setBit` -/

@[simp] theorem Mach.setBit_lifeCycle (a i : Nat) (b : Bool) : (m.setBit a i b).lifeCycle = m.lifeCycle := rfl
@[simp] theorem Mach.setBit_runState (a i : Nat) (b : Bool) : (m.setBit a i b).runState = m.runState := rfl
@[simp] theorem Mach.setBit_role (a i : Nat) (b : Bool) : (m.setBit a i b).role = m.role := rfl
@[simp] theorem Mach.setBit_ringBroken (a i : Nat) (b : Bool) : (m.setBit a i b).ringBroken = m.ringBroken := rfl
@[simp] theorem Mach.setBit_supply (a i : Nat) (b : Bool) : (m.setBit a i b).supply = m.supply := rfl
@[simp] theorem Mach.setBit_law (a i : Nat) (b : Bool) : (m.setBit a i b).law = m.law := rfl
@[simp] theorem Mach.setBit_refSrc (a i : Nat) (b : Bool) : (m.setBit a i b).refSrc = m.refSrc := rfl
@[simp] theorem Mach.setBit_mem (a i : Nat) (b : Bool) : (m.setBit a i b).mem = m.mem := rfl
@[simp] theorem Mach.setBit_power (a i : Nat) (b : Bool) : (m.setBit a i b).power = m.power := rfl
@[simp] theorem Mach.setBit_chain (a i : Nat) (b : Bool) : (m.setBit a i b).chain = m.chain := rfl
@[simp] theorem Mach.setBit_fly (a i : Nat) (b : Bool) : (m.setBit a i b).fly = m.fly := rfl
@[simp] theorem Mach.setBit_spin (a i : Nat) (b : Bool) : (m.setBit a i b).spin = m.spin := rfl
@[simp] theorem Mach.setBit_prog (a i : Nat) (b : Bool) : (m.setBit a i b).prog = m.prog := rfl
@[simp] theorem Mach.setBit_sense (a i : Nat) (b : Bool) : (m.setBit a i b).sense = m.sense := rfl
@[simp] theorem Mach.setBit_safety (a i : Nat) (b : Bool) : (m.setBit a i b).safety = m.safety := rfl
@[simp] theorem Mach.setBit_pair (a i : Nat) (b : Bool) : (m.setBit a i b).pair = m.pair := rfl
@[simp] theorem Mach.setBit_time (a i : Nat) (b : Bool) : (m.setBit a i b).time = m.time := rfl
@[simp] theorem Mach.setBit_host (a i : Nat) (b : Bool) : (m.setBit a i b).host = m.host := rfl
@[simp] theorem Mach.setBit_can0 (a i : Nat) (b : Bool) : (m.setBit a i b).can0 = m.can0 := rfl
@[simp] theorem Mach.setBit_can1 (a i : Nat) (b : Bool) : (m.setBit a i b).can1 = m.can1 := rfl
@[simp] theorem Mach.setBit_memi (a i : Nat) (b : Bool) : (m.setBit a i b).memi = m.memi := rfl
@[simp] theorem Mach.setBit_mgmt (a i : Nat) (b : Bool) : (m.setBit a i b).mgmt = m.mgmt := rfl
@[simp] theorem Mach.setBit_latches (a i : Nat) (b : Bool) : (m.setBit a i b).latches = m.latches := rfl
@[simp] theorem Mach.setBit_out (a i : Nat) (b : Bool) : (m.setBit a i b).out = m.out := rfl
@[simp] theorem Mach.setBit_answer (a i : Nat) (b : Bool) : (m.setBit a i b).answer = m.answer := rfl
@[simp] theorem Mach.setBit_freeTick (a i : Nat) (b : Bool) : (m.setBit a i b).freeTick = m.freeTick := rfl

/-! ## `Mach.count` -/

@[simp] theorem Mach.count_lifeCycle (a : Nat) : (m.count a).lifeCycle = m.lifeCycle := rfl
@[simp] theorem Mach.count_runState (a : Nat) : (m.count a).runState = m.runState := rfl
@[simp] theorem Mach.count_role (a : Nat) : (m.count a).role = m.role := rfl
@[simp] theorem Mach.count_ringBroken (a : Nat) : (m.count a).ringBroken = m.ringBroken := rfl
@[simp] theorem Mach.count_supply (a : Nat) : (m.count a).supply = m.supply := rfl
@[simp] theorem Mach.count_law (a : Nat) : (m.count a).law = m.law := rfl
@[simp] theorem Mach.count_refSrc (a : Nat) : (m.count a).refSrc = m.refSrc := rfl
@[simp] theorem Mach.count_mem (a : Nat) : (m.count a).mem = m.mem := rfl
@[simp] theorem Mach.count_power (a : Nat) : (m.count a).power = m.power := rfl
@[simp] theorem Mach.count_chain (a : Nat) : (m.count a).chain = m.chain := rfl
@[simp] theorem Mach.count_fly (a : Nat) : (m.count a).fly = m.fly := rfl
@[simp] theorem Mach.count_spin (a : Nat) : (m.count a).spin = m.spin := rfl
@[simp] theorem Mach.count_prog (a : Nat) : (m.count a).prog = m.prog := rfl
@[simp] theorem Mach.count_sense (a : Nat) : (m.count a).sense = m.sense := rfl
@[simp] theorem Mach.count_safety (a : Nat) : (m.count a).safety = m.safety := rfl
@[simp] theorem Mach.count_pair (a : Nat) : (m.count a).pair = m.pair := rfl
@[simp] theorem Mach.count_time (a : Nat) : (m.count a).time = m.time := rfl
@[simp] theorem Mach.count_host (a : Nat) : (m.count a).host = m.host := rfl
@[simp] theorem Mach.count_can0 (a : Nat) : (m.count a).can0 = m.can0 := rfl
@[simp] theorem Mach.count_can1 (a : Nat) : (m.count a).can1 = m.can1 := rfl
@[simp] theorem Mach.count_memi (a : Nat) : (m.count a).memi = m.memi := rfl
@[simp] theorem Mach.count_mgmt (a : Nat) : (m.count a).mgmt = m.mgmt := rfl
@[simp] theorem Mach.count_latches (a : Nat) : (m.count a).latches = m.latches := rfl
@[simp] theorem Mach.count_out (a : Nat) : (m.count a).out = m.out := rfl
@[simp] theorem Mach.count_answer (a : Nat) : (m.count a).answer = m.answer := rfl
@[simp] theorem Mach.count_freeTick (a : Nat) : (m.count a).freeTick = m.freeTick := rfl

/-! ## `Mach.resetRange` -/

@[simp] theorem Mach.resetRange_lifeCycle (lo hi : Nat) : (m.resetRange lo hi).lifeCycle = m.lifeCycle := rfl
@[simp] theorem Mach.resetRange_runState (lo hi : Nat) : (m.resetRange lo hi).runState = m.runState := rfl
@[simp] theorem Mach.resetRange_role (lo hi : Nat) : (m.resetRange lo hi).role = m.role := rfl
@[simp] theorem Mach.resetRange_ringBroken (lo hi : Nat) : (m.resetRange lo hi).ringBroken = m.ringBroken := rfl
@[simp] theorem Mach.resetRange_supply (lo hi : Nat) : (m.resetRange lo hi).supply = m.supply := rfl
@[simp] theorem Mach.resetRange_law (lo hi : Nat) : (m.resetRange lo hi).law = m.law := rfl
@[simp] theorem Mach.resetRange_refSrc (lo hi : Nat) : (m.resetRange lo hi).refSrc = m.refSrc := rfl
@[simp] theorem Mach.resetRange_mem (lo hi : Nat) : (m.resetRange lo hi).mem = m.mem := rfl
@[simp] theorem Mach.resetRange_power (lo hi : Nat) : (m.resetRange lo hi).power = m.power := rfl
@[simp] theorem Mach.resetRange_chain (lo hi : Nat) : (m.resetRange lo hi).chain = m.chain := rfl
@[simp] theorem Mach.resetRange_fly (lo hi : Nat) : (m.resetRange lo hi).fly = m.fly := rfl
@[simp] theorem Mach.resetRange_spin (lo hi : Nat) : (m.resetRange lo hi).spin = m.spin := rfl
@[simp] theorem Mach.resetRange_prog (lo hi : Nat) : (m.resetRange lo hi).prog = m.prog := rfl
@[simp] theorem Mach.resetRange_sense (lo hi : Nat) : (m.resetRange lo hi).sense = m.sense := rfl
@[simp] theorem Mach.resetRange_safety (lo hi : Nat) : (m.resetRange lo hi).safety = m.safety := rfl
@[simp] theorem Mach.resetRange_pair (lo hi : Nat) : (m.resetRange lo hi).pair = m.pair := rfl
@[simp] theorem Mach.resetRange_time (lo hi : Nat) : (m.resetRange lo hi).time = m.time := rfl
@[simp] theorem Mach.resetRange_host (lo hi : Nat) : (m.resetRange lo hi).host = m.host := rfl
@[simp] theorem Mach.resetRange_can0 (lo hi : Nat) : (m.resetRange lo hi).can0 = m.can0 := rfl
@[simp] theorem Mach.resetRange_can1 (lo hi : Nat) : (m.resetRange lo hi).can1 = m.can1 := rfl
@[simp] theorem Mach.resetRange_memi (lo hi : Nat) : (m.resetRange lo hi).memi = m.memi := rfl
@[simp] theorem Mach.resetRange_mgmt (lo hi : Nat) : (m.resetRange lo hi).mgmt = m.mgmt := rfl
@[simp] theorem Mach.resetRange_latches (lo hi : Nat) : (m.resetRange lo hi).latches = m.latches := rfl
@[simp] theorem Mach.resetRange_out (lo hi : Nat) : (m.resetRange lo hi).out = m.out := rfl
@[simp] theorem Mach.resetRange_answer (lo hi : Nat) : (m.resetRange lo hi).answer = m.answer := rfl
@[simp] theorem Mach.resetRange_freeTick (lo hi : Nat) : (m.resetRange lo hi).freeTick = m.freeTick := rfl

/-! ## `Mach.send` -/

@[simp] theorem Mach.send_lifeCycle (o : Out) : (m.send o).lifeCycle = m.lifeCycle := rfl
@[simp] theorem Mach.send_runState (o : Out) : (m.send o).runState = m.runState := rfl
@[simp] theorem Mach.send_role (o : Out) : (m.send o).role = m.role := rfl
@[simp] theorem Mach.send_ringBroken (o : Out) : (m.send o).ringBroken = m.ringBroken := rfl
@[simp] theorem Mach.send_supply (o : Out) : (m.send o).supply = m.supply := rfl
@[simp] theorem Mach.send_law (o : Out) : (m.send o).law = m.law := rfl
@[simp] theorem Mach.send_refSrc (o : Out) : (m.send o).refSrc = m.refSrc := rfl
@[simp] theorem Mach.send_regs (o : Out) : (m.send o).regs = m.regs := rfl
@[simp] theorem Mach.send_mem (o : Out) : (m.send o).mem = m.mem := rfl
@[simp] theorem Mach.send_power (o : Out) : (m.send o).power = m.power := rfl
@[simp] theorem Mach.send_chain (o : Out) : (m.send o).chain = m.chain := rfl
@[simp] theorem Mach.send_fly (o : Out) : (m.send o).fly = m.fly := rfl
@[simp] theorem Mach.send_spin (o : Out) : (m.send o).spin = m.spin := rfl
@[simp] theorem Mach.send_prog (o : Out) : (m.send o).prog = m.prog := rfl
@[simp] theorem Mach.send_sense (o : Out) : (m.send o).sense = m.sense := rfl
@[simp] theorem Mach.send_safety (o : Out) : (m.send o).safety = m.safety := rfl
@[simp] theorem Mach.send_pair (o : Out) : (m.send o).pair = m.pair := rfl
@[simp] theorem Mach.send_time (o : Out) : (m.send o).time = m.time := rfl
@[simp] theorem Mach.send_host (o : Out) : (m.send o).host = m.host := rfl
@[simp] theorem Mach.send_can0 (o : Out) : (m.send o).can0 = m.can0 := rfl
@[simp] theorem Mach.send_can1 (o : Out) : (m.send o).can1 = m.can1 := rfl
@[simp] theorem Mach.send_memi (o : Out) : (m.send o).memi = m.memi := rfl
@[simp] theorem Mach.send_mgmt (o : Out) : (m.send o).mgmt = m.mgmt := rfl
@[simp] theorem Mach.send_latches (o : Out) : (m.send o).latches = m.latches := rfl
@[simp] theorem Mach.send_answer (o : Out) : (m.send o).answer = m.answer := rfl
@[simp] theorem Mach.send_freeTick (o : Out) : (m.send o).freeTick = m.freeTick := rfl

/-! ## `Mach.freeTicked` -/

@[simp] theorem Mach.freeTicked_lifeCycle : (m.freeTicked).lifeCycle = m.lifeCycle := rfl
@[simp] theorem Mach.freeTicked_runState : (m.freeTicked).runState = m.runState := rfl
@[simp] theorem Mach.freeTicked_role : (m.freeTicked).role = m.role := rfl
@[simp] theorem Mach.freeTicked_ringBroken : (m.freeTicked).ringBroken = m.ringBroken := rfl
@[simp] theorem Mach.freeTicked_supply : (m.freeTicked).supply = m.supply := rfl
@[simp] theorem Mach.freeTicked_law : (m.freeTicked).law = m.law := rfl
@[simp] theorem Mach.freeTicked_refSrc : (m.freeTicked).refSrc = m.refSrc := rfl
@[simp] theorem Mach.freeTicked_regs : (m.freeTicked).regs = m.regs := rfl
@[simp] theorem Mach.freeTicked_mem : (m.freeTicked).mem = m.mem := rfl
@[simp] theorem Mach.freeTicked_power : (m.freeTicked).power = m.power := rfl
@[simp] theorem Mach.freeTicked_chain : (m.freeTicked).chain = m.chain := rfl
@[simp] theorem Mach.freeTicked_fly : (m.freeTicked).fly = m.fly := rfl
@[simp] theorem Mach.freeTicked_spin : (m.freeTicked).spin = m.spin := rfl
@[simp] theorem Mach.freeTicked_prog : (m.freeTicked).prog = m.prog := rfl
@[simp] theorem Mach.freeTicked_sense : (m.freeTicked).sense = m.sense := rfl
@[simp] theorem Mach.freeTicked_safety : (m.freeTicked).safety = m.safety := rfl
@[simp] theorem Mach.freeTicked_pair : (m.freeTicked).pair = m.pair := rfl
@[simp] theorem Mach.freeTicked_time : (m.freeTicked).time = m.time := rfl
@[simp] theorem Mach.freeTicked_host : (m.freeTicked).host = m.host := rfl
@[simp] theorem Mach.freeTicked_can0 : (m.freeTicked).can0 = m.can0 := rfl
@[simp] theorem Mach.freeTicked_can1 : (m.freeTicked).can1 = m.can1 := rfl
@[simp] theorem Mach.freeTicked_memi : (m.freeTicked).memi = m.memi := rfl
@[simp] theorem Mach.freeTicked_mgmt : (m.freeTicked).mgmt = m.mgmt := rfl
@[simp] theorem Mach.freeTicked_latches : (m.freeTicked).latches = m.latches := rfl
@[simp] theorem Mach.freeTicked_out : (m.freeTicked).out = m.out := rfl
@[simp] theorem Mach.freeTicked_answer : (m.freeTicked).answer = m.answer := rfl

/-! ## `Mach.refuse` -/

@[simp] theorem Mach.refuse_lifeCycle (c : BitVec 16) (x : Word) : (m.refuse c x).lifeCycle = m.lifeCycle := rfl
@[simp] theorem Mach.refuse_runState (c : BitVec 16) (x : Word) : (m.refuse c x).runState = m.runState := rfl
@[simp] theorem Mach.refuse_role (c : BitVec 16) (x : Word) : (m.refuse c x).role = m.role := rfl
@[simp] theorem Mach.refuse_ringBroken (c : BitVec 16) (x : Word) : (m.refuse c x).ringBroken = m.ringBroken := rfl
@[simp] theorem Mach.refuse_supply (c : BitVec 16) (x : Word) : (m.refuse c x).supply = m.supply := rfl
@[simp] theorem Mach.refuse_law (c : BitVec 16) (x : Word) : (m.refuse c x).law = m.law := rfl
@[simp] theorem Mach.refuse_refSrc (c : BitVec 16) (x : Word) : (m.refuse c x).refSrc = m.refSrc := rfl
@[simp] theorem Mach.refuse_regs (c : BitVec 16) (x : Word) : (m.refuse c x).regs = m.regs := rfl
@[simp] theorem Mach.refuse_mem (c : BitVec 16) (x : Word) : (m.refuse c x).mem = m.mem := rfl
@[simp] theorem Mach.refuse_power (c : BitVec 16) (x : Word) : (m.refuse c x).power = m.power := rfl
@[simp] theorem Mach.refuse_chain (c : BitVec 16) (x : Word) : (m.refuse c x).chain = m.chain := rfl
@[simp] theorem Mach.refuse_fly (c : BitVec 16) (x : Word) : (m.refuse c x).fly = m.fly := rfl
@[simp] theorem Mach.refuse_spin (c : BitVec 16) (x : Word) : (m.refuse c x).spin = m.spin := rfl
@[simp] theorem Mach.refuse_prog (c : BitVec 16) (x : Word) : (m.refuse c x).prog = m.prog := rfl
@[simp] theorem Mach.refuse_sense (c : BitVec 16) (x : Word) : (m.refuse c x).sense = m.sense := rfl
@[simp] theorem Mach.refuse_safety (c : BitVec 16) (x : Word) : (m.refuse c x).safety = m.safety := rfl
@[simp] theorem Mach.refuse_pair (c : BitVec 16) (x : Word) : (m.refuse c x).pair = m.pair := rfl
@[simp] theorem Mach.refuse_time (c : BitVec 16) (x : Word) : (m.refuse c x).time = m.time := rfl
@[simp] theorem Mach.refuse_host (c : BitVec 16) (x : Word) : (m.refuse c x).host = m.host := rfl
@[simp] theorem Mach.refuse_can0 (c : BitVec 16) (x : Word) : (m.refuse c x).can0 = m.can0 := rfl
@[simp] theorem Mach.refuse_can1 (c : BitVec 16) (x : Word) : (m.refuse c x).can1 = m.can1 := rfl
@[simp] theorem Mach.refuse_memi (c : BitVec 16) (x : Word) : (m.refuse c x).memi = m.memi := rfl
@[simp] theorem Mach.refuse_mgmt (c : BitVec 16) (x : Word) : (m.refuse c x).mgmt = m.mgmt := rfl
@[simp] theorem Mach.refuse_latches (c : BitVec 16) (x : Word) : (m.refuse c x).latches = m.latches := rfl
@[simp] theorem Mach.refuse_out (c : BitVec 16) (x : Word) : (m.refuse c x).out = m.out := rfl
@[simp] theorem Mach.refuse_freeTick (c : BitVec 16) (x : Word) : (m.refuse c x).freeTick = m.freeTick := rfl

/-! ## `Mach.ok` -/

@[simp] theorem Mach.ok_lifeCycle (ws : List Word) : (m.ok ws).lifeCycle = m.lifeCycle := rfl
@[simp] theorem Mach.ok_runState (ws : List Word) : (m.ok ws).runState = m.runState := rfl
@[simp] theorem Mach.ok_role (ws : List Word) : (m.ok ws).role = m.role := rfl
@[simp] theorem Mach.ok_ringBroken (ws : List Word) : (m.ok ws).ringBroken = m.ringBroken := rfl
@[simp] theorem Mach.ok_supply (ws : List Word) : (m.ok ws).supply = m.supply := rfl
@[simp] theorem Mach.ok_law (ws : List Word) : (m.ok ws).law = m.law := rfl
@[simp] theorem Mach.ok_refSrc (ws : List Word) : (m.ok ws).refSrc = m.refSrc := rfl
@[simp] theorem Mach.ok_regs (ws : List Word) : (m.ok ws).regs = m.regs := rfl
@[simp] theorem Mach.ok_mem (ws : List Word) : (m.ok ws).mem = m.mem := rfl
@[simp] theorem Mach.ok_power (ws : List Word) : (m.ok ws).power = m.power := rfl
@[simp] theorem Mach.ok_chain (ws : List Word) : (m.ok ws).chain = m.chain := rfl
@[simp] theorem Mach.ok_fly (ws : List Word) : (m.ok ws).fly = m.fly := rfl
@[simp] theorem Mach.ok_spin (ws : List Word) : (m.ok ws).spin = m.spin := rfl
@[simp] theorem Mach.ok_prog (ws : List Word) : (m.ok ws).prog = m.prog := rfl
@[simp] theorem Mach.ok_sense (ws : List Word) : (m.ok ws).sense = m.sense := rfl
@[simp] theorem Mach.ok_safety (ws : List Word) : (m.ok ws).safety = m.safety := rfl
@[simp] theorem Mach.ok_pair (ws : List Word) : (m.ok ws).pair = m.pair := rfl
@[simp] theorem Mach.ok_time (ws : List Word) : (m.ok ws).time = m.time := rfl
@[simp] theorem Mach.ok_host (ws : List Word) : (m.ok ws).host = m.host := rfl
@[simp] theorem Mach.ok_can0 (ws : List Word) : (m.ok ws).can0 = m.can0 := rfl
@[simp] theorem Mach.ok_can1 (ws : List Word) : (m.ok ws).can1 = m.can1 := rfl
@[simp] theorem Mach.ok_memi (ws : List Word) : (m.ok ws).memi = m.memi := rfl
@[simp] theorem Mach.ok_mgmt (ws : List Word) : (m.ok ws).mgmt = m.mgmt := rfl
@[simp] theorem Mach.ok_latches (ws : List Word) : (m.ok ws).latches = m.latches := rfl
@[simp] theorem Mach.ok_out (ws : List Word) : (m.ok ws).out = m.out := rfl
@[simp] theorem Mach.ok_freeTick (ws : List Word) : (m.ok ws).freeTick = m.freeTick := rfl

/-! ## `Mach.zeroise` -/

@[simp] theorem Mach.zeroise_lifeCycle (lo hi : Nat) : (m.zeroise lo hi).lifeCycle = m.lifeCycle := rfl
@[simp] theorem Mach.zeroise_runState (lo hi : Nat) : (m.zeroise lo hi).runState = m.runState := rfl
@[simp] theorem Mach.zeroise_role (lo hi : Nat) : (m.zeroise lo hi).role = m.role := rfl
@[simp] theorem Mach.zeroise_ringBroken (lo hi : Nat) : (m.zeroise lo hi).ringBroken = m.ringBroken := rfl
@[simp] theorem Mach.zeroise_supply (lo hi : Nat) : (m.zeroise lo hi).supply = m.supply := rfl
@[simp] theorem Mach.zeroise_law (lo hi : Nat) : (m.zeroise lo hi).law = m.law := rfl
@[simp] theorem Mach.zeroise_refSrc (lo hi : Nat) : (m.zeroise lo hi).refSrc = m.refSrc := rfl
@[simp] theorem Mach.zeroise_regs (lo hi : Nat) : (m.zeroise lo hi).regs = m.regs := rfl
@[simp] theorem Mach.zeroise_power (lo hi : Nat) : (m.zeroise lo hi).power = m.power := rfl
@[simp] theorem Mach.zeroise_chain (lo hi : Nat) : (m.zeroise lo hi).chain = m.chain := rfl
@[simp] theorem Mach.zeroise_fly (lo hi : Nat) : (m.zeroise lo hi).fly = m.fly := rfl
@[simp] theorem Mach.zeroise_spin (lo hi : Nat) : (m.zeroise lo hi).spin = m.spin := rfl
@[simp] theorem Mach.zeroise_prog (lo hi : Nat) : (m.zeroise lo hi).prog = m.prog := rfl
@[simp] theorem Mach.zeroise_sense (lo hi : Nat) : (m.zeroise lo hi).sense = m.sense := rfl
@[simp] theorem Mach.zeroise_safety (lo hi : Nat) : (m.zeroise lo hi).safety = m.safety := rfl
@[simp] theorem Mach.zeroise_pair (lo hi : Nat) : (m.zeroise lo hi).pair = m.pair := rfl
@[simp] theorem Mach.zeroise_time (lo hi : Nat) : (m.zeroise lo hi).time = m.time := rfl
@[simp] theorem Mach.zeroise_host (lo hi : Nat) : (m.zeroise lo hi).host = m.host := rfl
@[simp] theorem Mach.zeroise_can0 (lo hi : Nat) : (m.zeroise lo hi).can0 = m.can0 := rfl
@[simp] theorem Mach.zeroise_can1 (lo hi : Nat) : (m.zeroise lo hi).can1 = m.can1 := rfl
@[simp] theorem Mach.zeroise_mgmt (lo hi : Nat) : (m.zeroise lo hi).mgmt = m.mgmt := rfl
@[simp] theorem Mach.zeroise_latches (lo hi : Nat) : (m.zeroise lo hi).latches = m.latches := rfl
@[simp] theorem Mach.zeroise_out (lo hi : Nat) : (m.zeroise lo hi).out = m.out := rfl
@[simp] theorem Mach.zeroise_answer (lo hi : Nat) : (m.zeroise lo hi).answer = m.answer := rfl
@[simp] theorem Mach.zeroise_freeTick (lo hi : Nat) : (m.zeroise lo hi).freeTick = m.freeTick := rfl

/-! ## `Mach.mark` -/

@[simp] theorem Mach.mark_lifeCycle (t : Timer) : (m.mark t).lifeCycle = m.lifeCycle := rfl
@[simp] theorem Mach.mark_runState (t : Timer) : (m.mark t).runState = m.runState := rfl
@[simp] theorem Mach.mark_role (t : Timer) : (m.mark t).role = m.role := rfl
@[simp] theorem Mach.mark_ringBroken (t : Timer) : (m.mark t).ringBroken = m.ringBroken := rfl
@[simp] theorem Mach.mark_supply (t : Timer) : (m.mark t).supply = m.supply := rfl
@[simp] theorem Mach.mark_law (t : Timer) : (m.mark t).law = m.law := rfl
@[simp] theorem Mach.mark_refSrc (t : Timer) : (m.mark t).refSrc = m.refSrc := rfl
@[simp] theorem Mach.mark_regs (t : Timer) : (m.mark t).regs = m.regs := rfl
@[simp] theorem Mach.mark_mem (t : Timer) : (m.mark t).mem = m.mem := rfl
@[simp] theorem Mach.mark_chain (t : Timer) : (m.mark t).chain = m.chain := rfl
@[simp] theorem Mach.mark_fly (t : Timer) : (m.mark t).fly = m.fly := rfl
@[simp] theorem Mach.mark_spin (t : Timer) : (m.mark t).spin = m.spin := rfl
@[simp] theorem Mach.mark_prog (t : Timer) : (m.mark t).prog = m.prog := rfl
@[simp] theorem Mach.mark_sense (t : Timer) : (m.mark t).sense = m.sense := rfl
@[simp] theorem Mach.mark_safety (t : Timer) : (m.mark t).safety = m.safety := rfl
@[simp] theorem Mach.mark_pair (t : Timer) : (m.mark t).pair = m.pair := rfl
@[simp] theorem Mach.mark_time (t : Timer) : (m.mark t).time = m.time := rfl
@[simp] theorem Mach.mark_host (t : Timer) : (m.mark t).host = m.host := rfl
@[simp] theorem Mach.mark_can0 (t : Timer) : (m.mark t).can0 = m.can0 := rfl
@[simp] theorem Mach.mark_can1 (t : Timer) : (m.mark t).can1 = m.can1 := rfl
@[simp] theorem Mach.mark_memi (t : Timer) : (m.mark t).memi = m.memi := rfl
@[simp] theorem Mach.mark_mgmt (t : Timer) : (m.mark t).mgmt = m.mgmt := rfl
@[simp] theorem Mach.mark_latches (t : Timer) : (m.mark t).latches = m.latches := rfl
@[simp] theorem Mach.mark_out (t : Timer) : (m.mark t).out = m.out := rfl
@[simp] theorem Mach.mark_answer (t : Timer) : (m.mark t).answer = m.answer := rfl
@[simp] theorem Mach.mark_freeTick (t : Timer) : (m.mark t).freeTick = m.freeTick := rfl

/-! ## `Mach.unmark` -/

@[simp] theorem Mach.unmark_lifeCycle (t : Timer) : (m.unmark t).lifeCycle = m.lifeCycle := rfl
@[simp] theorem Mach.unmark_runState (t : Timer) : (m.unmark t).runState = m.runState := rfl
@[simp] theorem Mach.unmark_role (t : Timer) : (m.unmark t).role = m.role := rfl
@[simp] theorem Mach.unmark_ringBroken (t : Timer) : (m.unmark t).ringBroken = m.ringBroken := rfl
@[simp] theorem Mach.unmark_supply (t : Timer) : (m.unmark t).supply = m.supply := rfl
@[simp] theorem Mach.unmark_law (t : Timer) : (m.unmark t).law = m.law := rfl
@[simp] theorem Mach.unmark_refSrc (t : Timer) : (m.unmark t).refSrc = m.refSrc := rfl
@[simp] theorem Mach.unmark_regs (t : Timer) : (m.unmark t).regs = m.regs := rfl
@[simp] theorem Mach.unmark_mem (t : Timer) : (m.unmark t).mem = m.mem := rfl
@[simp] theorem Mach.unmark_chain (t : Timer) : (m.unmark t).chain = m.chain := rfl
@[simp] theorem Mach.unmark_fly (t : Timer) : (m.unmark t).fly = m.fly := rfl
@[simp] theorem Mach.unmark_spin (t : Timer) : (m.unmark t).spin = m.spin := rfl
@[simp] theorem Mach.unmark_prog (t : Timer) : (m.unmark t).prog = m.prog := rfl
@[simp] theorem Mach.unmark_sense (t : Timer) : (m.unmark t).sense = m.sense := rfl
@[simp] theorem Mach.unmark_safety (t : Timer) : (m.unmark t).safety = m.safety := rfl
@[simp] theorem Mach.unmark_pair (t : Timer) : (m.unmark t).pair = m.pair := rfl
@[simp] theorem Mach.unmark_time (t : Timer) : (m.unmark t).time = m.time := rfl
@[simp] theorem Mach.unmark_host (t : Timer) : (m.unmark t).host = m.host := rfl
@[simp] theorem Mach.unmark_can0 (t : Timer) : (m.unmark t).can0 = m.can0 := rfl
@[simp] theorem Mach.unmark_can1 (t : Timer) : (m.unmark t).can1 = m.can1 := rfl
@[simp] theorem Mach.unmark_memi (t : Timer) : (m.unmark t).memi = m.memi := rfl
@[simp] theorem Mach.unmark_mgmt (t : Timer) : (m.unmark t).mgmt = m.mgmt := rfl
@[simp] theorem Mach.unmark_latches (t : Timer) : (m.unmark t).latches = m.latches := rfl
@[simp] theorem Mach.unmark_out (t : Timer) : (m.unmark t).out = m.out := rfl
@[simp] theorem Mach.unmark_answer (t : Timer) : (m.unmark t).answer = m.answer := rfl
@[simp] theorem Mach.unmark_freeTick (t : Timer) : (m.unmark t).freeTick = m.freeTick := rfl

/-! ## What the updates write -/

@[simp] theorem Mach.send_out (o : Out) : (m.send o).out = o :: m.out := rfl
@[simp] theorem Mach.freeTicked_freeTick : m.freeTicked.freeTick = m.freeTick + 1 := rfl
@[simp] theorem Mach.refuse_answer (c : BitVec 16) (x : Word) : (m.refuse c x).answer = (c, x, []) := rfl
@[simp] theorem Mach.ok_answer (ws : List Word) : (m.ok ws).answer = (0, 0, ws) := rfl

/-! ## The other names of a field update -/

@[simp] theorem Mach.on_eq (f : Field) : m.on f = m.set f 1 := rfl
@[simp] theorem Mach.off_eq (f : Field) : m.off f = m.set f 0 := rfl
@[simp] theorem Mach.setB_eq (f : Field) (b : Bool) : m.setB f b = m.set f b.toNat := rfl

@[simp] theorem Mach.when_true (f : Mach → Mach) : m.when true f = f m := rfl
@[simp] theorem Mach.when_false (f : Mach → Mach) : m.when false f = m := rfl

end Sys2Proof.Machine
end

