-- ==== Sys2Proof/Laws/Ops.lean ====
section
/-!
SUPPORT. What the shared operations over sparse maps, memory and registers do: reads after writes, what a write leaves
alone, and that the canonical form is kept.
-/

namespace Sys2Proof.Machine

/-! ## Reading a sparse map -/

section Maps

variable {α : Type}

theorem lookup_append_keepBelow (d : α) (m r : SMap α) {k j : Nat} (h : k ≤ j) :
    lookup d (keepBelow m k ++ r) j = lookup d r j := by
  induction m with
  | nil => rfl
  | cons e m ih =>
    obtain ⟨a, v⟩ := e
    by_cases ha : a < k
    · simp [keepBelow, lookup, ha, Nat.lt_of_lt_of_le ha h, ih]
    · simp [keepBelow, ha]

theorem lookup_dropBelow (d : α) (m : SMap α) {k j : Nat} (h : k ≤ j) : lookup d (dropBelow m k) j = lookup d m j := by
  induction m with
  | nil => rfl
  | cons e m ih =>
    obtain ⟨a, v⟩ := e
    by_cases ha : a < k
    · simp [dropBelow, lookup, ha, Nat.lt_of_lt_of_le ha h, ih]
    · simp [dropBelow, ha]

/-- A map whose first entry lies above the key reads as its default. -/
theorem lookup_above (d : α) {m : SMap α} {j : Nat} (h : ∀ e ∈ m.head?, j < e.1) : lookup d m j = d := by
  cases m with
  | nil => rfl
  | cons e m =>
    obtain ⟨a, v⟩ := e
    have : j < a := h (a, v) rfl
    simp [lookup, Nat.lt_asymm this, Nat.ne_of_gt this]

theorem head_dropBelow (m : SMap α) (k : Nat) : ∀ e ∈ (dropBelow m k).head?, k ≤ e.1 := by
  induction m with
  | nil => simp [dropBelow]
  | cons e m ih =>
    obtain ⟨a, v⟩ := e
    by_cases ha : a < k
    · simpa [dropBelow, ha] using ih
    · simp [dropBelow, ha]; omega

variable [DecidableEq α]

theorem head_cellsFrom (d : Nat → α) (k : Nat) (vs : List α) : ∀ e ∈ (cellsFrom d k vs).head?, k ≤ e.1 := by
  induction vs generalizing k with
  | nil => simp [cellsFrom]
  | cons v vs ih =>
    by_cases hv : v = d k
    · simp only [cellsFrom, hv, if_true]
      intro e he
      exact Nat.le_of_succ_le (ih (k + 1) e he)
    · simp [cellsFrom, hv]

omit [DecidableEq α] in
theorem head_append {m r : SMap α} {k : Nat} (hm : ∀ e ∈ m.head?, k ≤ e.1) (hr : ∀ e ∈ r.head?, k ≤ e.1) :
    ∀ e ∈ (m ++ r).head?, k ≤ e.1 := by
  cases m with
  | nil => simpa using hr
  | cons e m => simpa using hm

omit [DecidableEq α] in
/-- Entries below a key come first: what follows them at or above it does not change what they read. -/
theorem lookup_keepBelow_low (d : α) (m r : SMap α) {k j : Nat} (h : j < k) (hr : ∀ e ∈ r.head?, k ≤ e.1) :
    lookup d (keepBelow m k ++ r) j = lookup d m j := by
  induction m with
  | nil =>
    refine lookup_above d ?_
    intro e he
    exact Nat.lt_of_lt_of_le h (hr e he)
  | cons e m ih =>
    obtain ⟨a, v⟩ := e
    by_cases ha : a < k
    · simp [keepBelow, lookup, ha, ih]
    · rw [show keepBelow ((a, v) :: m) k ++ r = r by simp [keepBelow, ha]]
      rw [lookup_above d fun e he => Nat.lt_of_lt_of_le h (hr e he)]
      have h1 : ¬ a < j := by omega
      have h2 : ¬ a = j := by omega
      simp [lookup, h1, h2]

/-- Entries written from a key, behind any map that starts above them. -/
theorem lookup_cellsFrom (d : Nat → α) (vs : List α) (r : SMap α) {k j : Nat} (h : k ≤ j)
    (hr : ∀ e ∈ r.head?, k + vs.length ≤ e.1) :
    lookup (d j) (cellsFrom d k vs ++ r) j = if hj : j - k < vs.length then vs[j - k] else lookup (d j) r j := by
  induction vs generalizing k with
  | nil => simp [cellsFrom]
  | cons v vs ih =>
    have hr' : ∀ e ∈ r.head?, k + 1 + vs.length ≤ e.1 := by
      intro e he; have := hr e he; simp at this; omega
    by_cases hjk : j = k
    · subst hjk
      by_cases hv : v = d j
      · have : lookup (d j) (cellsFrom d j (v :: vs) ++ r) j = d j := by
          refine lookup_above _ ?_
          intro e he
          have := head_append (k := j + 1) (head_cellsFrom d (j + 1) vs)
            (fun e he => by have := hr' e he; omega) e (by simpa [cellsFrom, hv] using he)
          omega
        rw [this]
        simp [hv]
      · simp [cellsFrom, hv, lookup]
    · have hlt : k < j := by omega
      have step : lookup (d j) (cellsFrom d k (v :: vs) ++ r) j = lookup (d j) (cellsFrom d (k + 1) vs ++ r) j := by
        by_cases hv : v = d k
        · simp [cellsFrom, hv]
        · simp [cellsFrom, hv, lookup, hlt]
      rw [step, ih (k := k + 1) (by omega) hr']
      have e1 : j - k = (j - (k + 1)) + 1 := by omega
      by_cases hin : j - (k + 1) < vs.length
      · have : j - k < (v :: vs).length := by simp; omega
        rw [dif_pos hin, dif_pos this]
        simp [e1]
      · have : ¬ j - k < (v :: vs).length := by simp; omega
        rw [dif_neg hin, dif_neg this]

/-- What reading gives after a run of values is written. -/
theorem lookup_putAll (d : Nat → α) (m : SMap α) (k : Nat) (vs : List α) (j : Nat) :
    lookup (d j) (putAll d m k vs) j = if h : k ≤ j ∧ j - k < vs.length then vs[j - k]'h.2 else lookup (d j) m j := by
  unfold putAll
  by_cases hk : k ≤ j
  · rw [List.append_assoc, lookup_append_keepBelow _ _ _ hk, lookup_cellsFrom d vs _ hk (head_dropBelow _ _)]
    by_cases hin : j - k < vs.length
    · simp [hk, hin]
    · rw [dif_neg hin, lookup_dropBelow _ _ (by omega), dif_neg (by omega)]
  · have hlow : j < k := by omega
    rw [List.append_assoc, lookup_keepBelow_low _ _ _ hlow
      (head_append (head_cellsFrom d k vs) fun e he => by have := head_dropBelow _ _ e he; omega)]
    rw [dif_neg (by omega)]

/-- What reading gives after one value is written. -/
theorem lookup_put (d : Nat → α) (m : SMap α) (k : Nat) (v : α) (j : Nat) :
    lookup (d j) (put d m k v) j = if j = k then v else lookup (d j) m j := by
  unfold put
  rw [lookup_putAll]
  by_cases h : j = k
  · subst h; simp
  · rw [if_neg h, dif_neg (by simp; omega)]

omit [DecidableEq α] in
/-- What reading gives after a range is dropped. -/
theorem lookup_dropRange (d : α) (m : SMap α) {lo hi : Nat} (h : lo ≤ hi) (j : Nat) :
    lookup d (keepBelow m lo ++ dropBelow m hi) j = if lo ≤ j ∧ j < hi then d else lookup d m j := by
  by_cases hlo : j < lo
  · rw [lookup_keepBelow_low _ _ _ hlo fun e he => by have := head_dropBelow _ _ e he; omega]
    rw [if_neg (by omega)]
  · rw [lookup_append_keepBelow _ _ _ (by omega)]
    by_cases hhi : j < hi
    · rw [lookup_above d fun e he => by have := head_dropBelow _ _ e he; omega]
      rw [if_pos ⟨by omega, hhi⟩]
    · rw [lookup_dropBelow _ _ (by omega), if_neg (by omega)]

/-! ## The canonical form -/

theorem canonicalFrom_mono (d : Nat → α) {lo lo' : Nat} (h : lo' ≤ lo) {m : SMap α} (c : canonicalFrom d lo m = true) :
    canonicalFrom d lo' m = true := by
  cases m with
  | nil => rfl
  | cons e m =>
    obtain ⟨a, v⟩ := e
    simp [canonicalFrom] at c ⊢
    exact ⟨⟨by omega, c.1.2⟩, c.2⟩

/-- A canonical map behind a canonical map that ends below its start. -/
theorem canonicalFrom_append_keepBelow (d : Nat → α) {lo k : Nat} {m r : SMap α} (hl : lo ≤ k)
    (cm : canonicalFrom d lo m = true) (cr : canonicalFrom d k r = true) :
    canonicalFrom d lo (keepBelow m k ++ r) = true := by
  induction m generalizing lo with
  | nil => exact canonicalFrom_mono d hl cr
  | cons e m ih =>
    obtain ⟨a, v⟩ := e
    simp [canonicalFrom] at cm
    by_cases ha : a < k
    · simp [keepBelow, ha, canonicalFrom, cm.1.1, cm.1.2, ih (lo := a + 1) (by omega) cm.2]
    · simp only [keepBelow, ha, if_false, List.nil_append]
      exact canonicalFrom_mono d hl cr

theorem canonicalFrom_dropBelow (d : Nat → α) {lo k : Nat} {m : SMap α} (c : canonicalFrom d lo m = true) :
    canonicalFrom d k (dropBelow m k) = true := by
  induction m generalizing lo with
  | nil => rfl
  | cons e m ih =>
    obtain ⟨a, v⟩ := e
    simp [canonicalFrom] at c
    by_cases ha : a < k
    · simp only [dropBelow, ha, if_true]; exact ih c.2
    · simp only [dropBelow, ha, if_false]
      simp [canonicalFrom, c.1.2, c.2]; omega

theorem canonicalFrom_cellsFrom (d : Nat → α) {k : Nat} (vs : List α) {r : SMap α}
    (cr : canonicalFrom d (k + vs.length) r = true) : canonicalFrom d k (cellsFrom d k vs ++ r) = true := by
  induction vs generalizing k with
  | nil => simpa [cellsFrom] using cr
  | cons v vs ih =>
    have cr' : canonicalFrom d (k + 1 + vs.length) r = true := by
      refine canonicalFrom_mono d ?_ cr; simp; omega
    by_cases hv : v = d k
    · simp only [cellsFrom, hv, if_true]
      exact canonicalFrom_mono d (Nat.le_succ k) (ih cr')
    · simp [cellsFrom, hv, canonicalFrom, ih cr']

/-- Writing keeps the canonical form. -/
theorem putAll_canonical (d : Nat → α) {m : SMap α} (k : Nat) (vs : List α) (c : canonical d m = true) :
    canonical d (putAll d m k vs) = true := by
  unfold putAll
  rw [List.append_assoc]
  exact canonicalFrom_append_keepBelow d (Nat.zero_le k) c
    (canonicalFrom_cellsFrom d vs (canonicalFrom_dropBelow d c))

theorem put_canonical (d : Nat → α) {m : SMap α} (k : Nat) (v : α) (c : canonical d m = true) :
    canonical d (put d m k v) = true := putAll_canonical d k [v] c

/-- Dropping a range keeps the canonical form. -/
theorem dropRange_canonical (d : Nat → α) {m : SMap α} {lo hi : Nat} (h : lo ≤ hi) (c : canonical d m = true) :
    canonical d (keepBelow m lo ++ dropBelow m hi) = true :=
  canonicalFrom_append_keepBelow d (Nat.zero_le lo) c (canonicalFrom_mono d h (canonicalFrom_dropBelow d c))

end Maps

/-! ## Memory -/

/-- A byte read after bytes are written: the byte written there, or the one before. -/
theorem readByte_writeBytes (m : List Host.Cell) (a : Nat) (bs : List Byte) (j : Nat) :
    readByte (writeBytes m a bs) j = if h : a ≤ j ∧ j - a < bs.length then bs[j - a]'h.2 else readByte m j :=
  lookup_putAll memDefault m a bs j

/-- A byte outside the bytes written stays. -/
theorem readByte_writeBytes_ne {m : List Host.Cell} {a j : Nat} {bs : List Byte} (h : j < a ∨ a + bs.length ≤ j) :
    readByte (writeBytes m a bs) j = readByte m j := by
  rw [readByte_writeBytes, dif_neg (by omega)]

/-- Every write keeps memory's canonical form. -/
theorem writeBytes_wf {m : List Host.Cell} (a : Nat) (bs : List Byte) (c : Memory.wf m = true) :
    Memory.wf (writeBytes m a bs) = true := putAll_canonical memDefault a bs c

theorem wordBytes_length (w : Word) : (wordBytes w).length = 4 := rfl

theorem wordsBytes_length (ws : List Word) : (wordsBytes ws).length = 4 * ws.length := by
  induction ws with
  | nil => rfl
  | cons w ws ih =>
    have : wordsBytes (w :: ws) = wordBytes w ++ wordsBytes ws := by simp [wordsBytes]
    rw [this, List.length_append, ih, wordBytes_length, List.length_cons]
    omega

theorem writeMemWord_wf {m : List Host.Cell} (a : Nat) (w : Word) (c : Memory.wf m = true) :
    Memory.wf (writeMemWord m a w) = true := writeBytes_wf a _ c

theorem writeMemWords_wf {m : List Host.Cell} (a : Nat) (ws : List Word) (c : Memory.wf m = true) :
    Memory.wf (writeMemWords m a ws) = true := writeBytes_wf a _ c

theorem zeroise_wf {m : Mach} {lo hi : Nat} (h : lo ≤ hi) (c : Memory.wf m.mem = true) :
    Memory.wf (m.zeroise lo hi).mem = true := dropRange_canonical memDefault h c

/-- Zeroising a range makes it read as zero and leaves every other byte. -/
theorem readByte_zeroise (m : Mach) {lo hi : Nat} (h : lo ≤ hi) (a : Nat) :
    readByte (m.zeroise lo hi).mem a = if lo ≤ a ∧ a < hi then 0 else readByte m.mem a :=
  lookup_dropRange _ _ h a

/-- The bytes of a word put together again. -/
theorem bytesWord_wordBytes (w : Word) :
    bytesWord ((w >>> 24).setWidth 8) ((w >>> 16).setWidth 8) ((w >>> 8).setWidth 8) (w.setWidth 8) = w := by
  apply BitVec.eq_of_getLsbD_eq
  intro i hi
  simp only [bytesWord, BitVec.getLsbD_append, BitVec.getLsbD_setWidth, BitVec.getLsbD_ushiftRight]
  by_cases h0 : i < 8
  · simp [h0]
  · by_cases h1 : i - 8 < 8
    · have : 8 + (i - 8) = i := by omega
      simp [h0, h1, this]
    · by_cases h2 : i - 8 - 8 < 8
      · have : 16 + (i - 8 - 8) = i := by omega
        simp [h0, h1, h2, this]
      · have h3 : i - 8 - 8 - 8 < 8 := by omega
        have : 24 + (i - 8 - 8 - 8) = i := by omega
        simp [h0, h1, h2, h3, this]

/-- A word read back. -/
theorem readMemWord_writeMemWord (m : List Host.Cell) (a : Nat) (w : Word) : readMemWord (writeMemWord m a w) a = w := by
  have h0 : readByte (writeMemWord m a w) a = (w >>> 24).setWidth 8 := by
    simp [writeMemWord, readByte_writeBytes, wordBytes]
  have h1 : readByte (writeMemWord m a w) (a + 1) = (w >>> 16).setWidth 8 := by
    simp [writeMemWord, readByte_writeBytes, wordBytes]
  have h2 : readByte (writeMemWord m a w) (a + 2) = (w >>> 8).setWidth 8 := by
    simp [writeMemWord, readByte_writeBytes, wordBytes]
  have h3 : readByte (writeMemWord m a w) (a + 3) = w.setWidth 8 := by
    simp [writeMemWord, readByte_writeBytes, wordBytes]
  rw [readMemWord, h0, h1, h2, h3, bytesWord_wordBytes]

/-- A word beside the word written stays. -/
theorem readMemWord_writeMemWord_ne {m : List Host.Cell} {a b : Nat} (w : Word) (h : b + 4 ≤ a ∨ a + 4 ≤ b) :
    readMemWord (writeMemWord m a w) b = readMemWord m b := by
  unfold readMemWord writeMemWord
  rw [readByte_writeBytes_ne, readByte_writeBytes_ne, readByte_writeBytes_ne, readByte_writeBytes_ne] <;>
    simp only [wordBytes_length] <;> omega

/-! ## Registers -/

/-- A register read after a write. -/
theorem Mach.rd_wr (m : Mach) (a : Nat) (w : Word) (b : Nat) : (m.wr a w).rd b = if b = a then w else m.rd b :=
  lookup_put resetWord m.regs a w b

@[simp] theorem Mach.rd_wr_self (m : Mach) (a : Nat) (w : Word) : (m.wr a w).rd a = w := by simp [Mach.rd_wr]

theorem Mach.rd_wr_ne (m : Mach) {a b : Nat} (w : Word) (h : b ≠ a) : (m.wr a w).rd b = m.rd b := by simp [Mach.rd_wr, h]

/-- The stored registers keep their canonical form. -/
theorem Mach.wr_canonical {m : Mach} (a : Nat) (w : Word) (c : canonical resetWord m.regs = true) :
    canonical resetWord (m.wr a w).regs = true := put_canonical resetWord a w c

theorem Mach.resetRange_canonical {m : Mach} {lo hi : Nat} (h : lo ≤ hi) (c : canonical resetWord m.regs = true) :
    canonical resetWord (m.resetRange lo hi).regs = true := dropRange_canonical resetWord h c

/-- A range returned to reset. -/
theorem Mach.rd_resetRange (m : Mach) {lo hi : Nat} (h : lo ≤ hi) (a : Nat) :
    (m.resetRange lo hi).rd a = if lo ≤ a ∧ a < hi then resetWord a else m.rd a :=
  lookup_dropRange _ _ h a

@[simp] theorem Mach.rd_send (m : Mach) (o : Out) (a : Nat) : (m.send o).rd a = m.rd a := rfl
@[simp] theorem Mach.rd_freeTicked (m : Mach) (a : Nat) : m.freeTicked.rd a = m.rd a := rfl
@[simp] theorem Mach.rd_refuse (m : Mach) (c : BitVec 16) (x : Word) (a : Nat) : (m.refuse c x).rd a = m.rd a := rfl
@[simp] theorem Mach.rd_ok (m : Mach) (ws : List Word) (a : Nat) : (m.ok ws).rd a = m.rd a := rfl

/-! ## Fields -/

theorem splice_toNat (w : Word) {lsb width : Nat} (v : Nat) (h : lsb + width ≤ 32) :
    (splice w lsb width v).toNat
      = w.toNat % 2 ^ lsb + v % 2 ^ width * 2 ^ lsb + w.toNat / 2 ^ (lsb + width) * 2 ^ (lsb + width) := by
  have hw := w.isLt
  have hv : v % 2 ^ width < 2 ^ width := Nat.mod_lt _ (Nat.two_pow_pos _)
  have hl : w.toNat % 2 ^ lsb < 2 ^ lsb := Nat.mod_lt _ (Nat.two_pow_pos _)
  have e1 : 2 ^ (lsb + width) = 2 ^ lsb * 2 ^ width := Nat.pow_add _ _ _
  have e2 : 2 ^ 32 = 2 ^ (lsb + width) * 2 ^ (32 - (lsb + width)) := by rw [← Nat.pow_add]; congr 1; omega
  have h1 : w.toNat % 2 ^ lsb + v % 2 ^ width * 2 ^ lsb < 2 ^ (lsb + width) := by
    have : v % 2 ^ width * 2 ^ lsb + 2 ^ lsb ≤ 2 ^ width * 2 ^ lsb := by
      have := Nat.mul_le_mul_right (2 ^ lsb) (Nat.succ_le_of_lt hv)
      rw [Nat.succ_mul] at this; exact this
    rw [e1, Nat.mul_comm (2 ^ lsb)]; omega
  have h2 : w.toNat / 2 ^ (lsb + width) < 2 ^ (32 - (lsb + width)) := by
    apply Nat.div_lt_of_lt_mul; rw [← e2]; exact hw
  have h3 : w.toNat / 2 ^ (lsb + width) * 2 ^ (lsb + width) + 2 ^ (lsb + width) ≤ 2 ^ 32 := by
    rw [e2, ← Nat.succ_mul, Nat.mul_comm (2 ^ (lsb + width))]
    exact Nat.mul_le_mul_right _ h2
  unfold splice
  rw [BitVec.toNat_ofNat, Nat.mod_eq_of_lt (by omega)]

/-- A field read after it is spliced in. -/
theorem fieldOf_splice_self (w : Word) {lsb width : Nat} (v : Nat) (h : lsb + width ≤ 32) :
    fieldOf (splice w lsb width v) lsb width = v % 2 ^ width := by
  have hl : w.toNat % 2 ^ lsb < 2 ^ lsb := Nat.mod_lt _ (Nat.two_pow_pos _)
  unfold fieldOf
  rw [splice_toNat w v h, Nat.pow_add]
  have : w.toNat % 2 ^ lsb + v % 2 ^ width * 2 ^ lsb + w.toNat / (2 ^ lsb * 2 ^ width) * (2 ^ lsb * 2 ^ width)
      = w.toNat % 2 ^ lsb + (v % 2 ^ width + w.toNat / (2 ^ lsb * 2 ^ width) * 2 ^ width) * 2 ^ lsb := by
    rw [Nat.add_mul, Nat.add_assoc]
    congr 2
    rw [Nat.mul_assoc, Nat.mul_comm (2 ^ width)]
  rw [this, Nat.add_mul_div_right _ _ (Nat.two_pow_pos _), Nat.div_eq_of_lt hl, Nat.zero_add, Nat.add_mul_mod_self_right,
    Nat.mod_mod]

/-- The bits of a word after a splice. -/
theorem splice_getLsbD (w : Word) {lsb width : Nat} (v : Nat) (h : lsb + width ≤ 32) (i : Nat) :
    (splice w lsb width v).getLsbD i = if lsb ≤ i ∧ i < lsb + width then v.testBit (i - lsb) else w.getLsbD i := by
  have hl : w.toNat % 2 ^ lsb < 2 ^ lsb := Nat.mod_lt _ (Nat.two_pow_pos _)
  have hv : v % 2 ^ width < 2 ^ width := Nat.mod_lt _ (Nat.two_pow_pos _)
  have e : w.toNat % 2 ^ lsb + v % 2 ^ width * 2 ^ lsb + w.toNat / 2 ^ (lsb + width) * 2 ^ (lsb + width)
      = 2 ^ lsb * (2 ^ width * (w.toNat / 2 ^ (lsb + width)) + v % 2 ^ width) + w.toNat % 2 ^ lsb := by
    rw [Nat.mul_add, ← Nat.mul_assoc, ← Nat.pow_add, Nat.mul_comm (2 ^ lsb) (v % _), Nat.mul_comm (w.toNat / _)]
    omega
  rw [BitVec.getLsbD, BitVec.getLsbD, splice_toNat w v h, e, Nat.testBit_two_pow_mul_add _ hl,
    Nat.testBit_two_pow_mul_add _ hv, Nat.testBit_mod_two_pow, Nat.testBit_mod_two_pow, Nat.testBit_div_two_pow]
  by_cases h1 : i < lsb
  · simp [h1] <;> omega
  · by_cases h2 : i - lsb < width
    · have : lsb ≤ i ∧ i < lsb + width := by omega
      simp [h1, h2, this]
    · have h3 : ¬ (lsb ≤ i ∧ i < lsb + width) := by omega
      have h4 : i - lsb - width + (lsb + width) = i := by omega
      simp [h1, h2, h3, h4]

theorem fieldOf_testBit (w : Word) (lsb width i : Nat) :
    (fieldOf w lsb width).testBit i = (decide (i < width) && w.getLsbD (i + lsb)) := by
  unfold fieldOf
  rw [Nat.testBit_mod_two_pow, Nat.testBit_div_two_pow]
  rfl

/-- A field beside the one spliced in stays. -/
theorem fieldOf_splice_ne (w : Word) {lsb width l n : Nat} (v : Nat) (h : lsb + width ≤ 32)
    (d : l + n ≤ lsb ∨ lsb + width ≤ l) : fieldOf (splice w lsb width v) l n = fieldOf w l n := by
  apply Nat.eq_of_testBit_eq
  intro i
  rw [fieldOf_testBit, fieldOf_testBit, splice_getLsbD w v h]
  by_cases hi : i < n
  · rw [if_neg (by omega)]
  · simp [hi]

/-- A field of a field register lies in its word. -/
def Field.fits (f : Field) : Bool := decide (f.lsb + f.width ≤ 32)

/-- Two fields share no bit. -/
def Field.apart (f g : Field) : Bool :=
  decide (f.addr ≠ g.addr) || decide (f.lsb + f.width ≤ g.lsb) || decide (g.lsb + g.width ≤ f.lsb)

/-- A field reads as it was set. -/
theorem Mach.get_set (m : Mach) {f : Field} (v : Nat) (h : f.fits = true) : (m.set f v).get f = v % 2 ^ f.width := by
  unfold Mach.get Mach.set
  rw [Mach.rd_wr_self]
  exact fieldOf_splice_self _ v (of_decide_eq_true h)

/-- Setting a field leaves the others. -/
theorem Mach.get_set_ne (m : Mach) {f g : Field} (v : Nat) (h : f.fits = true) (d : f.apart g = true) :
    (m.set f v).get g = m.get g := by
  unfold Mach.get Mach.set
  by_cases ha : g.addr = f.addr
  · rw [ha, Mach.rd_wr_self]
    refine fieldOf_splice_ne _ v (of_decide_eq_true h) ?_
    simp [Field.apart, ha] at d
    omega
  · rw [Mach.rd_wr_ne _ _ ha]

/-- Setting a field leaves the other registers. -/
theorem Mach.rd_set_ne (m : Mach) {f : Field} {a : Nat} (v : Nat) (h : a ≠ f.addr) : (m.set f v).rd a = m.rd a :=
  Mach.rd_wr_ne _ _ h

/-- Writing a register leaves the fields of the others. -/
theorem Mach.get_wr_ne (m : Mach) {g : Field} {a : Nat} (w : Word) (h : g.addr ≠ a) : (m.wr a w).get g = m.get g := by
  unfold Mach.get; rw [Mach.rd_wr_ne _ _ h]

/-- A field after its register is written. -/
theorem Mach.get_wr (m : Mach) {g : Field} {a : Nat} (w : Word) (h : g.addr = a) :
    (m.wr a w).get g = fieldOf w g.lsb g.width := by
  unfold Mach.get; subst h; rw [Mach.rd_wr_self]

@[simp] theorem Mach.get_send (m : Mach) (o : Out) (f : Field) : (m.send o).get f = m.get f := rfl
@[simp] theorem Mach.get_freeTicked (m : Mach) (f : Field) : m.freeTicked.get f = m.get f := rfl
@[simp] theorem Mach.get_refuse (m : Mach) (c : BitVec 16) (x : Word) (f : Field) : (m.refuse c x).get f = m.get f := rfl
@[simp] theorem Mach.get_ok (m : Mach) (ws : List Word) (f : Field) : (m.ok ws).get f = m.get f := rfl

/-! ## The queue -/

/-- A command that works on the module leaves the queue. -/
@[simp] theorem eff_eq (s : State) (m : Mach) : eff s m = .next { s with mach := m } := rfl

end Sys2Proof.Machine
end

