-- ==== Sys2Proof/Laws/Clock.lean ====
section
/-!
SUPPORT. What letting time pass changes (the clock and the nodes' hold timers alone), when an interval has lasted long enough, what a
timer reads after a mark, and what an open register's access answers.
-/

namespace Sys2Proof.Machine

variable (m : Mach)

/-! ## Timers -/

@[simp] theorem Mach.markOf_mark (t : Timer) : (m.mark t).markOf t = some m.upNs := by simp [Mach.mark, Mach.markOf]

theorem Mach.markOf_mark_ne {t u : Timer} (h : t ≠ u) : (m.mark t).markOf u = m.markOf u := by
  have h1 : (t == u) = false := by simpa using h
  simp only [Mach.mark, Mach.markOf, List.find?_cons, h1, List.find?_filter]
  congr 2
  funext e
  by_cases he : e.1 = u
  · simp [he, Ne.symm h]
  · simp [he]

@[simp] theorem Mach.markOf_unmark (t : Timer) : (m.unmark t).markOf t = none := by
  simp [Mach.unmark, Mach.markOf, List.find?_filter]

/-! ## Time -/

/-- `t` is `m` but for the clock. -/
theorem Mach.advanceTo_eq (ns : Nat) : m.advanceTo ns = { m with time := (m.advanceTo ns).time } := by
  unfold Mach.advanceTo
  split <;> rfl

/-- Letting time pass changes the clock and the chain's nodes alone. -/
theorem Mach.passTo_eq (ns : Nat) :
    m.passTo ns = { m with time := (m.passTo ns).time, chain := { m.chain with nodes := (m.passTo ns).chain.nodes } } := by
  unfold Mach.passTo
  rw [m.advanceTo_eq]

theorem Mach.passUntil_eq (t0 ns : Nat) : m.passUntil t0 ns = { m with
    time := (m.passUntil t0 ns).time, chain := { m.chain with nodes := (m.passUntil t0 ns).chain.nodes } } :=
  m.passTo_eq _

theorem Mach.await_eq (t : Timer) (ns : Nat) : m.await t ns = { m with
    time := (m.await t ns).time, chain := { m.chain with nodes := (m.await t ns).chain.nodes } } := by
  unfold Mach.await
  split
  · rfl
  · exact m.passUntil_eq _ _

@[simp] theorem Mach.passUntil_regs (t0 ns : Nat) : (m.passUntil t0 ns).regs = m.regs := by rw [m.passUntil_eq]
@[simp] theorem Mach.passUntil_mem (t0 ns : Nat) : (m.passUntil t0 ns).mem = m.mem := by rw [m.passUntil_eq]
@[simp] theorem Mach.passUntil_out (t0 ns : Nat) : (m.passUntil t0 ns).out = m.out := by rw [m.passUntil_eq]
@[simp] theorem Mach.passUntil_runState (t0 ns : Nat) : (m.passUntil t0 ns).runState = m.runState := by rw [m.passUntil_eq]
@[simp] theorem Mach.await_regs (t : Timer) (ns : Nat) : (m.await t ns).regs = m.regs := by rw [m.await_eq]
@[simp] theorem Mach.await_mem (t : Timer) (ns : Nat) : (m.await t ns).mem = m.mem := by rw [m.await_eq]
@[simp] theorem Mach.await_out (t : Timer) (ns : Nat) : (m.await t ns).out = m.out := by rw [m.await_eq]
@[simp] theorem Mach.await_runState (t : Timer) (ns : Nat) : (m.await t ns).runState = m.runState := by rw [m.await_eq]

theorem Mach.advanceTo_up (ns : Nat) : (m.advanceTo ns).time.up = m.time.up + (ns - m.nowNs) := by
  unfold Mach.advanceTo
  split
  · next h => rw [Nat.sub_eq_zero_of_le h, Nat.add_zero]
  · rfl

theorem Mach.passTo_up (ns : Nat) : (m.passTo ns).time.up = m.time.up + (ns - m.nowNs) := m.advanceTo_up ns

theorem Mach.passTo_later (d : Nat) : (m.passTo (m.nowNs + d)).time.up = m.time.up + d := by
  rw [Mach.passTo_up, Nat.add_sub_cancel_left]

theorem Mach.upNs_eq : m.upNs = m.time.up := rfl

theorem Mach.passUntil_up (t0 ns : Nat) : (m.passUntil t0 ns).upNs = m.upNs + (t0 + ns - m.upNs) := by
  rw [Mach.passUntil, Mach.upNs_eq, Mach.passTo_later, ← Mach.upNs_eq]

/-- An interval that has been waited for has lasted long enough. -/
theorem Mach.passUntil_upNs (t0 ns : Nat) : t0 + ns ≤ (m.passUntil t0 ns).upNs := by
  rw [m.passUntil_up]
  omega

/-- Time never runs back. -/
theorem Mach.passUntil_mono (t0 ns : Nat) : m.upNs ≤ (m.passUntil t0 ns).upNs := by
  rw [m.passUntil_up]
  omega

/-- The interval of a timer has lasted long enough. -/
theorem Mach.await_upNs {t : Timer} {t0 ns : Nat} (h : m.markOf t = some t0) : t0 + ns ≤ (m.await t ns).upNs := by
  unfold Mach.await
  rw [h]
  exact m.passUntil_upNs t0 ns

/-! ## Ports and accesses -/

@[simp] theorem Mach.port_setPort (p : Port) (x : PortState) : (m.setPort p x).port p = x := by cases p <;> rfl

theorem Mach.port_setPort_ne {p q : Port} (x : PortState) (h : p ≠ q) : (m.setPort p x).port q = m.port q := by
  cases p <;> cases q <;> first | rfl | exact absurd rfl h

/-- A register that takes accesses: the write acts as its function says. -/
theorem Mach.access_reachable {a : Nat} (f : Mach → Mach) (h : m.reachable a = true) : m.access a f = f m.ok := by
  simp only [Mach.reachable, Bool.and_eq_true, Option.isNone_iff_eq_none, bne_iff_ne, ne_eq] at h
  simp [Mach.access, h.1, h.2]

/-- A register whose domain is off refuses, and nothing else changes. -/
theorem Mach.access_off {a : Nat} {c : BitVec 16} (f : Mach → Mach) (h : m.offCode a = some c) : m.access a f = m.refuse c := by
  simp [Mach.access, h]

end Sys2Proof.Machine
end

