-- ==== Sys2Proof/Laws/Operands.lean ====
section
/-!
SUPPORT. What writes of Relud registers do (R197, R199, R216), and what they leave.
-/

namespace Sys2Proof.Machine

/-! ## Writes -/

theorem Mach.sreg_zero (m : Mach) : m.sreg 0 = 0 := rfl

theorem Mach.setS_spin {m : Mach} {d : SReg} (w : Word) (h : d ≠ 0) :
    m.setS d w = { m with spin := { m.spin with s := m.spin.s.set d.toNat w } } := if_neg h

theorem Mach.setM_spin {m : Mach} {d : MReg} (f : Nat → BitVec 8) (h : d ≠ 0) :
    m.setM d f = { m with spin := { m.spin with
      msk := m.spin.msk.set d.toNat
        (Vector.ofFn fun n => if m.laneOn n then f n else (m.spin.msk[d.toNat])[n]) } } := if_neg h

/-- A scalar register after a write. -/
theorem Mach.sreg_setS (m : Mach) (d r : SReg) (w : Word) :
    (m.setS d w).sreg r = if r = 0 then 0 else if r = d then w else m.sreg r := by
  by_cases hr : r = 0
  · rw [if_pos hr]; exact if_pos hr
  · rw [if_neg hr]
    by_cases hd : d = 0
    · have : r ≠ d := by rintro rfl; exact hr hd
      rw [if_neg this, show m.setS d w = m from if_pos hd]
    · rw [Mach.setS_spin w hd, Mach.sreg, if_neg hr]
      by_cases h : r = d
      · subst h; rw [if_pos rfl]; exact Vector.getElem_set_self _
      · have : d.toNat ≠ r.toNat := fun e => h (BitVec.eq_of_toNat_eq e).symm
        rw [if_neg h, Mach.sreg, if_neg hr]
        exact Vector.getElem_set_ne (by have := d.isLt; omega) _ this

theorem Mach.laneOn_setV (m : Mach) (d : VReg) (f : Nat → Lane) (n : Nat) : (m.setV d f).laneOn n = m.laneOn n := rfl

/-- A vector register after a write. -/
theorem Mach.vreg_setV (m : Mach) (d r : VReg) (f : Nat → Lane) {n : Nat} (hn : n < 128) :
    (m.setV d f).vreg r n = if r = d ∧ m.laneOn n then f n else m.vreg r n := by
  unfold Mach.vreg
  rw [Mach.laneOn_setV]
  by_cases hl : m.laneOn n = true
  · by_cases h : r = d
    · subst h; simp [Mach.setV, hl, hn]
    · have : d.toNat ≠ r.toNat := fun e => h (BitVec.eq_of_toNat_eq e).symm
      simp [Mach.setV, hl, h, Vector.getElem_set_ne _ _ this]
  · simp [hl]

theorem Mach.laneOn_setM (m : Mach) (d : MReg) (f : Nat → BitVec 8) (n : Nat) : (m.setM d f).laneOn n = m.laneOn n := by
  unfold Mach.setM; split <;> rfl

/-- A mask register after a write. -/
theorem Mach.mreg_setM (m : Mach) (d r : MReg) (f : Nat → BitVec 8) {n : Nat} (hn : n < 128) :
    (m.setM d f).mreg r n = if r = 0 then 0xFF else if r = d ∧ m.laneOn n then f n else m.mreg r n := by
  by_cases hr : r = 0
  · rw [if_pos hr]; exact if_pos hr
  · rw [if_neg hr, Mach.mreg, if_neg hr, Mach.laneOn_setM]
    by_cases hd : d = 0
    · have : r ≠ d := by rintro rfl; exact hr hd
      rw [show m.setM d f = m from if_pos hd, if_neg (fun c => this c.1 : ¬ (r = d ∧ m.laneOn n = true)), Mach.mreg, if_neg hr]
    · rw [Mach.setM_spin f hd, Mach.mreg, if_neg hr]
      by_cases hl : m.laneOn n = true
      · by_cases h : r = d
        · subst h; simp [hl, hn]
        · have : d.toNat ≠ r.toNat := fun e => h (BitVec.eq_of_toNat_eq e).symm
          simp [hl, h, Vector.getElem_set_ne _ _ this]
      · simp [hl]

/-- A matrix buffer after a write. -/
theorem Mach.mxreg_setMx (m : Mach) (d r : XReg) (f : Nat → Vector Lane 8) {n : Nat} (hn : n < 128) :
    (m.setMx d f).mxreg r n = if r = d ∧ m.laneOn n then f n else m.mxreg r n := by
  unfold Mach.mxreg
  have hl : (m.setMx d f).laneOn n = m.laneOn n := rfl
  rw [hl]
  by_cases hl' : m.laneOn n = true
  · by_cases h : r = d
    · subst h; simp [Mach.setMx, hl', hn]
    · have : d.toNat ≠ r.toNat := fun e => h (BitVec.eq_of_toNat_eq e).symm
      simp [Mach.setMx, hl', h, Vector.getElem_set_ne _ _ this]
  · simp [hl']

theorem Mach.stickFlags_flags (m : Mach) (f : Nat → LaneFlags) (n : Fin 128) :
    (m.stickFlags f).spin.flags[n] = m.spin.flags[n].or (if m.laneOn n then f n else LaneFlags.none) := by
  simp [Mach.stickFlags, Mach.flagSets]

theorem Mach.rd_stickFlags (m : Mach) (f : Nat → LaneFlags) (a : Nat) : (m.stickFlags f).rd a = m.rd a := by
  unfold Mach.rd Mach.stickFlags; with_reducible rfl

theorem Mach.stickFlags_eq (m : Mach) (f : Nat → LaneFlags) :
    m.stickFlags f = { m with spin := { m.spin with flags := (m.stickFlags f).spin.flags } } := by
  unfold Mach.stickFlags; with_reducible rfl

/-- Adding flags sets them, and where some flag is set the two registers that report flags. -/
theorem Mach.addFlags_forms (m : Mach) (f : Nat → LaneFlags) :
    m.addFlags f = m.stickFlags f ∨
      ∃ v, m.addFlags f = ((m.stickFlags f).set F.SPN_AFLAG_flag v).set F.SPN_IRQ_STAT_aflag 1 := by
  unfold Mach.addFlags
  by_cases h : flagsSeen (m.flagSets f) = 0
  · exact .inl (if_pos h)
  · exact .inr ⟨_, if_neg h⟩

/-- Lane flags after flags are added. -/
theorem Mach.flags_addFlags (m : Mach) (f : Nat → LaneFlags) (n : Fin 128) :
    (m.addFlags f).spin.flags[n] = m.spin.flags[n].or (if m.laneOn n then f n else LaneFlags.none) := by
  rw [← Mach.stickFlags_flags]
  obtain e | ⟨v, e⟩ := m.addFlags_forms f
  · rw [e]
  · simp [e]

/-- Adding flags touches the lane flags and the two registers that report them. -/
theorem Mach.addFlags_rd (m : Mach) (f : Nat → LaneFlags) {a : Nat} (h1 : a ≠ Reg.SPN_AFLAG) (h2 : a ≠ Reg.SPN_IRQ_STAT) :
    (m.addFlags f).rd a = m.rd a := by
  obtain e | ⟨v, e⟩ := m.addFlags_forms f
  · rw [e, Mach.rd_stickFlags]
  · rw [e, Mach.rd_set_ne _ _ h2, Mach.rd_set_ne _ _ h1, Mach.rd_stickFlags]

theorem Mach.addFlags_eq (m : Mach) (f : Nat → LaneFlags) :
    m.addFlags f = { m with regs := (m.addFlags f).regs, spin := { m.spin with flags := (m.addFlags f).spin.flags } } := by
  have h := m.stickFlags_eq f
  obtain e | ⟨v, e⟩ := m.addFlags_forms f <;>
  · rw [e]
    generalize m.stickFlags f = k at h
    generalize k.spin.flags = fl at h
    subst h
    rfl

/-- Lanes do not depend on the flags. -/
theorem Mach.addFlags_laneOn (m : Mach) (f : Nat → LaneFlags) (n : Nat) : (m.addFlags f).laneOn n = m.laneOn n := by
  have : (m.addFlags f).domOn .spin1 = m.domOn .spin1 := by
    unfold Mach.domOn Mach.get
    rw [Mach.addFlags_rd] <;> decide
  simp [Mach.laneOn, this]

/-! ## The sequencer's progress leaves the registers -/

section Progress

variable (sp : SpinState) (o : OpInfo) (t : Nat) (x : Option Nat)

@[simp] theorem SpinState.advance_s : (sp.advance o t x).s = sp.s := by cases x <;> rfl
@[simp] theorem SpinState.advance_v : (sp.advance o t x).v = sp.v := by cases x <;> rfl
@[simp] theorem SpinState.advance_msk : (sp.advance o t x).msk = sp.msk := by cases x <;> rfl
@[simp] theorem SpinState.advance_mx : (sp.advance o t x).mx = sp.mx := by cases x <;> rfl
@[simp] theorem SpinState.advance_flags : (sp.advance o t x).flags = sp.flags := by cases x <;> rfl
@[simp] theorem SpinState.await_s : (sp.await o t).s = sp.s := rfl
@[simp] theorem SpinState.await_v : (sp.await o t).v = sp.v := rfl
@[simp] theorem SpinState.await_msk : (sp.await o t).msk = sp.msk := rfl
@[simp] theorem SpinState.await_mx : (sp.await o t).mx = sp.mx := rfl
@[simp] theorem SpinState.await_flags : (sp.await o t).flags = sp.flags := rfl

end Progress

/-! ## Issue -/

/-- An instruction outside a section has no effect. -/
theorem Mach.relud_idle {m : Mach} {o : OpInfo} {body : Mach → Nat → Issued} {target : Mach → Option Nat}
    (h : m.inSection = false) : m.relud o body target = m := by
  simp [Mach.relud, h]

/-- Reading words without an upset changes nothing. -/
theorem Mach.meet_none {m : Mach} {a n agent : Nat} (h : (m.upsetsIn a n).isEmpty = true) : m.meet a n agent = m := by
  rw [Mach.meet, List.isEmpty_iff.mp h]; rfl

/-- What an instruction does that issues: its body, and then the sequencer moves on. -/
theorem Mach.relud_issues {m : Mach} {o : OpInfo} {body : Mach → Nat → Issued} {target : Mach → Option Nat}
    (h : m.issues o = true) (ho : 0 < o.size) :
    m.relud o body target =
      match body m (m.spin.issueAt o) with
      | .trapped m' c l => m'.trap c l
      | .done m' => { m' with spin := (m'.spin.await o (m.spin.issueAt o)).advance o (m.spin.issueAt o) (target m) } := by
  simp only [Mach.issues, Bool.and_eq_true, decide_eq_true_eq, Option.isNone_iff_eq_none] at h
  obtain ⟨⟨⟨⟨⟨h1, h2⟩, h3⟩, hu⟩, h4⟩, h5⟩ := h
  have n1 : ¬ m.budget ≤ m.spin.use := by omega
  have n2 : ¬ m.get F.SPN_PROG_LEN_len ≤ m.spin.pc := by omega
  have n3 : ¬ m.get F.SPN_PROG_LEN_len < m.spin.pc + o.size := by omega
  have n4 : ¬ m.budget < m.spin.issueAt o + o.size := by omega
  rw [Mach.relud, if_pos h1, if_neg n1, if_neg n2, Mach.meet_none hu]
  simp only [h4]
  simp only [if_neg n3, if_neg n4] <;> cases body m (m.spin.issueAt o) <;> rfl

/-- An instruction whose body completes. -/
theorem Mach.relud_done {m : Mach} {o : OpInfo} {body : Mach → Nat → Issued} {target : Mach → Option Nat} {m' : Mach}
    (h : m.issues o = true) (ho : 0 < o.size) (hb : body m (m.spin.issueAt o) = .done m') :
    m.relud o body target =
      { m' with spin := (m'.spin.await o (m.spin.issueAt o)).advance o (m.spin.issueAt o) (target m) } := by
  rw [Mach.relud_issues h ho, hb]

/-- An instruction whose body traps. -/
theorem Mach.relud_trapped {m : Mach} {o : OpInfo} {body : Mach → Nat → Issued} {target : Mach → Option Nat} {m' : Mach}
    {c l : Nat} (h : m.issues o = true) (ho : 0 < o.size) (hb : body m (m.spin.issueAt o) = .trapped m' c l) :
    m.relud o body target = m'.trap c l := by
  rw [Mach.relud_issues h ho, hb]

/-- An instruction that always completes. -/
theorem Mach.run_issues {m : Mach} {o : OpInfo} {f : Mach → Mach} (h : m.issues o = true) (ho : 0 < o.size) :
    m.run o f = { f m with spin := ((f m).spin.await o (m.spin.issueAt o)).advance o (m.spin.issueAt o) none } :=
  Mach.relud_done h ho rfl

/-- The next word follows an instruction without a branch that leaves the loops as they are. -/
theorem SpinState.advance_next {sp : SpinState} {o : OpInfo} {t : Nat}
    (h : ∀ l ∈ sp.loops.head?, l.stop ≠ sp.pc + o.size - 1) :
    (sp.advance o t none).pc = sp.pc + o.size + o.skip ∧ (sp.advance o t none).loops = sp.loops := by
  cases hl : sp.loops with
  | nil => simp [SpinState.advance, hl, loopNext]
  | cons x xs =>
    have : x.stop ≠ sp.pc + o.size - 1 := h x (by simp [hl])
    simp [SpinState.advance, hl, loopNext, this]

end Sys2Proof.Machine
end

