-- ==== Sys2Proof/WellFormed.lean ====
section
/-!
DEFINITION. Which commands the module's surroundings can send: numbers within the ranges that the spec gives to masters,
sessions, positions, instances, addresses and messages. Operands that are bit fields need no check. The meanings are total and
do not depend on it.
-/

namespace Sys2Proof

/-- A master number (R403, R417): sessions 1 to 8, the service port 13, the module's own 14 and 15. -/
def isMaster (k : Nat) : Bool := decide (1 ≤ k ∧ k ≤ 8) || decide (13 ≤ k ∧ k ≤ 15)

/-- A ring session (R393). -/
def ringSession (k : Nat) : Bool := decide (1 ≤ k ∧ k ≤ 8)

/-- A session: of the ring, or of the service port (R393). -/
def isSession (k : Nat) : Bool := ringSession k || k == 13

/-- A node position (R30, R111). -/
def isPosition (n : Nat) : Bool := decide (n < 128)

/-- An SRAM instance (R25). -/
def isInstance (i : Nat) : Bool := decide (i < 48)

/-- A byte address (R30). -/
def isAddress (a : Nat) : Bool := decide (a < 2 ^ 32)

/-- A mailbox or master that asks for a ladder action. -/
def LadderReq.wf : LadderReq → Bool
  | .mailbox b => decide (b < 16)
  | .register k _ => isMaster k
  | .distaff => true

/-- A mirrored item names a block register and an offset in the bank (R211, R358). -/
def MirrorItem.wf : MirrorItem → Bool
  | .flyBlock k _ _ => decide (k < 4)
  | .bankWrite o _ => decide (o < 0x10000) && o % 4 == 0
  | .commit _ _ _ => true
  | .mode _ _ => true
  | .swapReq _ _ => true
  | .swapCancel => true
  | .runState _ _ => true

/-- A frame carries at most 64 bytes (R425). -/
def CanFrame.wf (f : CanFrame) : Bool := decide (f.data.length ≤ 16)

/-- A load names positions (R114). -/
def LoadResult.wf (l : LoadResult) : Bool := (l.missing.all fun r => r.all fun e => isPosition e.1) && l.failed.all isPosition

/-- A walk finds at most 128 nodes (R111). -/
def WalkResult.wf (w : WalkResult) : Bool := decide (w.nodes.length ≤ 128) && w.load.wf

/-- A response comes from a position, or from none that the walk numbered, with at most 64 data bytes (R102). -/
def MgmtResp.wf (r : MgmtResp) : Bool := decide (r.pos < 256) && decide (r.data.length ≤ 64)

/-- An uplink slot lies at a position (R99). -/
def SlotRx.wf (r : SlotRx) : Bool := isPosition r.pos

/-- A cell record has 24 bytes; one at a tail index that no position writes has no position (R101). -/
def RecordRx.wf (r : RecordRx) : Bool := decide (r.pos < 256) && decide (r.words.length = 6)

/-- A node's wires are of at most 6 cells (R288). -/
def WireRec.wf (r : WireRec) : Bool := isPosition r.pos && decide (r.cells ≤ 6)

/-- A node image has at most 256 KB and a digest of 32 bytes (R128, R488). -/
def NodeImage.wf (g : NodeImage) : Bool := decide (g.bytes.length ≤ 262144) && decide (g.digest.length = 32)

/-- An upset names a code word of SRAM by its address (R25, R441). -/
def Upset.wf (u : Upset) : Bool := decide (0x1100000 ≤ u.addr ∧ u.addr < 0x2300000) && u.addr % 8 == 0

/-- A digest of SHA-384 has twelve words (R487); program words fit program memory (R209); there are at most 16 node images
(R488). -/
def Image.wf (i : Image) : Bool :=
  decide (i.digest.length = 12) && (i.prog.all fun p => decide (p.words.length ≤ 65536)) && decide (i.nodeImgs.length ≤ 16)
    && i.nodeImgs.all NodeImage.wf

/-- The command is one that the surroundings can send.
DEDUCED: log entry 50. DESIGN CHOICE: log entry 4. -/
def Instr.wellFormed (i : Instr) : Bool :=
  match i with
  | .aonPowerUp _ _ img => img.all Image.wf
  | .supplyWarningFall _ => true
  | .supplyResetFall _ => true
  | .supplyWarningRise _ _ _ => true
  | .brownoutTimeout => true
  | .holdupOpenTimeout => true
  | .holdupShed => true
  | .holdupStoreEmpty => true
  | .clockFault _ => true
  | .clockRecovered _ => true
  | .railFault _ => true
  | .pwrPdCtrlWrite master _ => isMaster master
  | .domainZeroiseDone _ => true
  | .distaffWatchdogExpiry => true
  | .distaffRestartDone => true
  | .distaffAbsentTimeout => true
  | .supervisorSummaryRead => true
  | .moduleResetTake img => img.all Image.wf
  | .sampleInstant => true
  | .uplinkLaunch => true
  | .senseDataWrite _ => true
  | .senseFreeze => true
  | .fastSectionStart => true
  | .estSectionStart => true
  | .sectionOverrun => true
  | .emitDeadline => true
  | .commandLaunch => true
  | .relayedCmdLaunch => true
  | .frameFreeze => true
  | .syncLaunch => true
  | .inputDigestReady => true
  | .outputDigestReady => true
  | .stateDigestReady => true
  | .setpointApply => true
  | .setpointExpiry => true
  | .bankSwap => true
  | .hystSample _ => true
  | .stopBroadcastStart _ => true
  | .stopBroadcastEnd => true
  | .swStop master => isMaster master
  | .swRelease master => isMaster master
  | .flyClrCnt master => isMaster master
  | .prechargeTimeout => true
  | .closePulseTimeout => true
  | .brkAuxChange _ _ => true
  | .brkAuxDiscrepancy => true
  | .uplinkTrainRx _ _ _ => true
  | .cmdTrainRx _ _ _ => true
  | .mgmtResponseRx _ _ => true
  | .turnNoticeRx _ _ => true
  | .portLockLoss _ => true
  | .portLockTimeout _ => true
  | .ringClose rt _ => rt.all fun r => isPosition r.1
  | .periodicAssign restarted => restarted.all isPosition
  | .nodeRejoinRelease pos load => isPosition pos && load.wf
  | .positionIsolated pos => isPosition pos
  | .rove master _ w => isMaster master && w.wf
  | .boot master _ load => isMaster master && load.wf
  | .launch master _ _ => isMaster master
  | .txEn master _ _ => isMaster master
  | .chxClrCnt master _ => isMaster master
  | .spnRun master => isMaster master
  | .spnStop master => isMaster master
  | .spnSelftest master => isMaster master
  | .laneSelftestEnd _ => true
  | .clrTrap master => isMaster master
  | .spnClrCnt master => isMaster master
  | .swap master => isMaster master
  | .cancel master => isMaster master
  | .copy master => isMaster master
  | .bankCopyDone => true
  | .add _ _ _ => true
  | .sub _ _ _ => true
  | .and _ _ _ => true
  | .or _ _ _ => true
  | .xor _ _ _ => true
  | .sll _ _ _ => true
  | .srl _ _ _ => true
  | .sra _ _ _ => true
  | .mul _ _ _ => true
  | .mulh _ _ _ => true
  | .slt _ _ _ => true
  | .sltu _ _ _ => true
  | .min _ _ _ => true
  | .max _ _ _ => true
  | .jalr _ _ => true
  | .rdsc _ => true
  | .rdtb _ => true
  | .secend => true
  | .nop => true
  | .addi _ _ _ => true
  | .andi _ _ _ => true
  | .ori _ _ _ => true
  | .xori _ _ _ => true
  | .lui _ _ => true
  | .slti _ _ _ => true
  | .shi _ _ _ _ => true
  | .beq _ _ _ => true
  | .bne _ _ _ => true
  | .blt _ _ _ => true
  | .bge _ _ _ => true
  | .jal _ _ => true
  | .loop _ _ => true
  | .waitcyc _ _ => true
  | .tsamp _ _ => true
  | .lds _ _ _ => true
  | .sts _ _ _ => true
  | .ldps _ _ _ => true
  | .vld _ _ _ _ => true
  | .vst _ _ _ _ => true
  | .vldp _ _ _ _ => true
  | .vldpx _ _ _ _ _ => true
  | .frld _ _ _ _ => true
  | .frls _ _ _ => true
  | .frlb _ _ _ => true
  | .vadd _ _ _ _ => true
  | .vsub _ _ _ _ => true
  | .vmul _ _ _ _ => true
  | .vmac _ _ _ _ => true
  | .vmsb _ _ _ _ => true
  | .vdiv _ _ _ _ => true
  | .vsqrt _ _ _ => true
  | .vabs _ _ _ => true
  | .vneg _ _ _ => true
  | .vmin _ _ _ _ => true
  | .vmax _ _ _ _ => true
  | .vmov _ _ _ => true
  | .vcvtif _ _ _ => true
  | .vcvtfi _ _ _ => true
  | .vscl _ _ _ _ => true
  | .vsin _ _ _ => true
  | .vcos _ _ _ => true
  | .vclmp _ _ _ _ => true
  | .vadds _ _ _ _ => true
  | .vsubs _ _ _ _ => true
  | .vmuls _ _ _ _ => true
  | .vmacs _ _ _ _ => true
  | .vmsbs _ _ _ _ => true
  | .vdivs _ _ _ _ => true
  | .vmins _ _ _ _ => true
  | .vmaxs _ _ _ _ => true
  | .iadd _ _ _ _ => true
  | .isub _ _ _ _ => true
  | .iand _ _ _ _ => true
  | .ior _ _ _ _ => true
  | .ixor _ _ _ _ => true
  | .ishl _ _ _ _ => true
  | .ishr _ _ _ _ => true
  | .isar _ _ _ _ => true
  | .imul _ _ _ _ => true
  | .imin _ _ _ _ => true
  | .imax _ _ _ _ => true
  | .ceq _ _ _ _ => true
  | .cne _ _ _ _ => true
  | .clt _ _ _ _ => true
  | .cle _ _ _ _ => true
  | .cgt _ _ _ _ => true
  | .cge _ _ _ _ => true
  | .hys _ _ _ _ => true
  | .ceqs _ _ _ _ => true
  | .cnes _ _ _ _ => true
  | .clts _ _ _ _ => true
  | .cles _ _ _ _ => true
  | .cgts _ _ _ _ => true
  | .cges _ _ _ _ => true
  | .mand _ _ _ => true
  | .mor _ _ _ => true
  | .mxor _ _ _ => true
  | .mandn _ _ _ => true
  | .mnot _ _ => true
  | .mpop _ _ => true
  | .mflg _ => true
  | .clrflg _ => true
  | .vsel _ _ _ _ => true
  | .mset _ _ => true
  | .mlane _ _ _ => true
  | .rank _ _ _ _ => true
  | .order _ _ _ _ => true
  | .redsum _ _ _ _ => true
  | .redmax _ _ _ _ => true
  | .redmin _ _ _ _ => true
  | .argmax _ _ _ _ => true
  | .argmin _ _ _ _ => true
  | .pfx _ _ _ _ => true
  | .bcast _ _ _ => true
  | .nbr _ _ _ => true
  | .gather _ _ _ _ => true
  | .psum _ _ _ _ => true
  | .pdot _ _ _ _ _ => true
  | .pbc _ _ _ => true
  | .pmov _ _ _ _ => true
  | .splf _ _ _ => true
  | .spli _ _ _ => true
  | .vins _ _ _ _ => true
  | .vext _ _ _ _ => true
  | .mxld _ _ => true
  | .mxst _ _ => true
  | .mxrow _ _ _ => true
  | .mxget _ _ _ => true
  | .mxmul _ _ _ _ => true
  | .mxmac _ _ _ _ => true
  | .mxmult _ _ _ _ => true
  | .mxr1 _ _ _ _ => true
  | .emit _ => true
  | .trim _ _ _ _ _ => true
  | .prof _ _ => true
  | .inj _ _ _ => true
  | .injMultisine _ _ _ => true
  | .skrec _ _ => true
  | .skw _ _ => true
  | .skrd _ _ => true
  | .commit master => isMaster master
  | .isoStart master => isMaster master
  | .isoMeasDone _ => true
  | .snsClrCnt master => isMaster master
  | .arm master => isMaster master
  | .abort master => isMaster master
  | .captureRecord => true
  | .owNow master => isMaster master
  | .owAbort master => isMaster master
  | .owSweepPeriod _ => true
  | .owWireTest _ => true
  | .owNodeTimeout => true
  | .requestWordPoll nacks => nacks.all isPosition
  | .quietModeWrite => true
  | .clrCause master => isMaster master
  | .protClrCnt master => isMaster master
  | .backstopCheck => true
  | .stringSummaryRead => true
  | .orderlyStopEscalate => true
  | .stopCurrentZero => true
  | .openRequestTimeout => true
  | .thermalDemandSend => true
  | .containerStatusRx => true
  | .containerStatusLoss => true
  | .moduleTempRead _ _ _ => true
  | .sensorRead vals => decide (vals.length ≤ 12)
  | .handover master => isMaster master
  | .resync master => isMaster master
  | .xlClrCnt master => isMaster master
  | .cycle _ _ _ _ => true
  | .cmdx _ _ _ => true
  | .digest _ _ _ _ => true
  | .slotx _ slots recs _ _ => slots.all SlotRx.wf && recs.all RecordRx.wf
  | .lease _ _ _ => true
  | .mirror _ item w _ => item.wf && w.wf
  | .ack _ _ _ => true
  | .notice _ _ => true
  | .snap offset _ poison _ => decide (offset < 0x100000) && poison.all (· < 128)
  | .store stores _ => stores.all fun e => decide (e.1.toNat < 0x80000)
  | .mirrorAckTimeout => true
  | .leaseExpiry => true
  | .xlinkDead => true
  | .xlinkDeadTimeout => true
  | .claimInChange _ => true
  | .claimRelease _ => true
  | .claimTake => true
  | .claimSettleEnd => true
  | .claimLapseTrip => true
  | .divergenceCheck => true
  | .resyncEndCycle => true
  | .resyncTimeout => true
  | .resyncRetry => true
  | .xlinkMarkEcho _ => true
  | .tbIncrNsWrite master _ => isMaster master
  | .tbAdjNsWrite master _ => isMaster master
  | .tbClrCnt master => isMaster master
  | .comparatorFire _ => true
  | .captureArm master _ _ => isMaster master
  | .captureEvent _ => true
  | .captureNsRead master _ => isMaster master
  | .latchingRead master addr => isMaster master && isAddress addr
  | .ppsInEdge => true
  | .ptpSyncRx _ => true
  | .ptpDelayReqSend _ => true
  | .ptpDelayRespRx _ _ _ => true
  | .ptpAnnounceRx _ => true
  | .ptpTcForward _ _ => true
  | .syncHoldover => true
  | .holdoverMaxExpiry => true
  | .dtlsHandshake _ _ => true
  | .sessionClose s => isSession s
  | .closeNotify s => isSession s
  | .sessionIdleTimeout s => isSession s
  | .ethSessCloseWrite master _ => isMaster master
  | .request s _ _ _ => isSession s
  | .keepalive s => isSession s
  | .telegram s _ => isSession s
  | .eventNotify s => ringSession s
  | .streamRecord _ _ => true
  | .streamCfgWrite master _ _ => isMaster master
  | .arpRequestRx _ _ _ => true
  | .icmpEchoRx _ _ => true
  | .linkUp _ => true
  | .linkDown _ => true
  | .hsrFrameRx _ _ => true
  | .hsrSupervisionSend => true
  | .babbleWindow _ => true
  | .sfpPowerFault _ => true
  | .sfpModuleChange _ _ => true
  | .ethClrCnt master => isMaster master
  | .lockRead master addr => isMaster master && isAddress addr
  | .lockRelease master addr => isMaster master && isAddress addr
  | .go master _ _ _ => isMaster master
  | .mailboxTimeout _ => true
  | .mailboxTimeoutLadder => true
  | .echo _ => true
  | .sessionInfo _ => true
  | .runStart _ w => w.wf
  | .settleCountEnd => true
  | .runStop _ => true
  | .stopClear _ => true
  | .funcReinit r _ => r.wf
  | .reinitDone => true
  | .moduleReset r => r.wf
  | .powerCycle r => r.wf
  | .powerCycleFail => true
  | .resetGuard => true
  | .pwrClrCnt master => isMaster master
  | .logMark _ => true
  | .start master _ => isMaster master
  | .opAbort master _ => isMaster master
  | .opAckWrite master _ _ => isMaster master
  | .operationEnd _ => true
  | .nodeRead _ resp => resp.all MgmtResp.wf
  | .nodeWrite _ resp => resp.all MgmtResp.wf
  | .wireCal _ recs => recs.all WireRec.wf
  | .logRead _ => true
  | .progStore _ _ => true
  | .progLoad _ => true
  | .calRead _ => true
  | .calWrite _ _ => true
  | .configSave _ _ => true
  | .selftest _ results => decide (results.length ≤ 8)
  | .updateOpen _ => true
  | .updateWrite _ _ => true
  | .updateVerify _ _ => true
  | .updateActivate _ => true
  | .updateConfirm _ => true
  | .updateClose _ => true
  | .lifecycleSet _ => true
  | .updateLockTimeout => true
  | .confirmWindowExpiry => true
  | .logArchive => true
  | .safKeyWrite master _ => isMaster master
  | .keySequenceTimeout => true
  | .resetArmExpiry => true
  | .doorInputChange _ _ => true
  | .estopInputChange _ _ => true
  | .inputDiscrepancy _ => true
  | .crossShort _ => true
  | .faultLoopOpen => true
  | .hvilOpen => true
  | .loopSupplyFault => true
  | .coilRailFault => true
  | .channelExchange => true
  | .channelLinkLoss _ => true
  | .channelBBrkTripRelease => true
  | .outputTestPulse _ _ _ => true
  | .sourceOffPulse _ => true
  | .tripRelease => true
  | .telegramCopyRx _ _ => true
  | .telegramConfirmWindow => true
  | .telegramPathLoss _ => true
  | .tripConfirmTimeout => true
  | .canFrameRx _ f _ => f.wf
  | .canFrameTxDone _ _ _ _ => true
  | .canClashLoss _ _ _ => true
  | .canFixedResume _ => true
  | .canError _ _ _ _ _ _ => true
  | .recover master _ => isMaster master
  | .canRecoveryEnd _ => true
  | .canBusoffTimeout _ => true
  | .canClrCnt master _ => isMaster master
  | .mbCommit master _ _ => isMaster master
  | .mbAbort master _ _ => isMaster master
  | .clrFull master _ _ => isMaster master
  | .pop master _ => isMaster master
  | .carderRead _ _ us => us.all Upset.wf
  | .programRepair => true
  | .lineRemap inst _ => isInstance inst
  | .memClrCnt master => isMaster master
  | .memRemapWrite master i _ _ => isMaster master && isInstance i
  | .tapUpdateIr _ _ => true
  | .tapLeaveExtest => true
  | .registerWrite master addr _ => isMaster master && isAddress addr
  | .clockGoodAgain _ => true
  | .portRelock _ => true
  | .hvilClose _ _ => true
  | .faultLoopClose _ _ => true
  | .loopSupplyRecovery => true
  | .coilRailRecovery => true
  | .bankCrcDone => true
  | .canBusJoin _ => true
  | .operatingHour => true
  | .powerCyclePulseEnd => true

end Sys2Proof
end

