-- ==== Sys2Proof/Tests/Slice0.lean ====
section
/-!
SUPPORT. The model's own tests: ill-formed commands that the check refuses, values worked out by hand from the spec's rules and
examples, and for every statement with hypotheses concrete states and operands that meet them, clause by clause.
-/

open Sys2Proof Sys2Proof.Machine

namespace Sys2Proof.Tests

-- One theorem at a time: each worker of the checker keeps a stack of its own.
set_option Elab.async false

/-! ## States -/

/-- A module in the field, booted, every domain on and every clock good. -/
def base : Mach :=
  ({ Mach.reset with lifeCycle := .field
                     power := { PowerState.init with powered := true, bootDone := true, distaffAbsent := false } }.wr
    Reg.PWR_PD_STAT 0xAAAAA).wr Reg.PWR_CI_STAT 0xFFF

/-- A program of 100 words whose fast section is in progress. -/
def fast : Mach := ((base.set F.SPN_STAT_state 2).set F.SPN_STAT_section 1).set F.SPN_PROG_LEN_len 100

/-- The same with determinism not enforced. -/
def loose : Mach := fast.off F.SPN_CTRL_det_enforce

/-- The same in the estimation section. -/
def est : Mach := fast.set F.SPN_STAT_section 3

/-- Cycles run, with two nodes on port A. -/
def cycles : Mach := (base.on F.FLY_CTRL_cyc_en).set (F.CH_CFG_nodes 0) 2

/-- A run state. -/
def inRun (m : Mach) (r : RunState) : Mach := { m with runState := r }

/-- A role in a formed pair. -/
def inRole (m : Mach) (r : Role) : Mach := { m with role := r, pair := { m.pair with formed := true } }

/-- A node as a walk reads it, a walk that finds nothing, and one that finds two nodes. -/
def node : NodeId := ⟨some 100, some 60, 20, 12, 6, 0x1234, 1, 100, 1, 1, 5, 1, 1, 20⟩
def noWalk : WalkResult := ⟨true, 0, 0, false, 0, 0, [], ⟨[], []⟩⟩
def found : WalkResult := ⟨true, 2, 0, false, 2, 76, [node, node], ⟨[], []⟩⟩
/-- A firmware image with an image for those nodes. -/
def firmware : Image := ⟨.firmware, true, true, ⟨true, true, true⟩, 1, 1, List.replicate 12 0, 0, none, List.replicate 16 0,
  [⟨0x1234, 1, [0], List.replicate 32 0⟩], none⟩

/-! ## Ill-formed commands -/

theorem test_master_range : (Instr.swStop 9).wellFormed = false := by decide +kernel
theorem test_master_zero : (Instr.go 0 0 0 0).wellFormed = false := by decide +kernel
theorem test_session_range : (Instr.keepalive 9).wellFormed = false := by decide +kernel
theorem test_ring_session : (Instr.eventNotify 13).wellFormed = false := by decide +kernel
theorem test_position_range : (Instr.positionIsolated 128).wellFormed = false := by decide +kernel
theorem test_instance_range : (Instr.lineRemap 48 0).wellFormed = false := by decide +kernel
theorem test_remap_instance : (Instr.memRemapWrite 15 48 0 0).wellFormed = false := by decide +kernel
theorem test_address_range : (Instr.registerWrite 1 0x100000000 0).wellFormed = false := by decide +kernel
theorem test_block_register : (Instr.mirror 0 (.flyBlock 4 0 0) noWalk false).wellFormed = false := by decide +kernel
theorem test_bank_offset : (Instr.mirror 0 (.bankWrite 0x10000 0) noWalk false).wellFormed = false := by
  decide +kernel
theorem test_ladder_mailbox : (Instr.moduleReset (.mailbox 16)).wellFormed = false := by decide +kernel
theorem test_frame_length : (Instr.canFrameRx 0 ⟨0, 0, List.replicate 17 0⟩ 0).wellFormed = false := by decide +kernel
theorem test_slot_position : (Instr.slotx 0 [⟨128, 0⟩] [] true false).wellFormed = false := by decide +kernel
theorem test_record_words : (Instr.slotx 0 [] [⟨0, [0]⟩] true false).wellFormed = false := by decide +kernel
theorem test_wire_cells : (Instr.wireCal 0 [⟨0, true, 7, [], [], [], 0⟩]).wellFormed = false := by decide +kernel
theorem test_response_data : (Instr.nodeRead 0 (some ⟨0, 0, 0, List.replicate 65 0⟩)).wellFormed = false := by decide +kernel
theorem test_poll_positions : (Instr.requestWordPoll [128]).wellFormed = false := by decide +kernel
theorem test_ring_positions : (Instr.ringClose [(128, 0, 0)] true).wellFormed = false := by decide +kernel
theorem test_sensor_count : (Instr.sensorRead (List.replicate 13 none)).wellFormed = false := by decide +kernel
theorem test_selftest_count : (Instr.selftest 0 (List.replicate 9 ⟨true, false, 0, 0, 0⟩)).wellFormed = false := by decide +kernel
theorem test_store_offset : (Instr.store [(0x80000, 0)] false).wellFormed = false := by decide +kernel
theorem test_snap_offset : (Instr.snap 0x100000 [] [] false).wellFormed = false := by decide +kernel
theorem test_snap_poison : (Instr.snap 0 [] [128] false).wellFormed = false := by decide +kernel
theorem test_upset_address : (Instr.carderRead .ce 0 [⟨0x1100004, false, 0⟩]).wellFormed = false := by decide +kernel
theorem test_restarted : (Instr.periodicAssign [128]).wellFormed = false := by decide +kernel
theorem test_rejoin_load : (Instr.nodeRejoinRelease 0 ⟨[[(128, 0)]], []⟩).wellFormed = false := by decide +kernel
theorem test_walk_nodes : (Instr.runStart 0 { noWalk with nodes := List.replicate 129 node }).wellFormed = false := by decide +kernel
theorem test_image_digest : (Instr.moduleResetTake (some { firmware with digest := [] })).wellFormed = false := by decide +kernel
theorem test_node_image :
    (Instr.aonPowerUp 0 1 (some { firmware with nodeImgs := [⟨0, 0, [], []⟩] })).wellFormed = false := by decide +kernel
theorem test_request_session : (Instr.request 9 [] true false).wellFormed = false := by decide +kernel
theorem test_well_formed_add : (Instr.add 1 2 3).wellFormed = true := by decide +kernel

/-! ## Witnesses: Relud -/

theorem witness_scalar_issue : ∀ l ∈ [1, 2, 3, 4, 5, 6, 8, 10, 12, 14, 24, 48],
    fast.issues (.mk1 [resS 31, resS 0, resM 7, resV 31, resX 3] [resS 31] l) = true := by decide +kernel
theorem witness_long_issue : ∀ i ∈ [Imm.short 0xFFFF, .long 0xFFFFFFFF], ∀ l ∈ [0, 1, 3],
    fast.issues ⟨[resS 31, resS 0], [resS 31], l, immSize i, 0, 0⟩ = true := by decide +kernel
theorem witness_branches :
    decide ((fast.setS 1 5).sreg 1 = fast.sreg 0) = false ∧ decide (fast.sreg 1 = fast.sreg 0) = true
    ∧ ∀ l ∈ [(⟨0, 99, 2⟩ : LoopLevel), ⟨0, 0, 2⟩],
        { fast with spin := { fast.spin with loops := [l] } }.issues ⟨[resS 1, resS 0], [], 0, 1, 0, 0⟩ = true := by decide +kernel
theorem witness_loop : fast.issues (.mk1 [resS 1] [] 1) = true ∧ (1 : BitVec 16) ≠ 0 ∧ fast.spin.loops.length < 4
    ∧ (fast.setS 1 3).sreg 1 ≠ 0 ∧ fast.sreg 1 = 0 ∧ ∀ l ∈ fast.spin.loops.head?, l.stop ≠ fast.spin.pc := by
  decide +kernel
theorem witness_waitcyc :
    fast.issues ⟨[resS 1], [], 1, immSize (.short 1599), (fast.sreg 1 + immSigned (.short 1599)).toNat, 0⟩ = true := by
  decide +kernel
theorem witness_secend : fast.issues (.mk1 (fast.spin.ready.map (·.1)) [] 0) = true ∧ fast.spin.stopPend = false
    ∧ fast.inFast = true ∧ fast.memi.upsets = [] ∧ est.issues (.mk1 (est.spin.ready.map (·.1)) [] 0) = true ∧ est.inFast = false := by decide +kernel
theorem witness_time_reads : loose.flag F.SPN_CTRL_det_enforce = false ∧ loose.issues (.mk1 [] [resS 1] 4) = true
    ∧ loose.issues ⟨[], [resS 1], 4, 1, loose.readable false true, 0⟩ = true
    ∧ loose.poisoned (frameAddr loose.cycle + 0x10) = false
    ∧ loose.upsetsIn (frameAddr loose.cycle + 0x10) 4 = [] := by decide +kernel
theorem witness_scalar_memory : scalarAddr (fast.sreg 1 + immSigned (.long 0xFFFFC)) < 0x100000
    ∧ fast.laneOn (scalarAddr (fast.sreg 1 + immSigned (.long 0xFFFFC)) / 0x2000) = true
    ∧ (fast.set (pdField .spin1) 0).laneOn (scalarAddr (fast.sreg 1 + immSigned (.long 0xFFFFC)) / 0x2000) = false
    ∧ fast.poisoned (laneMemBase + scalarAddr (fast.sreg 1 + immSigned (.long 0xFFFFC))) = false
    ∧ scalarAddr (fast.sreg 1 + immSigned (.long 0xFFFC)) < 0x10000
    ∧ fast.anyPoison (fast.bankBase + scalarAddr (fast.sreg 1 + immSigned (.long 0xFFFC))) 4 = false
    ∧ fast.upsetsIn (laneMemBase + scalarAddr (fast.sreg 1 + immSigned (.long 0xFFFFC))) 4 = []
    ∧ fast.upsetsIn (fast.bankBase + scalarAddr (fast.sreg 1 + immSigned (.long 0xFFFC))) 4 = []
    ∧ fast.pair.resync = none := by decide +kernel
/-- The last word of lane memory is poisoned. -/
def tainted : Mach := { fast with memi := { fast.memi with poison := [laneMemBase + 0xFFFF8] } }
theorem witness_poisoned_load : tainted.issues ⟨[resS 1], [resS 2], 3, 2, 0, 0⟩ = true
    ∧ tainted.poisoned (laneMemBase + scalarAddr (tainted.sreg 1 + immSigned (.long 0xFFFFC))) = true
    ∧ tainted.laneOn (scalarAddr (tainted.sreg 1 + immSigned (.long 0xFFFFC)) / 0x2000) = true ∧ tainted.memi.upsets = [] := by
  decide +kernel
theorem witness_vector_memory : fast.memi.clean = true
    ∧ vectorAddr ((fast.setS 1 0x1FE0).sreg 1 + 32 * (0 : BitVec 8).setWidth 32) + 32 ≤ 0x2000
    ∧ vectorAddr ((fast.setS 1 0xFFE0).sreg 1 + 32 * (0 : BitVec 8).setWidth 32) + 32 ≤ 0x10000
    ∧ ((fast.setS 2 0x1E0).sreg 2).toNat % 32 = 0
    ∧ vectorAddr (fast.sreg 1 + 32 * (0 : BitVec 8).setWidth 32) + 127 * ((fast.setS 2 0x1E0).sreg 2).toNat + 32 ≤ 0x10000 := by
  decide +kernel
theorem witness_frame_loads : (∀ prev ∈ [true, false], loose.frameEarly prev false = false ∧
      loose.issues ⟨[resM 1], [resV 1], 6, 1, loose.readable prev false, 0⟩ = true ∧
      ∀ o ∈ [(0 : BitVec 13), 0x7C, 0x80, 0x11FC], o.toNat < 0x1200 ∧ loose.frameEarly prev (decide (o.toNat < 0x80)) = false
        ∧ loose.issues ⟨[], [resS 1], 4, 1, loose.readable prev (decide (o.toNat < 0x80)), 0⟩ = true
        ∧ loose.issues ⟨[], [resV 1], 5, 1, loose.readable prev (decide (o.toNat < 0x80)), 0⟩ = true) := by decide +kernel
/-- Lanes and rows at the largest value, with the overflow trap on. -/
def loud : Mach :=
  { fast.on F.SPN_CTRL_ovf_trap with
    spin := { fast.spin with v := fast.spin.v.set 1 (Vector.replicate 128 ⟨Vector.replicate 8 0x7FFFFF, 127⟩)
                             mx := fast.spin.mx.set 1 (Vector.replicate 128 (Vector.replicate 8
                               ⟨Vector.replicate 8 0x7FFFFF, 127⟩)) } }
theorem witness_no_overflow_trap : fast.flag F.SPN_CTRL_ovf_trap = false ∧ fast.get F.SPN_TRAP_cause = 0 := by decide +kernel
theorem witness_overflow_trap : loud.issues (.mk1 [resV 1, resV 1, resM 0] [resV 2] 3) = true
    ∧ loud.flag F.SPN_CTRL_ovf_trap = true ∧ loud.laneOn 5 = true ∧ loud.get F.SPN_TRAP_cause = 0
    ∧ (writeArith (loud.mreg 0 5) (loud.vreg 2 5) fun j =>
        (((loud.vreg 1 5).val j).add ((loud.vreg 1 5).val j), LaneFlags.none)).2.ovf = true := by decide +kernel
theorem witness_overflow_trap_rows : loud.issues (.mk1 [resV 1, resV 1, resM 0, resX 1] [resX 1] 10) = true
    ∧ (normalise ((List.range 8).map fun j => ((rowOf (loud.mxreg 1 5) 0).val j).add
        (((loud.vreg 1 5).val 0).mul ((loud.vreg 1 5).val j)))).2.ovf = true := by decide +kernel
theorem witness_hysteresis_register : fast.issues (.mk1 [resV 1, resV 30, resV (30 + 1), resM 1] [resM 2] 2) = true
    ∧ (30 : VReg) ≠ 31 := by decide +kernel
theorem witness_matrix_memory : vectorAddr ((fast.setS 1 0x1F00).sreg 1) + 256 ≤ 0x2000 := by decide +kernel
theorem witness_emit : fast.inFast = true ∧ fast.spin.emitted = false ∧ fast.spin.trim = none
    ∧ fast.issues (.mk1 [resV 1] [] 2) = true
    ∧ { fast with spin := { fast.spin with trim := some ⟨true, true, 1, 2, 3⟩ } }.issues (.mk1 [resV 1] [] 2) = true := by decide +kernel
theorem witness_inj : fast.issues (.mk1 [resS 1, resS 2] [resV 3] 24) = true ∧ scalarAddr (fast.sreg 1) + 28 ≤ 0x10000
    ∧ scalarAddr (fast.sreg 1) + 108 ≤ 0x10000 := by decide +kernel
/-- The bank in force names eight tones. -/
def tones : Mach := { fast with mem := [(bankABase + 3, 8)] }
theorem witness_multisine : 1 ≤ fieldOf (tones.bankWord (scalarAddr (tones.sreg 1))) 0 4
    ∧ fieldOf (tones.bankWord (scalarAddr (tones.sreg 1))) 0 4 ≤ 8 ∧ tones.memi.clean = true := by decide +kernel
theorem witness_skein : fast.poisoned (freeArea + (fast.sreg 1).toNat % 0x40000 / 4 * 4) = false
    ∧ fast.upsetsIn (freeArea + (fast.sreg 1).toNat % 0x40000 / 4 * 4) 4 = []
    ∧ loose.flag F.SPN_CTRL_det_enforce = false := by decide +kernel
theorem witness_traps : fast.get F.SPN_TRAP_cause = 0 ∧ fast.memi.upsets = []
    ∧ (fast.on F.SPN_CTRL_det_enforce).flag F.SPN_CTRL_det_enforce = true
    ∧ (fast.on F.SPN_CTRL_det_enforce).issues (.mk1 [] [resS 1] 4) = true
    ∧ 0x100000 ≤ scalarAddr (fast.sreg 1 + immSigned (.long 0x100000))
    ∧ 0x10000 ≤ scalarAddr (fast.sreg 1 + immSigned (.long 0x10000))
    ∧ fast.issues (.mk1 [resV 1, resV 31, resV (31 + 1), resM 1] [resM 2] 2) = true
    ∧ { fast.spin with loops := List.replicate 4 ⟨0, 99, 2⟩ }.loops.length = 4
    ∧ { fast with spin := { fast.spin with loops := List.replicate 4 ⟨0, 99, 2⟩ } }.issues (.mk1 [resS 1] [] 1) = true
    ∧ { fast with spin := { fast.spin with emitted := true } }.issues (.mk1 [resV 1] [] 2) = true := by decide +kernel
theorem witness_no_section : base.inSection = false := by decide +kernel

/-! ## Witnesses: supply, boot, ladder -/

/-- Supply states entered at the instant of reset. -/
def warned : Mach := { base with supply := .brownoutWarning }.mark .supply
def held : Mach := { base with supply := .holdup }.mark .supply
theorem witness_supply : base.supply = .normal ∧ (1919 : BitVec 16).toNat < 1920 ∧ 1920 ≤ (1920 : BitVec 16).toNat
    ∧ (1669 : BitVec 16).toNat < 1670 ∧ 1930 ≤ (1930 : BitVec 16).toNat
    ∧ warned.supply = .brownoutWarning ∧ warned.markOf .supply = some 0 ∧ (inRun base .run).runState.busy = true
    ∧ base.runState.busy = false := by decide +kernel
theorem witness_holdup : (inRun held .stopping).supply = .holdup ∧ (inRun held .stopping).markOf .supply = some 0
    ∧ held.power.distaffAbsent = false ∧ held.power.shed = [] ∧ held.power.safeMode = false
    ∧ { held.power with shed := [.xlink] }.shed = [.xlink] := by decide +kernel
/-- A domain that zeroises and one with a rail fault. -/
def domains : Mach := (base.set (pdField .xlink) 1).set (pdField .svc) 3
/-- The breaker reports closed. -/
def closed (m : Mach) : Mach := (m.on F.SAF_INPUT_brk_aux_a).on F.SAF_INPUT_brk_aux_b
theorem witness_domains : base.reachable Reg.PWR_PD_CTRL = true ∧ (base.dropped 0x3FF).all (base.mayDrop 1) = true
    ∧ ((inRun (base.wr Reg.PWR_PD_CTRL 0x3FF) .run).dropped 0).all ((inRun (base.wr Reg.PWR_PD_CTRL 0x3FF) .run).mayDrop 1) = false
    ∧ base.power.safeMode = false ∧ domains.get (pdField .xlink) = 1 ∧ (closed base).energised = true
    ∧ ∀ j, cycleIsland j = true → j ≠ .mgmt → base.clkOk j = true := by
  refine ⟨by decide +kernel, by decide +kernel, by decide +kernel, by decide +kernel, by decide +kernel, by decide +kernel,
    fun j _ _ => ?_⟩
  cases j <;> decide +kernel
/-- A change of the power state. -/
def powered (m : Mach) (f : PowerState → PowerState) : Mach := { m with power := f m.power }
/-- No image in the store. -/
def bare : Mach := powered base ({ · with resetPend := some 2 })
theorem witness_boot : State.reset.mach.power.powered = false ∧ State.reset.mach.boots firmware ∧ State.reset.mach.bootless none
    ∧ bare.power.resetPend = some 2 ∧ bare.boots firmware ∧ bare.bootless none
    ∧ (1929 : BitVec 16).toNat < 1930 ∧ 1930 ≤ (1930 : BitVec 16).toNat
    ∧ { firmware with safety := [0, 5, 2, 50, 10, 100, 600, 0, 0, 0, 0, 0, 0, 0, 0, 0] }.safety.length = 16
    ∧ paramInRange [0, 5, 2, 50, 10, 100, 600, 0, 0, 0, 0, 0, 0, 0, 0, 0] = true := by
  refine ⟨by decide +kernel, ⟨by decide, rfl, rfl, rfl, rfl, by decide +kernel, by decide +kernel, by decide +kernel, by decide +kernel⟩,
    ⟨by decide, by decide +kernel, by decide +kernel⟩, by decide +kernel,
    ⟨by decide, rfl, rfl, rfl, rfl, by decide +kernel, by decide +kernel, by decide +kernel, by decide +kernel⟩,
    ⟨by decide, by decide +kernel, by decide +kernel⟩, by decide, by decide, by decide, by decide +kernel⟩
theorem witness_ladder : base.reachable Reg.PWR_RESET_CTRL = true ∧ ladderMaster 1 = true ∧ ladderMaster 15 = true
    ∧ funcOf 6 = some .sense ∧ (∀ f ∈ [ReFunc.sense, .spindle, .chainA, .chainB, .xlink, .can0, .mbx],
      base.reinitError f = none) ∧ (∀ f ∈ [ReFunc.host, .can1],
      ((base.off F.SAF_TEL_STAT_can_lost).off F.SAF_TEL_STAT_eth_lost).reinitError f = none)
    ∧ base.resetError = none ∧ base.flag F.PWR_LADDER_STAT_busy = false ∧ base.energised = false ∧ base.extest = false
    ∧ base.supply ≠ .holdup ∧ (powered base ({ · with pwrCycleReq := true })).power.pwrCycleReq = true
    ∧ base.power.restartWait = false ∧ base.get F.PWR_LADDER_STAT_auto_resets = 0 ∧ base.power.autoAt = []
    ∧ (∀ i ∈ [Island.spin, .cha, .chb, .sense, .eth0, .eth1, .xlink], base.clkOk i = true) := by decide +kernel
theorem witness_ladder_automatic : base.pair.handoverAt = none
    ∧ (powered base ({ · with guard := some (.moduleReset 1 1) })).power.guard = some (.moduleReset 1 1)
    ∧ (powered base ({ · with action := some (.reinit .sense 1) })).power.action = some (.reinit .sense 1)
    ∧ (∀ p ∈ [Port.a, .b], base.flag (F.CH_LINK_STAT_rx_lock (portIx p)) = false) ∧ base.power.portRetried = []
    ∧ (∀ x, x < 2 → (base.set (F.CAN_STAT_state x) 2).get (F.CAN_STAT_state x) = 2)
    ∧ base.flag F.XL_STAT_link_ok = false
    ∧ (powered base ({ · with distaffAbsent := true })).power.distaffAbsent = true ∧ base.power.restarts = []
    ∧ (base.mark (.clock .spin)).markOf (.clock .spin) = some 0
    ∧ 3 ≤ ([0, 0, 0].filter fun t => decide (base.upNs - t ≤ 60000000000)).length := by decide +kernel

/-! ## Witnesses: the safety island -/

/-- Every channel of the contact inputs is on. -/
def inputs (m : Mach) : Mach :=
  (((m.on (inputField .door .a)).on (inputField .door .b)).on (inputField .estop .a)).on (inputField .estop .b)
/-- A change of the safety state. -/
def safe (f : SafetyState → SafetyState) : Mach := { base with safety := f base.safety }
/-- The switches of BRK_TRIP are on. -/
def tripOn : Mach := (base.on F.SAF_STAT_trip_ls).on F.SAF_STAT_trip_hs
theorem witness_safety_demands : base.safety.conds = [] ∧ base.safety.latched = [] ∧ base.loopHeld = false
    ∧ (∀ i ∈ [ContactInput.door, .estop],
        ((inputs base).off (inputField i .a)).flag (inputField i .a)
          ≠ ((inputs base).off (inputField i .a)).flag (inputField i .b))
    ∧ (∀ c ∈ [Channel.a, .b], tripOn.tripSwitch c = true) := by decide +kernel
theorem witness_safety_recovery : (∀ i ∈ [ContactInput.door, .estop], ∀ c ∈ [Channel.a, .b],
      (inputs base).flag (inputField i (otherChannel c)) = true ∧ base.safety.retest i = none)
    ∧ (base.on F.SAF_STAT_loop_supply_ok).flag F.SAF_STAT_loop_supply_ok = true ∧ base.extest = false ∧ base.loopHeld = false
    ∧ 50 ≤ (50 : Byte).toNat ∧ (49 : Byte).toNat < 50
    ∧ 2000 ≤ (base.set F.PWR_SUP_STAT_aux_v 2000).get F.PWR_SUP_STAT_aux_v
    ∧ (safe ({ · with aloneB := true })).safety.aloneB = true
    ∧ { tripOn with safety := { tripOn.safety with conds := [.floop] } }.safety.conds ≠ []
    ∧ ((Channel.a = .a) ↔ base.safety.pulse ≠ some .a)
    ∧ ((Channel.b = .a) ↔ (safe ({ · with pulse := some .a })).safety.pulse ≠ some .a)
    ∧ (safe ({ · with tripRule := some 0 })).safety.tripRule = some 0 ∧ base.tripHeld = false ∧ base.safety.quietNs = none
    ∧ (safe ({ · with quietNs := some 7 })).safety.quietNs = some 7 := by decide +kernel
/-- A parameter set within its ranges. -/
def params : List Word := [0, 5, 2, 50, 10, 100, 600, 0, 0, 0, 0, 0, 0, 0, 0, 0]
/-- The set written, with the first key of its sequence. -/
def written : Mach := (List.range 16).foldl (fun m n => m.wr (Reg.SAF_PARAM n) (params.getD n 0))
  (safe ({ · with key := some (15, 0x00009A7E, 0) }))
theorem witness_keys : base.reachable Reg.SAF_KEY = true ∧ base.safety.key = none
    ∧ (safe ({ · with key := some (1, 0x0000A5C3, 0) })).safety.key = some (1, 0x0000A5C3, 0)
    ∧ base.upNs ≤ 1000000 ∧ written.paramTime = true ∧ paramInRange written.paramWords = true
    ∧ written.safety.key = some (15, 0x00009A7E, 0)
    ∧ 1000000 < { base with time := { base.time with up := 1000001 } }.upNs
    ∧ (safe ({ · with armedNs := some 0 })).safety.armedNs = some 0 := by decide +kernel
/-- A telegram with a sequence and flags. -/
def telegram (seq : Word) (flags : Byte) : List Byte :=
  let b := wordBytes seq ++ wordBytes 0 ++ wordBytes 0 ++ [0x51, 0, 0, 5, 0, flags] ++ List.replicate 10 0
  b ++ wordBytes (safetyCrc b)
/-- Parameters in force and a synchronised time base. -/
def listening : Mach := (safe ({ · with paramForce := params })).on F.TB_STAT_synced
/-- A first copy waits. -/
def waiting : Mach := { listening with
  safety := { listening.safety with tel := { listening.safety.tel with firsts := [⟨7, .eth, telegram 7 1, 0⟩] } } }
/-- A copy has been accepted on the first path, and a telegram is confirmed. -/
def seen : Mach := { listening with
  safety := { listening.safety with tel := { listening.safety.tel with seen := [(.eth, 7)], confirmed := true, lastOk := some 900 } } }
theorem witness_telegrams : listening.telFormOk (telegram 7 1) = true ∧ listening.telFormOk (telegram 7 3) = true
    ∧ listening.telFormOk [] = false ∧ telWord (telegram 7 1) 0 = 7 ∧ (∀ p ∈ [TelPath.eth, .can1],
      listening.safety.tel.has p 7 = false ∧ listening.telLate p 7 = none) ∧ listening.telSeqOk 7 = true
    ∧ seen.safety.tel.has .eth 7 = true ∧ seen.telFormOk (telegram 7 1) = true
    ∧ seen.safety.tel.has .can1 7 = false ∧ seen.telLate .can1 7 = none ∧ seen.telSeqOk 7 = false
    ∧ telFlag (telegram 7 3) 1 = true ∧ telFlag (telegram 7 1) 1 = false ∧ telFlag (telegram 7 1) 0 = true
    ∧ telFlag (telegram 7 0) 0 = false ∧ listening.safety.conds = []
    ∧ waiting.safety.tel.firsts.find? (·.seq == 7) = some ⟨7, .eth, telegram 7 1, 0⟩
    ∧ (telegram 7 1).take 28 ≠ (telegram 7 3).take 28 := by decide +kernel
theorem witness_telegram_loss : base.flag F.SAF_TEL_STAT_can_lost = true
    ∧ (base.off F.SAF_TEL_STAT_eth_lost).flag F.SAF_TEL_STAT_eth_lost = false ∧ base.safety.tel.confirmed = false
    ∧ seen.safety.tel.confirmed = true ∧ seen.safety.tel.okNs + 20000000 ≤ { seen with time := { seen.time with up := 20000000 } }.upNs
    ∧ { base.safety.tel with pending := some (.telTrip, 6) }.pending.isSome = true
    ∧ ((base.mark .trip).markOf .trip = some 0 ∧ (base.mark (.path .eth)).markOf (.path .eth) = some 0) := by decide +kernel

/-! ## Witnesses: protection, the breaker, the cycle -/

/-- The stop request of the string summary. -/
def summary (w : Word) (m : Mach) : Mach := (powered m ({ · with estSeen := true })).storeWords (laneAddr 0 0x1498) [w]
/-- Node 1 has had three bad records. -/
def badRun : Mach := { cycles with sense := { cycles.sense with backRun := cycles.sense.backRun.set 1 3 } }
theorem witness_protection : (inRun (powered base ({ · with stopNs := some 0 })) .stopping).power.stopNs = some 0
    ∧ ((inRun (powered base ({ · with openReq := true })) .stopping).mark .openReq).markOf .openReq = some 0
    ∧ base.supply ≠ .holdup ∧ (closed (inRun base .stopping)).flag F.SAF_INPUT_brk_aux_a = true
    ∧ (inRun base .stopping).flag F.SAF_INPUT_brk_aux_a = false ∧ (inRun base .stopping).flag F.SAF_INPUT_brk_aux_b = false
    ∧ (summary 0x100 (inRun base .run)).summaryThere = true ∧ intForm ((summary 0x100 base).summary 6) = 1
    ∧ (summary 0x100 (powered base ({ · with distaffAbsent := true }))).power.distaffAbsent = true
    ∧ (summary 0x100 (powered base ({ · with distaffAbsent := true }))).summaryThere = true
    ∧ base.role ≠ .standby ∧ intForm ((summary 0x200 base).summary 6) = 2 ∧ base.prog.stopReq ≠ 2 ∧ base.safety.latched = []
    ∧ badRun.cyclesOn = true ∧ (∀ d ∈ [Domain.frame, .sense], badRun.domOn d = true)
    ∧ base.reachable Reg.SNS_PROT_CTRL = true := by decide +kernel
theorem witness_backstop : (badRun.each (badRun.backstopCycles.filter fun c => readMemWord badRun.mem (frameAddr c) == c)
    Mach.backstopFrame).sense.backRun.toList.any (3 ≤ ·) = true := by decide +kernel
theorem witness_module_trip : 850 ≤ baseplate (some 851) none 0 ∧ (850 ≤ baseplate none none 1250 ∨ (1250 : Int) ≤ 1250) := by
  decide +kernel
theorem witness_thermal : (base.on F.SNS_PROT_CTRL_can_dem_en).flag F.SNS_PROT_CTRL_can_dem_en = true
    ∧ base.domOn .sense = true ∧ base.domOn .can = true ∧ (base.mark .demand).markOf .demand = some 0
    ∧ (base.mark .container).markOf .container = some 0 := by decide +kernel
/-- A precharge phase. -/
def pre (n : Nat) : Mach := (inRun base .precharge).set F.FLY_PRE_STAT_pre_state n
/-- The close coil is on. -/
def closing (c : Option Nat) (m : Mach) : Mach :=
  { powered m ({ · with afterClose := c }) with safety := { m.safety with closeOn := true, closeNs := some 0 } }
theorem witness_breaker : (pre 1).get F.FLY_PRE_STAT_pre_state = 1 ∧ (pre 3).get F.FLY_PRE_STAT_pre_state = 3
    ∧ (closed (pre 2)).get F.FLY_PRE_STAT_pre_state = 2 ∧ (closed (pre 2)).brkClosed = true
    ∧ ((pre 1).mark .precharge).markOf .precharge = some 0
    ∧ (closing none (pre 3)).safety.closeNs = some 0 ∧ (closing none (closed base)).brkClosed = true
    ∧ (closing none (pre 3)).power.afterClose = none ∧ (closing none (pre 3)).brkClosed = false
    ∧ (closing (some Cause.hostStop) (closed (pre 3))).brkClosed = true
    ∧ (base.on F.SAF_INPUT_brk_aux_a).flag F.SAF_INPUT_brk_aux_a ≠ (base.on F.SAF_INPUT_brk_aux_a).flag F.SAF_INPUT_brk_aux_b
    ∧ base.reachable Reg.SNS_CTRL = true ∧ base.isoAllowed = true ∧ base.flag F.SNS_STAT_iso_busy = false
    ∧ (closed (base.off F.SNS_CTRL_iso_monitor)).isoAllowed = false
    ∧ (base.on F.SNS_STAT_iso_busy).flag F.SNS_STAT_iso_busy = true
    ∧ ((inRun base .starting).set F.PWR_RUN_STAT_start_step Step.insulation).inStep Step.insulation = true := by
  decide +kernel
/-- Cycles with a program that runs, and one that is the reference program. -/
def running : Mach := cycles.set F.SPN_STAT_state 2
def reference (m : Mach) : Mach := { m with spin := { m.spin with refProg := true } }
theorem witness_cycle : cycles.cyclesOn = true ∧ (running.set F.SPN_STAT_section 1).inSection = true
    ∧ (running.set F.SPN_STAT_section 1).inFast = true ∧ (running.set F.SPN_STAT_section 3).inFast = false
    ∧ running.arrayRuns = true ∧ running.spin.fastRan = false ∧ running.spin.refProg = false ∧ running.inFast = false
    ∧ running.spin.estRan = false ∧ running.pair.resync = none ∧ running.sense.frozen = false
    ∧ cycles.arrayRuns = false ∧ running.inSection = false ∧ running.chain.frozen = false ∧ running.fly.blockPend = []
    ∧ (reference (running.set F.SPN_STAT_section 1)).spin.refProg = true ∧ running.memi.clean = true
    ∧ running.runState ≠ .starting := by decide +kernel
/-- A set-point waits; the set-point in force is old. -/
def setpoint : Mach := { cycles with sense := { cycles.sense with pending := some ⟨5, 6, 0⟩ } }
def stale : Mach := { (base.set F.SNS_SP_CTRL_timeout 1) with time := { base.time with sec := 100 } }
/-- Cycles run with a set-point in the frame that is older than its time-out. -/
def aged : Mach := (cycles.set F.SNS_SP_CTRL_timeout 1).storeWords (frameAddr cycles.cycle) (List.replicate 32 0xFFFF)
theorem witness_setpoints : cycles.clkOk .sense = true ∧ base.reachable Reg.SNS_SP_CTRL = true
    ∧ (base.wr Reg.SNS_SP_OWNER 1).get F.SNS_SP_OWNER_owner = 1 ∧ base.mirrors = false ∧ base.flag F.SNS_SP_CTRL_at_cycle = false
    ∧ base.rd Reg.SNS_SP_APPLY = 0
    ∧ ((cycles.on F.SNS_SP_CTRL_at_cycle).wr Reg.SNS_SP_APPLY 1000).cycleNameOk 1000 2000 = true
    ∧ ((cycles.on F.SNS_SP_CTRL_at_cycle).wr Reg.SNS_SP_APPLY 1000).commitCycle = 1000
    ∧ setpoint.setpointDue ⟨5, 6, 0⟩ = true ∧ stale.cyclesOn = false ∧ stale.setpointOld = true ∧ stale.sense.expired = false
    ∧ aged.cyclesOn = true ∧ aged.frameOld = true ∧ aged.sense.expired = false
    ∧ base.reachable Reg.SNS_CAP_CTRL = true ∧ base.capState = 0 ∧ (base.set F.SNS_CAP_CTRL_chan_mask 5).get F.SNS_CAP_CTRL_chan_mask = 5
    := by decide +kernel
/-- A bank swap waits for its cycle. -/
def swapping (c : Word) : Mach := { cycles with spin := { cycles.spin with swapAt := some c } }
theorem witness_banks : base.reachable Reg.SPN_BANK_CTRL = true ∧ base.shadowLocked = false ∧ base.memi.poison = [] ∧ base.memi.clean = true
    ∧ base.mirrors = false ∧ (cycles.wr Reg.SPN_BANK_APPLY 5000).cycleNameOk 5000 100000 = true
    ∧ (base.on F.SPN_BANK_CTRL_at_cycle).flag F.SPN_BANK_CTRL_at_cycle = true
    ∧ (swapping 5000).cyclesAhead 5000 < 2 ^ 31 ∧ (swapping 5000).nowNs + 2000 ≤ (swapping 5000).instantAhead 5000
    ∧ (base.on F.SPN_BANK_STAT_copy_busy).flag F.SPN_BANK_STAT_copy_busy = true
    ∧ (base.on F.SPN_BANK_STAT_crc_busy).flag F.SPN_BANK_STAT_crc_busy = true ∧ (swapping 0).reached 0 = true := by
  decide +kernel
theorem witness_array : base.reachable Reg.SPN_CTRL = true ∧ (cycles.set F.SPN_STAT_state 1).get F.SPN_STAT_state = 1
    ∧ cycles.domOn .spin1 = true ∧ cycles.spin.stopAt ≠ some cycles.cycle ∧ running.arrayRuns = true
    ∧ { cycles.spin with runPend := true }.runPend = true ∧ cycles.memi.upsets = [] ∧ (running.wr Reg.SPN_ST_CYC 5000).cyclesAhead 5000 < 2 ^ 31
    ∧ running.nowNs + 100000 ≤ running.instantAhead 5000 ∧ base.get F.SPN_STAT_state ≠ 3
    ∧ { cycles with spin := { cycles.spin with stateDig := some (1, 2) } }.spin.stateDig = some (1, 2)
    ∧ cycles.pair.digState = none := by decide +kernel

/-! ## Witnesses: the Flyer and the chain -/

/-- A port, or both, launches. -/
def launchOn (x : Nat) (m : Mach) : Mach := (m.on (F.CH_CTRL_launch x)).on (F.CH_LINK_STAT_tx_on x)
def launching (m : Mach) : Mach := launchOn 1 (launchOn 0 m)
/-- A standby in relay with the active's slots, in time or late. -/
def relay (onTime : Bool) : Mach :=
  let m := ((launching (inRole cycles .standby)).on F.XL_STAT_relay).on F.XL_STAT_claim_in
  { m with pair := { m.pair with cmdxRx := some ⟨0, [1, 2], []⟩, cmdxTime := onTime } }
/-- This cycle has its EMIT. -/
def emitted : Mach := { cycles with fly := { cycles.fly with emit := some ⟨Vector.replicate 128 0x8000, false, false, 0, 0, 0⟩ } }
/-- Cycles without an EMIT. -/
def missed (n : Nat) : Mach := { launching cycles with fly := { (launching cycles).fly with missing := n } }
theorem witness_trains : (launching cycles).launchPorts = [.a, .b] ∧ cycles.launchPorts = [] ∧ (launchOn 0 cycles).launchPorts = [.a]
    ∧ base.cyclesOn = false ∧ (launching cycles).cyclesOn = true ∧ (launching cycles).role = .solo
    ∧ (launching cycles).pair.formed = false ∧ (launching cycles).pair.handoverAt = none
    ∧ ((launching cycles).atPhase 5500).creditRefill.drafts[1]?.isSome = true
    ∧ (relay true).cyclesOn = true ∧ (relay true).relaying = true
    ∧ (∀ b ∈ [true, false], (relay b).pair.cmdxRx = some ⟨0, [1, 2], []⟩ ∧ (relay b).pair.cmdxTime = b)
    ∧ (relay true).cycle = 0 ∧ (cycles.inSection && cycles.inFast) = false ∧ emitted.fly.emit.isSome = true
    ∧ cycles.fly.emit = none ∧ cycles.acting = false ∧ (missed 4).acting = true ∧ 4 ≤ (missed 4).fly.missing
    ∧ cycles.domOn .chain = true := by
  decide +kernel
/-- A band in force, in RUN, outside the quiet time. -/
def band (last : Option TrimSym) : Mach :=
  let m := (((inRun (launching cycles) .run).on F.FLY_CTRL_hyst_en).on F.SNS_STAT_cmp_sh).set F.FLY_HYST_max_toggles 4
  { m with time := { m.time with ns := 3000 }
           fly := { m.fly with hyst := { m.fly.hyst with band := some (-5, 0, 5), lastSym := last, since := 200 } } }
theorem witness_hysteresis : cycles.fly.hyst.band = none ∧ (band none).hystActs = true ∧ (band none).fly.hyst.limited = false
    ∧ (band none).get F.FLY_HYST_spacing ≤ min 255 ((band none).fly.hyst.since + 1)
    ∧ (band none).fly.hyst.toggles < (band none).get F.FLY_HYST_max_toggles ∧ (band none).hystQuiet = false
    ∧ hystWants none (-5) 0 5 (-6) = some .ins ∧ hystWants none (-5) 0 5 6 = some .byp
    ∧ hystWants (some .ins) (-5) 0 5 0 = some .rel ∧ hystWants (some .byp) (-5) 0 5 0 = some .rel := by decide +kernel
theorem witness_broadcast : (safe ({ · with conds := [.door] })).demandThere .safety = true
    ∧ (base.wr Reg.PWR_CI_STAT 0xFFD).demandThere .clock = true ∧ base.demandThere .sw = true
    ∧ (inRole base .active).demandThere .partner = true ∧ (missed 5).demandThere .emit = true
    ∧ base.demandThere .partner = false ∧ base.domOn .chain = true ∧ (inRun base .run).runState.busy = true
    ∧ base.flag F.FLY_STOP_active = false ∧ base.flag F.FLY_STOP_latched = false ∧ (missed 5).stopPorts = [.a, .b]
    ∧ (∀ f ∈ [F.FLY_STOP_src_safety, F.FLY_STOP_src_clock, F.FLY_STOP_src_sw, F.FLY_STOP_src_emit],
        (base.on F.FLY_STOP_active).flag f = false ∧ (base.on f).flag f = true) ∧ base.reachable Reg.FLY_CTRL = true := by
  decide +kernel

/-- A launcher, an uplink frame with the slots of two positions, a train with their records, a node's answer. -/
def launcher : Launcher := ⟨3, true, false⟩
def slotBytes (p : Nat) (seq hi : Word) : List Byte := wordBytes ((hi <<< 9) ||| (slotCrc (hi <<< 9) p seq).setWidth 32)
def recordBytes (p : Nat) (sample : Byte) : List Byte :=
  let b : List Byte := [BitVec.ofNat 8 p, sample] ++ List.replicate 20 7
  b ++ halfBytes (crc16 b)
def uplink (seq : Word) : List Symbol :=
  ({ uplinkFrame launcher seq 2 with body := slotBytes 0 seq 5 ++ slotBytes 1 seq 9, hops := 2 }).symbols
def train (seq : Word) (a b : Byte) : List Symbol :=
  ({ cmdFrame launcher seq 2 1 [0x1234, 0x5678] with tail := recordBytes 0 a ++ recordBytes 1 b, hops := 2 }).symbols
def reply : List Symbol :=
  ({ mgmtFrame launcher 5 1 opRead 0 [] 4 with body := List.replicate 8 0 ++ [1, 1, 9, 0] ++ [1, 2, 3, 4] }).symbols
/-- The header that is received. -/
def header (l : List Symbol) : ChainFrame := (receiveFrame l).header.getD (syncFrame launcher 0 0 0 0 0)
theorem witness_reception : (∀ p ∈ [Port.a, .b], cycles.portUp p = true ∧ p ∈ cycles.chainPorts)
    ∧ (receiveFrame []).header.isNone = true ∧ (receiveFrame (uplink 0)).header.isSome = true
    ∧ (header (uplink 0)).kind = kindUplink ∧ (header (uplink 0)).seq = 0 ∧ cycles.cycle = 0 ∧ cycles.chain.frozen = false
    ∧ (receiveFrame reply).response.isSome = true
    ∧ (cycles.on (F.CH_LINK_STAT_rx_lock 0)).flag (F.CH_LINK_STAT_rx_lock 0) = true ∧ base.domOn .chain = true := by
  decide +kernel
theorem witness_slots : (((receiveFrame (uplink 0)).slots 2).filter fun x => slotValid x 0).length = 2
    ∧ ((receiveFrame ((uplink 0).take 20)).slots 2).length < 2 := by decide +kernel
theorem witness_train : (receiveFrame (train 0 0xFE 0xFE)).header.isSome = true
    ∧ (header (train 0 0xFE 0xFE)).kind = kindCmd ∧ (header (train 0 0xFE 0xFE)).seq = 0
    ∧ (receiveFrame (train 1 0xFF 0xFF)).header.isSome = true
    ∧ (header (train 1 0xFF 0xFF)).kind = kindCmd ∧ (header (train 1 0xFF 0xFF)).seq = 1 := by decide +kernel
theorem witness_records : (let m := cycles.set (F.CH_CFG_cell_div 0) 1
    ((m.tailRecs 0 ((receiveFrame (train 0 0xFE 0xFE)).records 2 1)).filter fun r => m.recordValid r 0).length = 2
    ∧ ((m.tailRecs 1 ((receiveFrame (train 1 0xFF 0xFF)).records 2 1)).filter fun r => m.recordValid r 1).length = 2) := by
  decide +kernel

/-- A change of the management state. -/
def managed (m : Mach) (f : MgmtState → MgmtState) : Mach := { m with mgmt := f m.mgmt }
/-- Both transmitters work, the running firmware has the nodes' image, and the nodes are known. -/
def walkable (m : Mach) : Mach :=
  let m := managed ((m.on (F.CH_LINK_STAT_tx_on 0)).on (F.CH_LINK_STAT_tx_on 1)) ({ · with running := some firmware })
  { m with chain := { m.chain with ids := [node, node] } }
/-- A walk, or a load alone, is in progress: when its load begins, when it ends, and what CHx_CTRL shows of it. -/
def jobOf (w : Option WalkResult) (l e k : Nat) (m : Mach) : Mach :=
  { (m.set (F.CH_LINK_STAT_rove_state 0) k).set (F.CH_LINK_STAT_rove_state 1) k with
    chain := { m.chain with job := some ⟨l, e, w, ⟨[], []⟩⟩ } }
theorem witness_walk : (∀ p ∈ [Port.a, .b], cycles.reachable (Reg.CH_CTRL (portIx p)) = true)
    ∧ cycles.runState = .off ∧ (inRun cycles .run).runState ≠ .off ∧ noWalk.load.failed = []
    ∧ { found with locked := false }.locked = false ∧ found.load.failed = []
    ∧ (jobOf (some { found with locked := false }) 5 8 1 cycles).get (F.CH_LINK_STAT_rove_state 0) = 1
    ∧ (jobOf (some found) 5 8 2 cycles).get (F.CH_LINK_STAT_rove_state 0) = 2 ∧ 8 ≤ cycles.upNs + 8
    ∧ cycles.upNs + 8 < 100 ∧ (walkable cycles).canLoad' (walkable cycles).chain.ids = true
    ∧ cycles.canLoad' (walkable cycles).chain.ids = false := by decide +kernel
/-- A PAIR ring. -/
def pairRing : Mach := (inRole cycles .active).set (F.CH_CFG_topology 0) 1
theorem witness_launch : (true && base.pairRing && Port.b == .b) = false ∧ (true && pairRing.pairRing && Port.b == .b) = true
    ∧ (let m := (launching cycles).on F.FLY_STOP_active
       let off := m.off (F.CH_CTRL_launch 0)
       m.flag F.FLY_STOP_active = true ∧ Port.a ∈ m.stopPorts ∧ Port.a ∉ off.stopPorts) := by decide +kernel
/-- A broken ring whose ports have been clean for 1000 cycles, position 1 missing at both ends and rejoined. -/
def broken : Mach := let m := walkable (inRun cycles .run)
  { m with ringBroken := true, chain := { m.chain with
  portA := { m.chain.portA with clean := 1000 }, portB := { m.chain.portB with clean := 1000 }
  bothEnds := m.chain.bothEnds.set 1 1000, rejoined := [1] } }
theorem witness_repair : broken.ringBroken = true ∧ broken.cyclesOn = true ∧ broken.runState = .run
    ∧ (broken.chainPorts.all fun p => decide (1000 ≤ (broken.port p).clean)) = true ∧ broken.posZero = true
    ∧ (∀ n, n < broken.nodeCount → ∃ r ∈ [(0, 76, 0), (1, 38, 38)], r.1 = n) ∧ broken.portUp .a = true
    ∧ broken.flag F.FLY_STOP_active = false ∧ broken.mayManage = true ∧ 1 ∈ broken.chain.rejoined
    ∧ broken.slotBit 1 15 = false ∧ broken.slotBit 1 14 = false ∧ broken.stopDemanded = false
    ∧ broken.chain.ids[1]? = some node ∧ broken.hasNodeImage node = true
    ∧ (broken.on F.SAF_INPUT_floop).flag F.SAF_INPUT_floop = true ∧ broken.chain.breakPend = false
    ∧ 1000 ≤ broken.chain.bothEnds.toList.getD 1 0 ∧ 1 < broken.nodeCount := by decide +kernel
/-- A sweep over the nodes listed. -/
def sweeping (l : List Nat) : Mach := { (cycles.on F.SNS_MEAS_STAT_sweep_busy).set F.SNS_MEAS_STAT_ow_wire 0 with
  sense := { cycles.sense with sweep := l }, chain := { cycles.chain with ids := [node, node] } }
/-- Position 0's program asks for an open-wire test. -/
def requesting : Mach := cycles.storeWords (laneAddr 0 0x1160) [0x00080100]
theorem witness_sweep : base.reachable Reg.SNS_MEAS_CTRL = true ∧ cycles.flag F.SNS_MEAS_STAT_sweep_busy = false
    ∧ cycles.role ≠ .standby ∧ cycles.sweepMay = true ∧ cycles.nodeCount ≠ 0 ∧ (sweeping [0]).sense.sweepAbort = false
    ∧ (sweeping [0]).flag F.SNS_MEAS_STAT_sweep_busy = true ∧ (sweeping [0]).sweepMay = true
    ∧ (cycles.set F.SNS_MEAS_CTRL_ow_period 5).get F.SNS_MEAS_CTRL_ow_period ≠ 0
    ∧ (cycles.mark .sweep).markOf .sweep = some 0 ∧ (cycles.mark .wire).markOf .wire = some 0
    ∧ (requesting.positions.filter fun n => requestOw (requesting.requestOf n)) = [0] ∧ requesting.sweepMay = true
    ∧ requesting.flag F.SNS_MEAS_STAT_sweep_busy = false ∧ requesting.domOn .spin0 = true
    ∧ (sweeping [0, 1]).sense.sweep = [0, 1] ∧ (sweeping [0]).get F.SNS_MEAS_STAT_ow_wire < (sweeping [0]).cellsOf 0
    ∧ (sweeping [0]).cellsOf 0 ≤ 6 ∧ (summary 0 base).power.estSeen = true ∧ base.mayManage = true
    ∧ base.power.distaffAbsent = false ∧ base.domOn .sense = true ∧ cycles.portUp .a = true
    ∧ (base.set F.SPN_STAT_state 4).get F.SPN_STAT_state = 4 ∧ base.spin.stLeft = 0 ∧ base.spin.stopPend = false
    ∧ { base.spin with stopPend := true }.stopPend = true := by decide +kernel

/-! ## Witnesses: the pair and time -/

/-- A change of the pair's state, and of the time's. -/
def paired (m : Mach) (f : PairState → PairState) : Mach := { m with pair := f m.pair }
def timed (m : Mach) (f : TimeState → TimeState) : Mach := { m with time := f m.time }
def standby : Mach := inRole base .standby
def active : Mach := inRole base .active
/-- A standby that is ready to take over, with a notice from its partner or none. -/
def readied (m : Mach) (n : Option Nat) : Mach := paired m fun x => { x with
  stateOk := true, partnerProg := standby.rd Reg.SPN_PROG_ID, partnerBank := m.bankCrc m.bankBase
  releasedNs := some 0, noticeNs := n, noticeCause := some .handover }
/-- One whose partner has announced a hand-over, and one whose link is dead. -/
def heir : Mach := readied ((standby.set F.SPN_STAT_state 2).on F.XL_STAT_link_ok) (some 5)
def alone : Mach := readied (standby.set F.SPN_STAT_state 2) none
theorem bankCrc_paired (m : Mach) (f : PairState → PairState) (a : Nat) : (paired m f).bankCrc a = m.bankCrc a := by
  unfold Mach.bankCrc
  rfl
theorem readied_bank (m : Mach) (n : Option Nat) :
    ((readied m n).pair.partnerBank == (readied m n).bankCrc (readied m n).bankBase) = true := by
  have h : (readied m n).bankBase = m.bankBase := rfl
  rw [readied, bankCrc_paired, ← readied, h]
  exact beq_self_eq_true _
theorem witness_ready : heir.readyCore = true ∧ alone.readyCore = true := by
  simp only [Mach.readyCore, heir, alone, Bool.and_eq_true, readied_bank, and_true]
  decide +kernel
theorem witness_claim : (paired (inRun standby .starting) ({ · with releasedNs := some 0 })).lowerTakes = true
    ∧ (paired (inRun standby .starting) ({ · with releasedNs := some 0 })).pair.releasedNs = some 0
    ∧ (standby.pair.partnerClaim && standby.flag F.XL_STAT_lease_ok) = false ∧ standby.flag F.XL_STAT_claim_in = false
    ∧ heir.lowerTakes = false ∧ alone.lowerTakes = false ∧ (heir.passUntil 0 10000).takeTrigger = some 0
    ∧ (alone.passUntil 0 10000).takeTrigger = some 1 ∧ heir.pair.releasedNs = some 0 ∧ heir.flag F.XL_STAT_claim_in = false
    ∧ (paired (standby.on F.XL_STAT_lease_ok) ({ · with partnerClaim := true })).flag F.XL_STAT_lease_ok = true
    ∧ (active.on F.XL_STAT_claim_out).holdsClaim = true ∧ (active.on F.XL_STAT_claim_in).flag F.XL_STAT_claim_in = true
    ∧ (paired active ({ · with settle := true })).pair.settle = true ∧ standby.readyCore = false
    ∧ (inRun standby .run).runState.busy = true ∧ base.xlUp = true
    ∧ base.reachable Reg.XL_CTRL = true ∧ (active.on F.XL_STAT_partner_ready).flag F.XL_STAT_partner_ready = true := by
  decide +kernel
/-- Items that wait for their acknowledgement. -/
def mirrored (m : Mach) : Mach := paired m ({ · with mirror := [⟨1, .flyBlock 2 0x55 9, 5⟩] })
/-- The partner's digests of this cycle, with the inputs equal or not. -/
def digests (i : Word) (m : Mach) : Mach := paired m ({ · with digIn := some (0, i), digOut := some (0, 2) })
theorem word_ne_succ (x : Word) : x ≠ x + 1 := by bv_omega
theorem witness_link : active.xlUp = true ∧ active.pair.formed = true
    ∧ standby.chain.frozen = false ∧ standby.rd Reg.SPN_DIG_STATE_CYC = 0 ∧ standby.rd Reg.SPN_DIG_STATE = 0
    ∧ (mirrored active).pair.mirror.find? (·.seq == 1) = some ⟨1, .flyBlock 2 0x55 9, 5⟩ ∧ active.pair.partnerLost = false
    ∧ standby.role = .standby ∧ (inRun standby .run).runState = .run ∧ standby.domOn .chain = true
    ∧ (mirrored active).pair.mirror = ⟨1, .flyBlock 2 0x55 9, 5⟩ :: [] ∧ (active.mark .lease).markOf .lease = some 0
    ∧ (digests 0 active).rd Reg.SPN_DIG_CYC = 0 ∧ (digests 0 active).rd Reg.SPN_DIG_IN = 0
    ∧ (2 : Word) ≠ (digests 0 active).rd Reg.SPN_DIG_OUT ∧ (1 : Word) ≠ (digests 1 active).rd Reg.SPN_DIG_IN
    ∧ (digests 0 active).pair.runOut < 2 ∧ { active.pair with runOut := 2 }.runOut = 2 := by decide +kernel
theorem witness_link_bank : standby.bankCrc standby.shadowBase ≠ standby.bankCrc standby.shadowBase + 1 := word_ne_succ _
/-- A resynchronisation under way. -/
def resyncing (m : Mach) : Mach := m.on F.XL_STAT_resync_busy
theorem witness_resync : (inRun active .run).resyncCan = true
    ∧ (paired (inRun active .run) ({ · with resyncRetry := true })).pair.resyncRetry = true
    ∧ (resyncing standby).flag F.XL_STAT_resync_busy = true ∧ (resyncing active).pair.resyncEnd = none
    ∧ (resyncing active).pair.snapAt < 1024 ∧ (resyncing active).role = .active
    ∧ (active.mark .resync).markOf .resync = some 0 ∧ 2 ≤ { active.pair with resyncFails := 2 }.resyncFails
    ∧ (paired (resyncing standby) ({ · with resyncEnd := some 0xFFFFFFFF })).pair.resyncEnd = some 0xFFFFFFFF
    ∧ cycleAfter standby.cycle 0xFFFFFFFF = true ∧ standby.xlUp = true ∧ standby.memi.clean = true
    ∧ 0 + 4 * [1, 2, (3 : Word)].length ≤ 0x80000 ∧ (∀ k ∈ [0], 8 * k + 8 ≤ 4 * [1, 2, (3 : Word)].length)
    ∧ (0x7FFFC : BitVec 20).toNat + 4 ≤ 0x80000 := by decide +kernel
theorem witness_time : base.reachable Reg.TB_INCR_NS = true ∧ base.timeOwned 15 = true
    ∧ base.incrOk (incrUnits 8 (base.rd Reg.TB_INCR_FRAC)) = true ∧ base.reachable Reg.TB_ADJ_NS = true
    ∧ base.cyclesOn = false ∧ (0x80000005 : Word).toNat % 2 ^ 30 < 1000000000 ∧ (0x80000005 : Word).getLsbD 31 = true
    ∧ (base.wr (Reg.TB_CMP_CTRL 15) 1).cmpOn 15 = true ∧ (base.wr (Reg.TB_CMP_CTRL 15) 1).flag (F.TB_CMP_CTRL_periodic 15) = false
    ∧ (∀ u, u < 8 → base.reachable (Reg.TB_CAP_CTRL u) = true ∧ (base.set (F.TB_CAP_CTRL_src u) 3).get (F.TB_CAP_CTRL_src u) ≠ 0
      ∧ (base.on (F.TB_CAP_CTRL_full u)).flag (F.TB_CAP_CTRL_full u) = true
      ∧ base.flag (F.TB_CAP_CTRL_full u) = false) := by decide +kernel
/-- Pulses come from PPS_IN. -/
def pulsed : Mach := base.set F.TB_CTRL_src 2
theorem witness_sync : (base.set (F.TB_CAP_CTRL_src 0) 1).get (F.TB_CAP_CTRL_src 0) = 1 ∧ base.time.ns < 1000000000
    ∧ base.get F.TB_CTRL_src ≠ 2 ∧ pulsed.get F.TB_CTRL_src = 2 ∧ base.get F.TB_STAT_state ≠ Sync.locked
    ∧ (base.set F.TB_STAT_state Sync.locked).get F.TB_STAT_state = Sync.locked
    ∧ (base.set F.TB_STAT_state Sync.acquiring).get F.TB_STAT_state = Sync.acquiring
    ∧ (timed pulsed ({ · with ns := 300000000 })).time.ns < 750000000 ∧ 250000000 < 300000000
    ∧ { base.time with lastOkNs := some 100 }.lastOkNs = some 100
    ∧ ((standby.on F.XL_STAT_lease_ok).set F.TB_CTRL_src 1).timeSource = 3 := by decide +kernel
/-- A Sync message; the ordinary clock with one Sync and a request out on port 1. -/
def syncMsg : PtpSync := ⟨0, 1000, 5, 1500, 0, true⟩
def clock : Mach := timed (base.on F.ETH_PTP_CFG_oc_en) ({ · with syncs := (some syncMsg, none), dreqs := (some 1600, none) })
/-- Every bucket is empty. -/
def drained : Mach :=
  { base with host := { base.host with buckets := base.host.buckets.map fun _ => ⟨10 ^ 18, base.upNs⟩ } }
theorem witness_ptp : clock.ptpOn = true ∧ syncMsg.valid = true ∧ { syncMsg with valid := false }.valid = false
    ∧ (clock.on F.ETH_PTP_STAT_master_sel).flag F.ETH_PTP_STAT_master_sel = true
    ∧ (∀ p ∈ [1, 2], base.ethServes p = true ∧ base.bucketHas p 3 1 = true ∧ drained.bucketHas p 3 1 = false
      ∧ drained.ethServes p = true)
    ∧ clock.flag F.ETH_PTP_STAT_master_sel = false ∧ ofPort 0 clock.time.syncs = some syncMsg
    ∧ ofPort 0 clock.time.dreqs = some 1600 ∧ clock.get F.ETH_PTP_CFG_domain = 0 ∧ clock.ethServes 1 = true
    ∧ clock.bucketHas 1 3 1 = true := by
  decide +kernel

/-! ## Witnesses: host accesses, mailboxes, operations -/

/-- A session with its kept requests. -/
def session (k : Nat) (cache : List (List Byte × List AccessResult)) : Session := ⟨k, ⟨5, true, true⟩, cache, 0, false, 0⟩
def opened (l : List Session) : Mach := { base with host := { base.host with sessions := l } }
/-- A REQUEST with tag 9 of one read of 4 bytes, and what the message of some bytes asks for. -/
def ask (a : Nat) : List Byte := dareri Dareri.request 0 1 9 ([1, 0, 0, 4] ++ wordBytes (BitVec.ofNat 32 a))
def asked (bs : List Byte) : Option DareriReq := (dareriOf bs).bind DareriMsg.asRequest
def kindOf (bs : List Byte) : Option Nat := (dareriOf bs).map (·.kind)
/-- Registers' copies in a latch. -/
def serialCopy : LatchCopy := ⟨1, Reg.GLB_SERIAL_LO, [(Reg.GLB_SERIAL_HI, 77)]⟩
def latchedCopy : LatchCopy := ⟨1, Reg.TB_CAP_SEC 7, [(Reg.TB_CAP_NS 7, 88)]⟩
theorem witness_access : assigned (0x7FFFFFFC / 4 * 4) = false ∧ assigned (3 / 4 * 4) = true ∧ 3 % 4 ≠ 0
    ∧ assigned (Reg.FLY_CTRL / 4 * 4) = true ∧ Reg.FLY_CTRL % 4 = 0
    ∧ ((base.set (pdField .chain) 0).offCode Reg.FLY_CTRL).isSome = true ∧ base.addressRefusal Reg.GLB_SERIAL_LO = none
    ∧ { base with lifeCycle := .decommissioned }.addressRefusal Reg.GLB_SERIAL_LO = none
    ∧ (regRow? (Reg.GLB_IRQ_EN 3)).isSome = true ∧ Reg.GLB_IRQ_EN 3 < 0x20000 ∧ base.reachable (Reg.GLB_IRQ_EN 3) = true
    ∧ Reg.MBX_GLOCK 3 ∈ lockRegs ∧ base.addressRefusal (Reg.MBX_GLOCK 3) = none
    ∧ base.latched 1 (Reg.MBX_GLOCK 3) = none ∧ base.rd (Reg.MBX_GLOCK 3) = 0
    ∧ base.reachable (Reg.MBX_GLOCK 3) = true ∧ ((base.wr (Reg.MBX_GLOCK 3) 1).rd (Reg.MBX_GLOCK 3)).toNat = 1
    ∧ latchesOf Reg.GLB_SERIAL_LO ≠ [] ∧ base.latched 1 Reg.GLB_SERIAL_LO = none
    ∧ { base with latches := [latchedCopy] }.latched 1 (Reg.TB_CAP_NS 7) = some latchedCopy
    ∧ base.addressRefusal (Reg.TB_CAP_NS 7) = none ∧ base.latched 1 (Reg.TB_CAP_NS 7) = none
    ∧ { base with latches := [serialCopy] }.latched 1 Reg.GLB_SERIAL_HI = some serialCopy
    ∧ base.addressRefusal Reg.GLB_SERIAL_HI = none ∧ Reg.GLB_SERIAL_HI < 0x30200 := by decide +kernel
theorem witness_requests : (opened [session 1 []]).session 1 = some (session 1 []) ∧ base.domOn .host = true
    ∧ base.domOn .svc = true ∧ dareriOf [] = none ∧ kindOf keepaliveMsg = some Dareri.keepalive
    ∧ (dareriOf keepaliveMsg).map (·.body) = some [] ∧ kindOf (dareri 2 0 0 0 []) = some 2
    ∧ asked (dareri 2 0 0 0 []) = none
    ∧ asked (ask Reg.GLB_FW_VER) = some ⟨9, false, [.read Reg.GLB_FW_VER 4]⟩
    ∧ asked (ask 0x7FFFFFFC) = some ⟨9, false, [.read 0x7FFFFFFC 4]⟩ ∧ assigned (0x7FFFFFFC / 4 * 4) = false
    ∧ assigned 0x7FFFFFFC = false
    ∧ (((session 1 [(ask 0, [⟨0, 0, [5]⟩])]).cache.find? fun e => (dareriOf e.1).any (·.tag == 9)).map (·.1)) = some (ask 0)
    ∧ Reg.GLB_FW_VER < 0x20000 ∧ Reg.GLB_FW_VER % 4 = 0 ∧ (regRow? Reg.GLB_FW_VER).isSome = true
    ∧ base.reachable Reg.GLB_FW_VER = true ∧ latchesOf Reg.GLB_FW_VER = []
    ∧ (opened [session 1 []]).latched 1 Reg.GLB_FW_VER = none := by decide +kernel
theorem witness_counters : ∀ a ∈ [Reg.FLY_CTRL, Reg.CH_CTRL 0, Reg.CH_CTRL 1, Reg.SPN_CTRL, Reg.SNS_CTRL, Reg.SNS_PROT_CTRL,
    Reg.XL_CTRL, Reg.TB_CTRL, Reg.ETH_CTRL, Reg.PWR_CTRL, Reg.CAN_CTRL 0, Reg.CAN_CTRL 1, Reg.MEM_CTRL],
    base.reachable a = true := by decide +kernel
/-- Carder at a word. -/
def carder (i w : Nat) : Mach := (base.set F.MEM_SCRUB_POS_instance i).set F.MEM_SCRUB_POS_word w
/-- A change of memory integrity. -/
def memory (m : Mach) (f : MemState → MemState) : Mach := { m with memi := f m.memi }
/-- A stored program of eight words. -/
def program : ProgImage := ⟨1, 1, 0, 5, [1, 2, 3, 4, 5, 6, 7, 8], none, false⟩
def stored : Image := { firmware with kind := .reludProgram, prog := some program }
def slotted : Mach := managed base fun g => { g with slots := g.slots.set 0 ⟨some stored⟩, loadedSlot := 0 }
theorem witness_carder : base.domOn .mgmt = true ∧ (∀ i ∈ [13, 15, 40, 47], base.domOn (instDomain i) = true
      ∧ (carder i 5).get F.MEM_SCRUB_POS_instance = i ∧ (carder i 5).get F.MEM_SCRUB_POS_word = 5
      ∧ (carder i 5).poisoned (wordAddr i 5) = false
      ∧ (memory (carder i 5) ({ · with poison := [wordAddr i 5] })).poisoned (wordAddr i 5) = true)
    ∧ base.memi.spareAt = none ∧ base.memi.upsets = [] ∧ (15, 5) ∈ { base.memi with cePrev := [(15, 5)] }.cePrev
    ∧ base.domOn (instDomain (instOf (wordAddr 15 9))) = true ∧ (carder 15 5).poisoned (wordAddr 15 9) = false
    ∧ wordAddr 15 9 % 8 = 0 ∧ wordAddr 15 9 ≠ wordAddr 15 5 := by decide +kernel
theorem witness_program_repair : base.repairWindow = true ∧ base.power.distaffAbsent = false ∧ base.domOn .spin0 = true
    ∧ base.memi.poison.filter inProgMem = []
    ∧ (memory slotted ({ · with poison := [progMemBase + 8] })).memi.poison.filter inProgMem = [progMemBase + 8]
    ∧ (progMemBase + 8) % 8 = 0
    ∧ (match slotted.slotCheck 0 15 with | .ok p => decide (p = program) | .error _ => false) = true := by decide +kernel
theorem witness_remap : (memory base ({ · with weak := [(15, 5)] })).memi.weak = [(15, 5)] ∧ base.remapOf 15 5 = none
    ∧ base.freeEntry 15 = some 0
    ∧ ((List.range 8).foldl (fun m e => m.on (F.MEM_REMAP_valid 15 e)) base).freeEntry 15 = none
    ∧ base.reachable (Reg.MEM_REMAP 15 0) = true ∧ base.lifeCycle ≠ .manufacture ∧ base.lifeCycle ≠ .service
    ∧ { base with lifeCycle := .service }.lifeCycle = .service ∧ base.flag (F.MEM_REMAP_valid 15 0) = false
    ∧ (base.rd (Reg.MEM_REMAP 15 0) ^^^ 5) &&& 0x800007FF ≠ 0
    ∧ (base.rd (Reg.MEM_REMAP 15 0) ^^^ 0x800) &&& 0x800007FF = 0 := by decide +kernel
theorem witness_tap : { base with lifeCycle := .service, power := { base.power with irCtrl := 4 } }.extest = true
    ∧ base.extest = false := by decide +kernel
/-- A command in a mailbox, at the head of the order. -/
def mailbox (op len : Nat) (m : Mach) : Mach :=
  { ((m.set (F.MBX_CTRL_opcode 3) op).set (F.MBX_CTRL_length 3) len).on (F.MBX_CTRL_busy 3) with
    host := { m.host with mbxOrder := [3] } }
/-- The SETTLE step with slots and records of every node. -/
def settling (m : Mach) : Mach := (inRun m .starting).set F.PWR_RUN_STAT_start_step Step.settle
def heard : Mach := { cycles with chain := { cycles.chain with
  lastSlot := Vector.replicate 128 (some 0), lastRec := Vector.replicate 128 (some []) } }
/-- A module that can start. -/
def ready : Mach := ((base.set (F.CH_CFG_nodes 0) 2).set F.SPN_STAT_state 1).set F.PWR_SUP_STAT_store_level 95
theorem witness_mailbox : base.reachable (Reg.MBX_CTRL 3) = true ∧ base.get (F.MBX_LOCK_owner 3) = 0 ∧ base.mbxBusy 3 = false
    ∧ (mailbox 1 0 base).mbxBusy 3 = true ∧ base.host.mbxOrder = [] ∧ (0x01, 0, 16) ∈ mbxOpcodes
    ∧ 16 < (17 : BitVec 5).toNat ∧ (0x10, 0, 0) ∈ mbxOpcodes
    ∧ (∀ e ∈ mbxOpcodes, e.1 ≠ 0x55) ∧ 3 ∉ base.host.mbxOrphan
    ∧ (∀ x ∈ [(0x01, 2), (0x02, 0), (0x10, 0), (0x11, 0), (0x12, 1), (0x20, 3)],
        (mailbox x.1 x.2 base).mbxServes 3 x.1 = true ∧ (mailbox x.1 x.2 base).mbxBad 3 = none) := by decide +kernel
theorem witness_run_control : (inRun base .run).startError = some (Err.refusedState, 0)
    ∧ (ready.on F.SAF_STAT_run_permit).startError = none ∧ (settling cycles).inStep Step.settle = true
    ∧ (settling cycles).power.startLeft = 0 ∧ { cycles.power with startLeft := 4 }.startLeft ≠ 0
    ∧ cycles.inStep Step.settle = false ∧ (0 ∈ cycles.positions ∧ cycles.chain.lastSlot.toList.getD 0 none = none)
    ∧ (settling heard).power.settleBad = false
    ∧ (settling heard).startForbidden = false ∧ (∀ n ∈ heard.positions, (heard.chain.lastSlot.toList.getD n none).isSome = true
      ∧ (heard.chain.lastRec.toList.getD n none).isSome = true ∧ heard.chain.slotAge.toList.getD n 1000 < 1000
      ∧ heard.chain.recAge.toList.getD n 1000 < 1000)
    ∧ (mailbox 0x12 1 base).mbxWords 3 = [0] ∧ base.runState.rest = true ∧ (inRun base .run).runState.rest = false
    ∧ base.flag F.FLY_STOP_active = false ∧ base.safety.conds = [] ∧ base.safety.closeOn = false
    ∧ (closing none (pre 3)).safety.closeOn = true ∧ (inRun base .stopping).runState = .stopping := by
  decide +kernel
/-- A running operation with its arguments. -/
def op (code : Nat) (args : List Word) (m : Mach) : Mach :=
  (List.range args.length).foldl (fun m k => m.wr (Reg.OP_ARG 3 k) (args.getD k 0))
    ((m.set (F.OP_CTRL_opcode 3) code).set (F.OP_STATUS0_state 3) 2)
/-- A well-supplied module, and the stage of an update. -/
def strong : Mach := base.set F.PWR_SUP_STAT_store_level 95
def stage (n : Nat) (m : Mach) : Mach := m.set F.MGT_UPD_STAT_stage n
/-- An operation whose work is done. -/
def done (m : Mach) : Mach := { m with host := { m.host with opDone := [3] } }
theorem witness_slots_host : base.reachable (Reg.OP_CTRL 3) = true ∧ base.get (F.OP_OWNER_owner 3) = 0
    ∧ (op 1 [] base).opActive 3 = true ∧ base.opActive 3 = false ∧ opKnown 0x55 = false ∧ opKnown 4 = true
    ∧ base.host.opQueue = [] ∧ base.opState 3 = 0 ∧ base.reachable (Reg.OP_ACK 3) = true
    ∧ 3 ≤ (base.set (F.OP_STATUS0_state 3) 3).opState 3
    ∧ (base.set (F.OP_STATUS1_partial 3) 4).get (F.OP_STATUS1_partial 3) = 4 ∧ base.get (F.OP_ACK_ack 3) = 0
    ∧ base.flag (F.OP_STATUS0_paused 3) = false ∧ base.get (F.OP_STATUS1_partial 3) < 5
    ∧ (done (op 0x18 [] base)).opState 3 = 2 ∧ 3 ∈ (done (op 0x18 [] base)).host.opDone ∧ 3 ∉ base.host.opDone
    ∧ (done (op 0x14 [] base)).supply = .normal ∧ (done (op 0x14 [] held)).supply ≠ .normal
    ∧ { base.mgmt with journal := .confirming 7 }.journal = .confirming 7 := by decide +kernel
theorem witness_operations : (∀ c ∈ [0x01, 0x02, 0x03, 0x04, 0x05, 0x06, 0x07, 0x08, 0x09, 0x0A],
      (op c [] base).opFresh 3 c = true ∧ (op c [] base).opMay 3 c = true ∧ base.opWorks 3 c = false)
    ∧ (op 1 [] (powered base ({ · with safeMode := true }))).opWorks 3 1 = true
    ∧ (powered base ({ · with safeMode := true })).opServed 1 = false
    ∧ (op 1 [0x401, 0] base).nodeError 3 64 false (some ⟨1, 0, 5, []⟩) = none
    ∧ (op 1 [0x401, 0] base).nodeError 3 64 false none = some (Err.nodeNoResponse, 0)
    ∧ (op 2 [0x401, 0x200] base).nodeError 3 56 true (some ⟨1, 0, 5, []⟩) = none
    ∧ (inRun base .safeHold).wireError = none ∧ base.wireError ≠ none ∧ (op 4 [0, 0, 5] base).opArg 3 2 = 5
    ∧ (op 7 [3, 4] base).calRange 3 16384 = true ∧ base.saveError true = none ∧ base.saveError false = some (Err.flash, 0)
    ∧ (op 5 [2] (stage Stage.verified (managed strong ({ · with staged := some stored })))).storeError 3 true = none
    ∧ (op 6 [0] strong).loadError 3 = none
    ∧ (strong.domainOn .spin0).domFault .spin0 = false
    ∧ ((strong.set (pdField .spin0) 3).domainOn .spin0).domFault .spin0 = true
    ∧ (match (slotted.domainOn .spin0).slotCheck 0 0 with | .ok _ => true | .error _ => false) = true
    ∧ (match (strong.domainOn .spin0).slotCheck 0 0 with | .ok _ => false | .error _ => true) = true
    ∧ fieldOf ((op 0xA [5] base).opArg 3 0) 0 8 ≠ 0 := by decide +kernel
/-- A calibration record in the transfer buffer, and the lock owned by the caller. -/
def calRecord : List Word := let ws := 7 :: List.replicate 14 0; ws ++ [crcWords ws]
def owned (m : Mach) : Mach := { managed m ({ · with updOwner := 2, updLen := 4, blockMap := [0] }) with
  host := { m.host with opMaster := m.host.opMaster.set 3 2 } }
def transfer : Mach := (List.range 16).foldl (fun m k => m.wr (Reg.MGT_XFER_BUF k) (calRecord.getD k 0)) (owned strong)
theorem witness_calibration : (op 8 [300, 1] transfer).calError 3 true = none := by decide +kernel
theorem witness_update : (op 0x10 [0, 4096] strong).openError 3 = none
    ∧ (op 0x11 [0, 4, crcWords [0]] (stage Stage.open (owned strong))).writeError 3 true = none
    ∧ (op 0x11 [0, 4, crcWords [0]] (stage Stage.open (owned { strong with supply := .holdup }))).writeCheck 3 = none
    ∧ ({ strong with supply := .holdup }.mark .flash).markOf .flash = some 0 ∧ strong.markOf .flash = none
    ∧ (op 0x13 [] (stage Stage.verified (owned strong))).activateError 3 = none
    ∧ (op 0x14 [] (stage Stage.trial (owned strong))).confirmError 3 = none
    ∧ (op 0x15 [] (owned strong)).lockError 2 = none ∧ (stage Stage.open (owned strong)).needSession [Stage.open] = none
    ∧ (∀ dst ∈ [LifeCycle.service], (op 0x18 [3, 0] (owned strong)).lifeSetError 3 = none
      ∧ LifeCycle.ofCode (fieldOf ((op 0x18 [3, 0] (owned strong)).opArg 3 0) 0 3) = some dst)
    ∧ (op 0x10 [0, 0] strong).openError 3 = some (Err.refusedValue, 0) ∧ strong.mgmt.updOwner = 0 := by decide +kernel
/-- A number in network order; a safety parameter image of 304 bytes with one section. -/
def number (n v : Nat) : List Byte := ((List.range n).map fun k => BitVec.ofNat 8 (v / 256 ^ k)).reverse
def imageSection : List Byte := List.replicate 16 0
def imageBytes : List Byte :=
  number 4 0x42524454 ++ number 2 1 ++ [2, 1] ++ number 2 0x1800 ++ number 2 1 ++ number 4 5 ++ number 4 96 ++ number 2 1
    ++ List.replicate 42 0 ++ number 2 2 ++ number 2 0 ++ number 4 80 ++ number 4 16
    ++ number 4 (crc32c imageSection).toNat ++ imageSection ++ List.replicate 208 0
/-- The image is staged whole, under the digest that its session gave. -/
def verifying : Mach := managed (op 0x12 [] (stage Stage.open (owned strong))) ({ · with
  updLen := 304, stagePages := [(0, bytesWords imageBytes)], updDigest := Config.sha384 imageBytes })
theorem witness_verify : verifying.verifyError 3 ⟨true, false, true⟩ = none := by
  have hb : verifying.stagedBytes = imageBytes := by decide +kernel
  have hf : imgFormatOk imageBytes = true ∧ imgTargetOk imageBytes = true := by decide +kernel
  have hd : verifying.mgmt.updDigest = Config.sha384 imageBytes := rfl
  have hm : verifying.get F.LCY_ROLLBACK_count = 0 := by decide +kernel
  have he : verifying.imageError (imageOf imageBytes ⟨true, false, true⟩) (some (Config.sha384 imageBytes)) = none := by
    simp [Mach.imageError, imageOf, hf, hm]
  have hl : verifying.imageAllowed (imageOf imageBytes ⟨true, false, true⟩) (verifying.opCaller 3) = true := by decide +kernel
  have h1 : verifying.lockError (verifying.opCaller 3) = none := by decide +kernel
  have h2 : verifying.needSession [Stage.open, Stage.verified] = none := by decide +kernel
  have h3 : verifying.allPages = true := by decide +kernel
  simp [Mach.verifyError, Mach.stagedImage, hb, hd, Mach.imageCheck, he, hl, h1, h2, h3, orErr, errIf]
theorem witness_stores : (managed base ({ · with confirmNs := some 0 })).mgmt.confirmNs = some 0
    ∧ 128 ≤ (managed base ({ · with unarchived := 130 })).mgmt.unarchived ∧ base.mgmt.unarchived < 128
    ∧ base.power.powered = true ∧ (base.mark .hour).markOf .hour = some 0 ∧ (base.mark .sensors).markOf .sensors = some 0
    ∧ (powered base ({ · with modRead := some [some 250, none, some (-5)] })).power.modRead = some [some 250, none, some (-5)]
    ∧ [none, some (250 : Int)][1]? = some (some 250) ∧ base.get (F.ETH_PORT_STAT_speed 1) = 0
    ∧ (base.set (F.ETH_PORT_STAT_speed 1) 1).get (F.ETH_PORT_STAT_speed 1) ≠ 0
    ∧ base.flag (F.ETH_PORT_STAT_unsupported 1) = false ∧ base.flag (F.ETH_PORT_STAT_fault 1) = false := by decide +kernel

/-! ## Witnesses: sessions and CAN -/

theorem witness_sessions : base.domOn .svc = true ∧ base.certOk false ⟨5, true, true⟩ = true ∧ base.freeSession false = some 1
    ∧ base.certOk false ⟨5, false, true⟩ = false ∧ (opened [session 1 []]).sessionOpen 1 = true ∧ base.sessionOpen 1 = false
    ∧ (opened [session 13 []]).sessionOpen 13 = true
    ∧ base.reachable Reg.ETH_SESS_CLOSE = true ∧ sessCloseRefusal 1 0x2 = none ∧ sessCloseRefusal 1 0x4 = some (Err.notOwner, 2)
    ∧ listening.telFormOk [] = false ∧ (opened [session 1 []]).irqSum &&& (opened [session 1 []]).rd (Reg.GLB_IRQ_EN 1) = 0 := by
  decide +kernel
/-- An interrupt that a session hears of. -/
def interrupt : Mach := (((opened [session 1 []]).wr (Reg.GLB_IRQ_EN 1) 0xFFFFFFFF).on F.SAF_IRQ_STAT_demand).wr Reg.SAF_IRQ_EN 0xFFFFFFFF
/-- A stream of a set. -/
def stream (set : Nat) : Mach := (cycles.set (F.Q_STR_CFG_session 3) 1).set (F.Q_STR_CFG_set 3) set
theorem witness_streams : interrupt.irqSum &&& interrupt.rd (Reg.GLB_IRQ_EN 1) ≠ 0
    ∧ interrupt.session 1 = some (session 1 []) ∧ base.get (F.Q_STR_CFG_session 3) = 0
    ∧ (stream 4).get (F.Q_STR_CFG_session 3) ≠ 0 ∧ ((stream 4).streamRecords 3).length = 1
    ∧ (stream 4).host.streamSkip.toList.getD 3 0 = 0 ∧ (stream 7).get (F.Q_STR_CFG_set 3) = 7
    ∧ { base.host with streamSkip := Vector.replicate 16 2 }.streamSkip.toList.getD 3 0 ≠ 0
    ∧ base.reachable (Reg.Q_STR_CFG 3) = true ∧ base.streamRefusal 1 3 0x13010000 = none
    ∧ base.streamRefusal 2 3 0x13010000 = some (Err.notOwner, 1) := by decide +kernel
theorem witness_ring : (base.set (F.ETH_PORT_STAT_speed 1) 1).get (F.ETH_PORT_STAT_speed 1) ≠ 0 ∧ base.ethServes 1 = true
    ∧ (base.on (F.ETH_PORT_STAT_link 1)).flag (F.ETH_PORT_STAT_link 1) = true
    ∧ (∀ b ∈ [0, 1, 2], base.bucketHas 1 b 512 = true) ∧ base.bucketHas 1 3 1 = true ∧ drained.bucketHas 1 0 512 = false
    ∧ 7 < 10 * 3 ∧ 10 * 2 ≤ 64 ∧ base.host.window.toList[0]? = some (0, 0)
    ∧ (cycles.on (F.ETH_PORT_STAT_link 1)).hsrSeen.any (fun e => e.1 == 1 && e.2.1 == 1) = false := by decide +kernel
theorem witness_ring_send : base.ringServes = true ∧ (base.wr Reg.PWR_CI_STAT 0).ringServes = false
    ∧ (base.mark .supervision).markOf .supervision = some 0 ∧ base.rd Reg.ETH_IP_ADDR ≠ 0xFFFF
    ∧ (base.host.icmpAt.filter fun x => decide (base.upNs < x + 1000000000)).length < 10
    ∧ 10 ≤ ((List.replicate 10 0).filter fun x => decide (base.upNs < x + 1000000000)).length := by decide +kernel
/-- A port on the bus; a receive buffer that takes every frame; a buffer that waits to be sent; a FIFO with frames. -/
def onBus : Mach := (base.on (F.CAN_CTRL_en 0)).set (F.CAN_STAT_state 0) 0
def frame : CanFrame := ⟨0x04000000, 0x00080000, [1, 2]⟩
def receives (b : Nat) : Mach := (onBus.on (F.CAN_MB_CTRL_en 0 b)).wr (Reg.CAN_MB_MASK 0 b) 0
def sends (losses : Nat) : Mach :=
  (((onBus.on (F.CAN_MB_CTRL_en 0 7)).on (F.CAN_MB_CTRL_dir 0 7)).on (F.CAN_MB_CTRL_pending 0 7)).set (F.CAN_MB_CTRL_losses 0 7) losses
def queued (n : Nat) : Mach := { (onBus.on (F.CAN_CTRL_fifo_en 0)).wr (Reg.CAN_FIFO_MASK 0) 0 with
  can0 := { onBus.can0 with fifo := List.replicate n (frame, 0) } }
theorem witness_can_receive : onBus.canUp 0 = true ∧ (canEntry frame).info.getLsbD 20 = false ∧ base.domOn .mgmt = true
    ∧ (receives 7).canMatch 0 (canEntry frame) = some 7 ∧ (queued 3).canMatch 0 (canEntry frame) = none
    ∧ (queued 3).flag (F.CAN_CTRL_fifo_en 0) = true
    ∧ canPasses (canEntry frame) ((queued 3).rd (Reg.CAN_FIFO_ID 0)) ((queued 3).rd (Reg.CAN_FIFO_MASK 0)) = true
    ∧ ((queued 3).canPort 0).fifo.length < 51 ∧ 51 ≤ ((queued 51).canPort 0).fifo.length := by decide +kernel
theorem witness_can_send : (sends 3).canWinner 0 = some 7 ∧ (sends 3).get (F.CAN_MB_CTRL_losses 0 7) < 7
    ∧ (sends 7).get (F.CAN_MB_CTRL_losses 0 7) = 7 ∧ (sends 7).canWinner 0 = some 7
    ∧ (onBus.on (F.CAN_MB_CTRL_suspended 0 0)).flag (F.CAN_MB_CTRL_suspended 0 0) = true
    ∧ onBus.flag (F.CAN_MB_CTRL_suspended 0 0) = false ∧ onBus.domOn .can = true ∧ onBus.clkOk .can = true
    ∧ (onBus.set (F.CAN_STAT_state 0) 2).get (F.CAN_STAT_state 0) = 2 ∧ { onBus.can0 with recovers := true }.recovers = true
    ∧ (onBus.canPort 0).recovers = false
    ∧ onBus.flag (F.CAN_CTRL_en 0) = true ∧ (onBus.set (F.CAN_STAT_state 0) 3).get (F.CAN_STAT_state 0) = 3
    ∧ onBus.get (F.CAN_STAT_tec 0) + 8 ≤ 255 ∧ 255 < (onBus.set (F.CAN_STAT_tec 0) 248).get (F.CAN_STAT_tec 0) + 8 := by
  decide +kernel
theorem witness_can_host : base.reachable (Reg.CAN_CTRL 0) = true ∧ base.reachable (Reg.CAN_FIFO_CTRL 0) = true
    ∧ (∀ b, b < 32 → base.reachable (Reg.CAN_MB_CTRL 0 b) = true) ∧ (sends 0).flag (F.CAN_MB_CTRL_dir 0 7) = true
    ∧ base.flag (F.CAN_MB_CTRL_dir 0 7) = false ∧ infoOk 0x00400000 = false
    ∧ infoOk ((sends 0).rd (Reg.CAN_MB_INFO 0 7)) = true
    ∧ { (receives 2).on (F.CAN_MB_CTRL_full 0 2) with latches := [⟨1, Reg.CAN_MB_CTRL 0 2, [(Reg.CAN_MB_ID 0 2, 0x55)]⟩]
        }.canNewer 1 0 2 = true
    ∧ (receives 2).canNewer 1 0 2 = false ∧ (sends 0).flag (F.CAN_MB_CTRL_suspended 0 7) = false := by decide +kernel

/-! ## Values from the spec's worked examples -/

/-- Ch. 01: string 3 in FIELD, RUN, ACTIVE, ring closed, NORMAL, STATE_FEEDBACK, COMBINED, energised. -/
def string3 : Mach := { closed (inRole (inRun base .run) .active) with refSrc := .combined }
theorem test_status_word : string3.view Reg.GLB_STATUS = 0x4D0A0000 := by decide +kernel
/-- Ch. 01: an ACTIVE module may not switch PD_XLINK off, and may switch PD_SVC off. -/
theorem test_domains_of_active : (string3.dropped 0x3BF).all (string3.mayDrop 1) = false
    ∧ (string3.dropped 0x1FF).all (string3.mayDrop 1) = true := by decide +kernel
/-- Ch. 00: the memory of lane 3 and the end of lane 127. -/
theorem test_lane_addresses : laneAddr 3 0 = 0x01406000 ∧ laneAddr 127 0x1FFF = 0x014FFFFF := by decide +kernel
/-- Ch. 05: 5.0 V/A times 0.75 A is 3.75 V with mantissa 7 864 320 and exponent −21. -/
theorem test_product : (normalise ((Dy.mul ⟨5242880, -20⟩ ⟨6291456, -23⟩) :: List.replicate 7 Dy.zero)).1.words.head?
    = some (bfpOf 7864320 (-21)) := by decide +kernel
/-- R404, R407: ECHO of two words answers with two words, and the mailbox is no longer busy. -/
theorem test_echo_answers : (match exec (.echo 3) ⟨mailbox 1 2 base, []⟩ with
    | .next s => s.mach.get (F.MBX_STAT_resp_len 3) == 2 && !s.mach.mbxBusy 3 | _ => false) = true := by decide +kernel
theorem test_step_takes_front : (match step ⟨base, [.nop, .swStop 1]⟩ with
    | .next s => s.pending.length == 1 | _ => false) = true := by decide +kernel
/-- Ch. 07: the worked encodings of R229 and R231. -/
theorem test_relud_words : reludAt 0x80821903 none = (1, some (.vmac 4 2 3 1))
    ∧ reludAt 0xFC001234 (some 0x04A00056) = (2, some (.addi 5 0 (.long 0x00123456))) := by decide +kernel
/-- R230 to R232: a prefix at the program's end, a prefix before a prefix, a bad mask field and a reserved func are no instruction. -/
theorem test_relud_illegal : reludAt 0xFC001234 none = (1, none) ∧ reludAt 0xFC001234 (some 0xFC001234) = (2, none)
    ∧ reludShort 0x91000000 = none ∧ reludShort 0x800000FF = none := by decide +kernel

end Sys2Proof.Tests
end

/-! # The stores keep their canonical form

Registers and memory are sparse maps, and every update of the module goes through a handful of writers. One lemma for each
function of the model says that it keeps both in canonical form; each proof repeats the function's own composition. -/

section

namespace Sys2Proof.Machine

variable {m : Mach}

/-! ## The invariant -/

/-- Registers and memory in canonical form. -/
def Mach.Wf (m : Mach) : Prop := canonical resetWord m.regs = true ∧ Memory.wf m.mem = true

theorem State.inv_iff (s : State) : s.Inv ↔ s.mach.Wf := by
  unfold State.Inv Mach.storesWf Mach.Wf
  exact Bool.and_eq_true_iff

/-- What an instruction's body leaves, completed or trapped, has canonical stores. -/
inductive Issued.Wf : Issued → Prop
  | done {m : Mach} (h : m.Wf) : Issued.Wf (.done m)
  | trapped {m : Mach} {cause lane : Nat} (h : m.Wf) : Issued.Wf (.trapped m cause lane)

/-- Where a command answers a next state, its stores are in canonical form. -/
def KeepsStores (o : Host.Outcome State Fault Refusal) : Prop := ∀ t, o = .next t → t.mach.Wf

/-- The updates of a list keep the canonical form. -/
inductive Updates : List (Mach → Mach) → Prop
  | nil : Updates []
  | cons {f : Mach → Mach} {fs : List (Mach → Mach)} (hf : ∀ {m : Mach}, m.Wf → (f m).Wf) (hs : Updates fs) : Updates (f :: fs)

/-! ## Combinators -/

/-- The fields other than the two stores do not matter. -/
theorem Mach.Wf.mk {lifeCycle runState role ringBroken supply law refSrc power chain fly spin prog sense safety pair time host
    can0 can1 memi mgmt latches out answer freeTick} (h : m.Wf) :
    (Mach.mk lifeCycle runState role ringBroken supply law refSrc m.regs m.mem power chain fly spin prog sense safety pair
      time host can0 can1 memi mgmt latches out answer freeTick).Wf := h

section Combinators

variable {α β : Type}

theorem Mach.Wf.ite {c : Prop} {_ : Decidable c} {k n : Mach} (hk : k.Wf) (hn : n.Wf) : (if c then k else n).Wf := by
  split
  · exact hk
  · exact hn

theorem Mach.Wf.ite_fst {c : Prop} {_ : Decidable c} {p q : Mach × β} (hp : p.1.Wf) (hq : q.1.Wf) :
    (if c then p else q).1.Wf := by
  split
  · exact hp
  · exact hq

theorem Mach.Wf.ite_snd {c : Prop} {_ : Decidable c} {p q : β × Mach} (hp : p.2.Wf) (hq : q.2.Wf) :
    (if c then p else q).2.Wf := by
  split
  · exact hp
  · exact hq

theorem Mach.Wf.ite_snd_snd {c : Prop} {_ : Decidable c} {p q : α × β × Mach} (hp : p.2.2.Wf) (hq : q.2.2.Wf) :
    (if c then p else q).2.2.Wf := by
  split
  · exact hp
  · exact hq

theorem Mach.Wf.when {c : Bool} {f : Mach → Mach} (h : m.Wf) (hf : ∀ {m}, m.Wf → (f m).Wf) : (m.when c f).Wf := .ite (hf h) h

theorem Mach.Wf.each_mem {l : List α} {f : Mach → α → Mach} (h : m.Wf) (hf : ∀ a ∈ l, ∀ {m}, m.Wf → (f m a).Wf) :
    (m.each l f).Wf := List.foldlRecOn l f h fun _ hm a ha => hf a ha hm

theorem Mach.Wf.each {l : List α} {f : Mach → α → Mach} (h : m.Wf) (hf : ∀ {m a}, m.Wf → (f m a).Wf) : (m.each l f).Wf :=
  .each_mem h fun _ _ => hf

theorem Mach.Wf.foldl {l : List α} {f : Mach → α → Mach} (h : m.Wf) (hf : ∀ {m a}, m.Wf → (f m a).Wf) : (l.foldl f m).Wf :=
  .each h hf

theorem Mach.Wf.foldl_snd {l : List α} {f : β × Mach → α → β × Mach} {p : β × Mach} (h : p.2.Wf)
    (hf : ∀ {q a}, q.2.Wf → (f q a).2.Wf) : (l.foldl f p).2.Wf :=
  List.foldlRecOn (motive := fun q => q.2.Wf) l f h fun _ hq _ _ => hf hq

theorem Updates.foldl {fs : List (Mach → Mach)} (hs : Updates fs) (h : m.Wf) :
    (fs.foldl (fun x f => if x.bad then x else f x) m).Wf := by
  induction hs generalizing m with
  | nil => exact h
  | cons hf _ ih => exact ih (.ite h (hf h))

theorem Issued.Wf.ite {c : Prop} {_ : Decidable c} {i j : Issued} (hi : i.Wf) (hj : j.Wf) : (if c then i else j).Wf := by
  split
  · exact hi
  · exact hj

theorem Issued.Wf.getD {o : Option Issued} {i : Issued} (ho : ∀ {j}, o = some j → j.Wf) (hi : i.Wf) : (o.getD i).Wf := by
  cases o with
  | none => exact hi
  | some j => exact ho rfl

end Combinators

theorem KeepsStores.eff {s : State} (h : m.Wf) : KeepsStores (eff s m) := by
  rintro _ ⟨⟩
  exact h

/-! ## Writers -/

theorem Mach.Wf.wr {a : Nat} {w : Word} (h : m.Wf) : (m.wr a w).Wf := ⟨Mach.wr_canonical a w h.1, h.2⟩

theorem Mach.Wf.set {f : Field} {v : Nat} (h : m.Wf) : (m.set f v).Wf := .wr h

theorem Mach.Wf.reset : Mach.reset.Wf := ⟨rfl, rfl⟩

theorem Mach.Wf.setB {f : Field} {b : Bool} (h : m.Wf) : (m.setB f b).Wf := .set h

theorem Mach.Wf.on {f : Field} (h : m.Wf) : (m.on f).Wf := .set h

theorem Mach.Wf.off {f : Field} (h : m.Wf) : (m.off f).Wf := .set h

theorem Mach.Wf.setBit {a i : Nat} {b : Bool} (h : m.Wf) : (m.setBit a i b).Wf := .wr h

theorem Mach.Wf.count {a : Nat} (h : m.Wf) : (m.count a).Wf := .wr h

theorem Mach.Wf.clearRegs {as : List Nat} (h : m.Wf) : (m.clearRegs as).Wf := .each h .wr

theorem Mach.Wf.resetRange {lo hi : Nat} (h : m.Wf) (hl : lo ≤ hi) : (m.resetRange lo hi).Wf :=
  ⟨Mach.resetRange_canonical hl h.1, h.2⟩

theorem Mach.Wf.mark {t : Timer} (h : m.Wf) : (m.mark t).Wf := .mk h

theorem Mach.Wf.unmark {t : Timer} (h : m.Wf) : (m.unmark t).Wf := .mk h

theorem Mach.Wf.advanceTo {ns : Nat} (h : m.Wf) : (m.advanceTo ns).Wf := .ite h (.mk h)

theorem Mach.Wf.send {o : Out} (h : m.Wf) : (m.send o).Wf := .mk h

theorem Mach.Wf.log {cls : Byte} {ev master : Nat} {d0 d1 : Word} (h : m.Wf) : (m.log cls ev master d0 d1).Wf :=
  .ite (.on (.count (.mk (.wr h)))) (.mk (.wr h))

theorem Mach.Wf.freeTicked (h : m.Wf) : m.freeTicked.Wf := .mk h

theorem Mach.Wf.refuse {code : BitVec 16} {aux : Word} (h : m.Wf) : (m.refuse code aux).Wf := .mk h

theorem Mach.Wf.ok {ws : List Word} (h : m.Wf) : (m.ok ws).Wf := .mk h

/-! ## What several chapters share -/

theorem Mach.Wf.zeroise {lo hi : Nat} (h : m.Wf) (hl : lo ≤ hi) : (m.zeroise lo hi).Wf := ⟨h.1, zeroise_wf hl h.2⟩

theorem Mach.Wf.noProgram (h : m.Wf) : m.noProgram.Wf := .wr h

theorem Mach.Wf.domainClear {x : Domain} (h : m.Wf) : (m.domainClear x).Wf := by
  unfold Mach.domainClear
  split
  · exact .mk (.each (.wr (.resetRange (.resetRange (.resetRange h (by decide)) (by decide)) (by decide))) .wr)
  · exact .mk (.zeroise (.zeroise (.noProgram (.zeroise (.resetRange h (by decide)) (by decide))) (by decide)) (by decide))
  · exact .zeroise h (by decide)
  · exact .zeroise h (by decide)
  · exact .mk (.resetRange h (by decide))
  · exact .mk (.setBit (.resetRange h (by decide)))
  · exact .mk (.setB (.resetRange h (by decide)))
  · exact .mk (.resetRange h (by decide))
  · exact .mk (.resetRange h (by decide))
  · exact h

theorem Mach.Wf.irqSettle (h : m.Wf) : m.irqSettle.Wf := .ite h (.mk h)

theorem Mach.Wf.domainReset {d : Domain} (h : m.Wf) : (m.domainReset d).Wf := .irqSettle (.mk (.domainClear h))

theorem Mach.Wf.domainOff {d : Domain} (h : m.Wf) : (m.domainOff d).Wf := .set (.domainReset h)

theorem Mach.Wf.domainStart {d : Domain} (h : m.Wf) : (m.domainStart d).Wf := .ite h (.set (.domainReset h))

theorem Mach.Wf.domainOn {d : Domain} (h : m.Wf) : (m.domainOn d).Wf := .ite h (.set (.domainReset h))

theorem Mach.Wf.chargerSet (h : m.Wf) : m.chargerSet.Wf := .when (.setB (.when h .freeTicked)) .mk

theorem Mach.Wf.storeSettle (h : m.Wf) : m.storeSettle.Wf := .chargerSet (.when h (fun h => .set (.freeTicked h)))

theorem Mach.Wf.storeDrain {pct : Nat} (h : m.Wf) : (m.storeDrain pct).Wf := .set (.freeTicked h)

theorem Mach.Wf.access {a : Nat} {f : Mach → Mach} (h : m.Wf) (hf : ∀ {m}, m.Wf → (f m).Wf) : (m.access a f).Wf := by
  unfold Mach.access
  split
  · exact .refuse h
  · exact .ite (.ite (.mk h) (.refuse h)) (hf (.ok h))

theorem Mach.Wf.captureUnit {u : Nat} (h : m.Wf) : (m.captureUnit u).Wf :=
  .ite h (.ite (.count (.on h)) (.on (.on (.setB (.set (.wr h))))))

theorem Mach.Wf.captureSource {c : Nat} (h : m.Wf) : (m.captureSource c).Wf := .each h (fun h => .when h .captureUnit)

theorem Mach.Wf.setCan {x : Nat} {p : CanPort} (h : m.Wf) : (m.setCan x p).Wf := .ite (.mk h) (.mk h)

theorem Mach.Wf.canRegs {x b : Nat} {f : CanFrame} (h : m.Wf) : (m.canRegs x b f).Wf := .each (.wr (.wr h)) .wr

theorem Mach.Wf.canCommit {x b : Nat} (h : m.Wf) : (m.canCommit x b).Wf := .when (.setCan h) .on

theorem Mach.Wf.canLoad {x id dlc : Nat} {bytes : List Byte} (h : m.Wf) : (m.canLoad x id dlc bytes).Wf :=
  .ite (.canCommit (.on (.on (.canRegs h)))) h

theorem Mach.Wf.canFixed {x : Nat} (h : m.Wf) : (m.canFixed x).Wf := .on (.off (.wr (.wr (.on (.on (.wr h))))))

theorem Mach.Wf.canStart {x : Nat} (h : m.Wf) : (m.canStart x).Wf := .setCan (.canFixed h)

theorem Mach.Wf.canPair (h : m.Wf) : m.canPair.Wf := .when h .canFixed

theorem Mach.Wf.energiseTrip (h : m.Wf) : m.energiseTrip.Wf := .ite (.on (.on (.ite h (.mk h)))) h

theorem Mach.Wf.releaseTripHs (h : m.Wf) : m.releaseTripHs.Wf := .mk (.when (.off h) .captureSource)

theorem Mach.Wf.releaseTripLs (h : m.Wf) : m.releaseTripLs.Wf := .mk (.off h)

theorem Mach.Wf.startTripRule (h : m.Wf) : m.startTripRule.Wf := .ite (.mk h) h

theorem Mach.Wf.sendXl {f : XlFrame} (h : m.Wf) : (m.sendXl f).Wf := .ite (.mk (.send h)) h

theorem Mach.Wf.sendMirror {i : MirrorItem} (h : m.Wf) : (m.sendMirror i).Wf := .mk (.sendXl h)

theorem Mach.Wf.blockTake {k : Nat} {w c : Word} (h : m.Wf) : (m.blockTake k w c).Wf := .ite (.when (.wr h) .mk) h

theorem Mach.Wf.setAllBlock {w : Word} (h : m.Wf) : (m.setAllBlock w).Wf :=
  .each h (fun h => .blockTake (.when h .sendMirror))

theorem Mach.Wf.resyncAbort (h : m.Wf) : m.resyncAbort.Wf := .ite (.mk (.when (.off h) .on)) h

theorem Mach.Wf.sweepEnd (h : m.Wf) : m.sweepEnd.Wf := .mk (.on (.set (.set (.off h))))

theorem Mach.Wf.standBy (h : m.Wf) : m.standBy.Wf := .mk (.wr h)

theorem Mach.Wf.ownSetpoint (h : m.Wf) : m.ownSetpoint.Wf := .when h .wr

theorem Mach.Wf.releaseClaim {c : ClaimCause} (h : m.Wf) : (m.releaseClaim c).Wf :=
  .ite (.when (.captureSource (.when (.mk (.sendXl (.on (.set (.off (.resyncAbort h)))))) .sweepEnd)) .standBy) h

theorem Mach.Wf.dissolvePair (h : m.Wf) : m.dissolvePair.Wf := .canPair (.mk (.ownSetpoint (.releaseClaim h)))

theorem Mach.Wf.setPort {p : Port} {x : PortState} (h : m.Wf) : (m.setPort p x).Wf := by
  unfold Mach.setPort
  split <;> exact .mk h

theorem Mach.Wf.overNodes {p : Port} {f : Nat → NodeModel → NodeModel} (h : m.Wf) : (m.overNodes p f).Wf := .mk h

theorem Mach.Wf.sendSymbols {p : Port} {l : List Symbol} (h : m.Wf) : (m.sendSymbols p l).Wf := .overNodes (.send h)

theorem Mach.Wf.stopRun {p : Port} (h : m.Wf) : (m.stopRun p).Wf := .overNodes (.send h)

theorem Mach.Wf.arrayUnload (h : m.Wf) : m.arrayUnload.Wf := .mk (.set (.when h (fun h => .when (.set h) .set)))

theorem Mach.Wf.cyclesStart (h : m.Wf) : m.cyclesStart.Wf := .on (.wr (.wr (.wr (.wr h))))

theorem Mach.Wf.cyclesStop (h : m.Wf) : m.cyclesStop.Wf :=
  .mk (.when (.arrayUnload (.off (.off (.off (.set (.off (.off (.off (.off h))))))))) .sweepEnd)

theorem Mach.Wf.prechargeFailed {code : Nat} (h : m.Wf) : (m.prechargeFailed code).Wf := .ite (.on (.set (.set h))) h

theorem Mach.Wf.recordRun {dst : RunState} {cause : Nat} (h : m.Wf) : (m.recordRun dst cause).Wf :=
  .mk (.when (.on (.wr (.set h))) .sendMirror)

theorem Mach.Wf.toRun {dst : RunState} {cause : Nat} (h : m.Wf) : (m.toRun dst cause).Wf :=
  .when (.when (.when (.when (.when (.when (.when (.when (.when (.when (.when (.recordRun h) .prechargeFailed)
    (fun h => .mk (.cyclesStart h))) .mk) .off) (fun h => .dissolvePair (.cyclesStop h))) .releaseClaim) .mk) .mk) .set)
    .startTripRule) (fun h => .mk (.log (.setAllBlock h)))

theorem Mach.Wf.demandStop {src : StopSrc} (h : m.Wf) : (m.demandStop src).Wf :=
  .ite (.ite (.on (.on h)) (.when (.captureSource (.mk (.each (.count (.on (.on (.on (.on h))))) .stopRun))) .sendXl)) h

theorem Mach.Wf.stopWith {src : StopSrc} (h : m.Wf) : (m.stopWith src).Wf := .when (.demandStop h) .toRun

theorem Mach.Wf.withdrawStop {src : StopSrc} (h : m.Wf) : (m.withdrawStop src).Wf := .off h

theorem Mach.Wf.loopOpens (h : m.Wf) : m.loopOpens.Wf := .when (.mk (.freeTicked (.set (.off h)))) .captureSource

theorem Mach.Wf.permits (h : m.Wf) : m.permits.Wf :=
  .when (.when (.setB (.setB (.setB (.setB (.setB h))))) .on) (fun h => .startTripRule (.on h))

theorem Mach.Wf.recordCause {c : SafetyCause} {opens : Bool} (h : m.Wf) : (m.recordCause c opens).Wf :=
  .log (.permits (.when (.startTripRule (.when (.mk (.when (.on (.when (.set (.set h)) .set)) .captureSource)) .loopOpens))
    (fun h => .when (.demandStop h) .withdrawStop)))

theorem Mach.Wf.causeRun {c : SafetyCause} {latchedCause : Nat} (h : m.Wf) : (m.causeRun c latchedCause).Wf :=
  .ite (.when h .toRun) (.when h .toRun)

theorem Mach.Wf.safetyCause {c : SafetyCause} {latchedCause : Nat} (h : m.Wf) : (m.safetyCause c latchedCause).Wf :=
  .causeRun (.recordCause h)

theorem Mach.Wf.endCond {c : SafetyCause} (h : m.Wf) : (m.endCond c).Wf := .permits (.when (.mk h) .withdrawStop)

theorem Mach.Wf.safFault {f : Field} (h : m.Wf) : (m.safFault f).Wf := .on (.on h)

theorem Mach.Wf.openRequest (h : m.Wf) : m.openRequest.Wf := .mark (.mk (.startTripRule h))

theorem Mach.Wf.guardSteps {cause : Nat} (h : m.Wf) : (m.guardSteps cause).Wf :=
  .ite (.openRequest (.demandStop h)) (.toRun (.openRequest (.demandStop h)))

/-! ## The tick -/

theorem Mach.Wf.tick (h : m.Wf) : m.tick.Wf := .mk h

theorem Mach.Wf.passTo {ns : Nat} (h : m.Wf) : (m.passTo ns).Wf := .mk (.advanceTo h)

theorem Mach.Wf.passUntil {t0 ns : Nat} (h : m.Wf) : (m.passUntil t0 ns).Wf := .passTo h

theorem Mach.Wf.await {t : Timer} {ns : Nat} (h : m.Wf) : (m.await t ns).Wf := by
  unfold Mach.await
  split
  · exact h
  · exact .passUntil h

theorem Mach.Wf.inCycle {ns : Nat} {f : Mach → Mach} (h : m.Wf) (hf : ∀ {m}, m.Wf → (f m).Wf) : (m.inCycle ns f).Wf :=
  .ite (hf (.passTo h)) h

/-! ## The safety island -/

theorem Mach.Wf.keyAbort {master : Nat} (h : m.Wf) : (m.keyAbort master).Wf := .mk (.on (.set (.set h)))

theorem Mach.Wf.keyDone {master result : Nat} (h : m.Wf) : (m.keyDone master result).Wf := .mk (.set (.set h))

theorem Mach.Wf.paramLoad (h : m.Wf) : m.paramLoad.Wf :=
  .ite (.endCond (.mk (.set (.on (.wr (.wr h)))))) (.safetyCause (.safFault (.off h)))

theorem Mach.Wf.keyWrite {master : Nat} {key : Word} (h : m.Wf) : (m.keyWrite master key).Wf := by
  unfold Mach.keyWrite
  split
  · exact .ite (.mk h) (.keyAbort h)
  · exact .ite (.ite (.ite (.mk (.on (.keyDone h))) (.keyDone h)) (.ite (.paramLoad (.keyDone h)) (.keyDone h))) (.keyAbort h)

theorem Mach.Wf.disarm (h : m.Wf) : m.disarm.Wf := .mk (.off h)

theorem Mach.Wf.faultReset (h : m.Wf) : m.faultReset.Wf :=
  .ite (.when (.permits (.mk (.disarm (.set (.setB (.wr h)))))) .toRun) h

theorem Mach.Wf.discSettle (h : m.Wf) : m.discSettle.Wf := .ite h (.ite (.endCond h) h)

theorem Mach.Wf.doorTest {a b : Bool} (h : m.Wf) : (m.doorTest a b).Wf := .ite (.mk h) (.ite (.permits (.on h)) h)

theorem Mach.Wf.inputChange {i : ContactInput} {c : Channel} {on : Bool} (h : m.Wf) : (m.inputChange i c on).Wf := by
  unfold Mach.inputChange
  extract_lets n1 a b n2 rt k n3 l
  have hk : k.Wf := .mk (.when (.setB h) .mark)
  have hl : l.Wf := .discSettle (.ite (.ite (.endCond hk) (.permits hk)) (.ite hk (.safetyCause hk)))
  split
  · exact .doorTest hl
  · exact hl

theorem Mach.Wf.inputDiscrepancy {i : ContactInput} (h : m.Wf) : (m.inputDiscrepancy i).Wf :=
  .ite h (.safetyCause (.when (.mk (.safFault (.await h))) .off))

theorem Mach.Wf.loopShort {hvil short : Bool} (h : m.Wf) : (m.loopShort hvil short).Wf := .mk h

theorem Mach.Wf.elementsClosed (h : m.Wf) : m.elementsClosed.Wf := .mk h

theorem Mach.Wf.hvilOpens (h : m.Wf) : m.hvilOpens.Wf := .freeTicked (.set (.off h))

theorem Mach.Wf.linkLoss {c : Channel} (h : m.Wf) : (m.linkLoss c).Wf := .safetyCause (.mk (.safFault (.off h)))

theorem Mach.Wf.tripSwitchOff {x : Channel} (h : m.Wf) : (m.tripSwitchOff x).Wf := by
  unfold Mach.tripSwitchOff
  split
  · exact .releaseTripHs h
  · exact .releaseTripLs h

theorem Mach.Wf.outputTest {c : Channel} {o : Drive} {ok : Bool} (h : m.Wf) : (m.outputTest c o ok).Wf :=
  .ite h (.ite (.when (.count h) .tripSwitchOff) (.ite (.permits (.mk h))
    (.when (.safetyCause (.mk (.safFault h))) .tripSwitchOff)))

theorem Mach.Wf.sourcePulse {c : Channel} (h : m.Wf) : (m.sourcePulse c).Wf := .ite h (.send (.mk h))

theorem Mach.Wf.tripRelease (h : m.Wf) : m.tripRelease.Wf := by
  unfold Mach.tripRelease
  split
  · exact h
  · exact .ite h (.releaseTripHs (.passUntil h))

theorem Mach.Wf.sendStatus {echo : Word} (h : m.Wf) : (m.sendStatus echo).Wf := .mk (.canLoad (.each h .send))

theorem Mach.Wf.telDemand {c : SafetyCause} {seq : Word} (h : m.Wf) : (m.telDemand c seq).Wf :=
  .ite h (.safetyCause (.mark (.mk (.when h .on))))

theorem Mach.Wf.tripConfirmed (h : m.Wf) : m.tripConfirmed.Wf := .mk (.off h)

theorem Mach.Wf.telConfirm {seq : Word} {bs : List Byte} (h : m.Wf) : (m.telConfirm seq bs).Wf := by
  refine .sendStatus (.when (.permits (.when (.when (.when (.mk (.on (.wr ?_))) .endCond) .endCond) .endCond)) .faultReset)
  split
  · exact .ite (.tripConfirmed h) h
  · exact .ite (.tripConfirmed h) h
  · exact h

theorem Mach.Wf.pathAlive {p : TelPath} {seq : Word} (h : m.Wf) : (m.pathAlive p seq).Wf :=
  .ite (.mk h) (.mk (.off (.mark h)))

theorem Mach.Wf.telegramRx {p : TelPath} {bs : List Byte} (h : m.Wf) : (m.telegramRx p bs).Wf := by
  unfold Mach.telegramRx
  extract_lets seq n _ t gap n1 _ n2 k
  have hn : n.Wf := .pathAlive h
  have hk : k.Wf := .permits (.mk (.when hn .count))
  refine .ite (.ite h ?_) (.count h)
  split
  next => exact .ite (.permits (.mk hn)) (.safetyCause (.safFault (.mk hn)))
  next =>
    refine .ite ?_ (.count h)
    split
    · exact .ite (.telConfirm hn) (.safetyCause (.safFault (.mk hn)))
    · exact .ite (.telDemand hk) (.ite hk (.telDemand hk))

theorem Mach.Wf.telWindow (h : m.Wf) : m.telWindow.Wf := by
  unfold Mach.telWindow
  split
  · exact h
  · exact .telConfirm (.mk (.count (.passUntil h)))

theorem Mach.Wf.pathLoss {p : TelPath} (h : m.Wf) : (m.pathLoss p).Wf := by
  unfold Mach.pathLoss
  extract_lets f n was k
  have hk : k.Wf := .when (.on (.await h)) .on
  exact .ite (.ite (.mk (.off hk)) (.safetyCause (.mk (.off hk))))
    (.ite (.ite (.mk (.off hk)) (.safetyCause (.mk (.off hk)))) (.permits hk))

/-! ## The CAN ports -/

theorem Mach.Wf.canState {x : Nat} (h : m.Wf) : (m.canState x).Wf := .ite h (.when (.set h) .on)

theorem Mach.Wf.canAdd {x tec rec' : Nat} (h : m.Wf) : (m.canAdd x tec rec').Wf :=
  .ite (.setCan (.count (.on (.set (.freeTicked (.set (.set h))))))) (.canState (.set (.set h)))

theorem Mach.Wf.canSentOk {x : Nat} (h : m.Wf) : (m.canSentOk x).Wf := .canState (.set h)

theorem Mach.Wf.canGotOk {x : Nat} (h : m.Wf) : (m.canGotOk x).Wf := .canState (.ite (.set h) (.freeTicked (.set h)))

theorem Mach.Wf.canError {x : Nat} {kind : CanErr} {inData : Bool} {tec rec' : Nat} (h : m.Wf) :
    (m.canError x kind inData tec rec').Wf :=
  .ite (.canAdd (.count (.setB (.set h)))) h

theorem Mach.Wf.canRecover {x : Nat} (h : m.Wf) : (m.canRecover x).Wf := .ite (.setCan h) h

theorem Mach.Wf.canFresh {x : Nat} (h : m.Wf) : (m.canFresh x).Wf := .setCan (.set (.set (.set h)))

theorem Mach.Wf.canJoining {x : Nat} (h : m.Wf) : (m.canJoining x).Wf := .setCan (.set (.canFresh h))

theorem Mach.Wf.canRecovered {x : Nat} (h : m.Wf) : (m.canRecovered x).Wf := .ite (.on (.canFresh (.passUntil h))) h

theorem Mach.Wf.canJoin {x : Nat} (h : m.Wf) : (m.canJoin x).Wf := .ite (.set (.passUntil h)) h

theorem Mach.Wf.ringPut {r : Nat} (h : m.Wf) : (m.ringPut r).Wf := .set h

theorem Mach.Wf.ringTake {r : Nat} (h : m.Wf) : (m.ringTake r).Wf := .set h

theorem Mach.Wf.canRecord {x : Nat} {f : CanFrame} {stamp : Word} (h : m.Wf) : (m.canRecord x f stamp).Wf :=
  .ite (.when (.ringPut (.setCan h)) .ringTake) h

theorem Mach.Wf.canSent {x b tdcv sofNs : Nat} (h : m.Wf) : (m.canSent x b tdcv sofNs).Wf :=
  .ite (.send (.canRecord (.canSentOk (.when (.when (.wr (.count (.set (.off h)))) .on) .set)))) h

theorem Mach.Wf.canClash {x b : Nat} {bitErr : Bool} (h : m.Wf) : (m.canClash x b bitErr).Wf :=
  .ite (.when (.when (.set h) (fun h => .canError (.freeTicked h))) (fun h => .log (.on (.when (.off (.on h)) .setCan)))) h

theorem Mach.Wf.canResume {x b : Nat} (h : m.Wf) : (m.canResume x b).Wf := .ite (.on (.set (.off h))) h

theorem Mach.Wf.fixedResume {x : Nat} (h : m.Wf) : (m.fixedResume x).Wf := .ite (.canResume (.passUntil h)) h

theorem Mach.Wf.canFifo {x : Nat} {f : CanFrame} {stamp : Word} (h : m.Wf) : (m.canFifo x f stamp).Wf :=
  .ite (.on (.count h)) (.on (.set (.ringPut (.setCan h))))

theorem Mach.Wf.canStore {x b : Nat} {f : CanFrame} {stamp : Word} (h : m.Wf) : (m.canStore x b f stamp).Wf :=
  .ite (.telegramRx (.wr (.canRegs h))) (.on (.on (.when (.wr (.canRegs h)) (fun h => .count (.on h)))))

theorem Mach.Wf.canGot {x : Nat} {raw : CanFrame} {sofNs : Nat} (h : m.Wf) : (m.canGot x raw sofNs).Wf := by
  refine .ite (.ite (.when (.when (.canGotOk (.count h)) (fun h => .on (.count h))) .canFifo) ?_) h
  split
  · exact .canStore (.when (.canGotOk (.count h)) (fun h => .on (.count h)))
  · exact .when (.when (.canGotOk (.count h)) (fun h => .on (.count h))) .canFifo

theorem Mach.Wf.canHost {x b : Nat} {f : Mach → Mach} (h : m.Wf) (hf : ∀ {m}, m.Wf → (f m).Wf) : (m.canHost x b f).Wf :=
  .access h (fun h => .ite (.refuse h) (hf h))

theorem Mach.Wf.mbCommit {x b : Nat} (h : m.Wf) : (m.mbCommit x b).Wf := .ite h (.ite (.canCommit h) (.refuse h))

theorem Mach.Wf.canFree {master x b : Nat} (h : m.Wf) : (m.canFree master x b).Wf := .off (.when h .off)

theorem Mach.Wf.canPop {x : Nat} (h : m.Wf) : (m.canPop x).Wf := .set (.setCan (.when h .ringTake))

theorem Mach.Wf.canReinit {x : Nat} (h : m.Wf) : (m.canReinit x).Wf :=
  .canFixed (.each (.set (.set (.setCan (.canJoining h)))) (fun h => .when (.set (.off (.off h))) .off))

/-! ## Accesses to SRAM -/

theorem Mach.Wf.errLoc {a cls agent syndrome : Nat} (h : m.Wf) : (m.errLoc a cls agent syndrome).Wf :=
  .set (.set (.set (.set (.set h))))

theorem Mach.Wf.poisonHit {a agent : Nat} (h : m.Wf) : (m.poisonHit a agent).Wf := .on (.count (.ite (.mk h) (.errLoc h)))

theorem Mach.Wf.laneInval {n : Nat} (h : m.Wf) : (m.laneInval n).Wf := .on (.setBit (.mk h))

theorem Mach.Wf.poisonWord {a : Nat} (h : m.Wf) : (m.poisonWord a).Wf := .when ⟨h.1, writeBytes_wf _ _ h.2⟩ .laneInval

theorem Mach.Wf.meetOne {agent : Nat} {u : Upset} (h : m.Wf) : (m.meetOne agent u).Wf :=
  .ite (.mk (.count (.errLoc (.poisonWord (.mk h))))) (.on (.count (.errLoc (.mk h))))

theorem Mach.Wf.meet {a n agent : Nat} (h : m.Wf) : (m.meet a n agent).Wf := .each h .meetOne

theorem Mach.Wf.mergeMeet {a agent : Nat} (h : m.Wf) : (m.mergeMeet a agent).Wf := by
  unfold Mach.mergeMeet
  split
  · exact h
  · exact .when (.meetOne h) .count

theorem Mach.Wf.abandonWrite {agent a : Nat} (h : m.Wf) : (m.abandonWrite agent a).Wf :=
  .when (.on (.count (.ite (.mk h) (.errLoc h)))) .laneInval

theorem Mach.Wf.storeFull {a : Nat} {ws : List Word} (h : m.Wf) : (m.storeFull a ws).Wf := ⟨h.1, writeMemWords_wf a ws h.2⟩

theorem Mach.Wf.storeWhole {a : Nat} {ws : List Word} (h : m.Wf) : (m.storeWhole a ws).Wf := .storeFull h

theorem Mach.Wf.storeAs {agent a : Nat} {w : Word} (h : m.Wf) : (m.storeAs agent a w).Wf :=
  have hm : (m.mergeMeet a agent).Wf := .mergeMeet h
  .ite (.abandonWrite hm) ⟨hm.1, writeMemWord_wf a w hm.2⟩

theorem Mach.Wf.storeWord {a : Nat} {w : Word} (h : m.Wf) : (m.storeWord a w).Wf := .storeAs h

theorem Mach.Wf.storeWords {a : Nat} {ws : List Word} (h : m.Wf) : (m.storeWords a ws).Wf := by
  fun_induction Mach.storeWords m a ws with
  | case1 => exact h
  | case2 => exact .storeWord h
  | case3 _ _ _ _ _ _ ih => exact ih (.storeFull h)
  | case4 _ _ _ _ _ _ ih => exact ih (.storeWord h)

theorem Mach.Wf.noteStore {a : Nat} {ws : List Word} (h : m.Wf) : (m.noteStore a ws).Wf := by
  unfold Mach.noteStore
  split
  · exact h
  · exact .ite (.ite (.resyncAbort h) (.mk h)) h

theorem Mach.Wf.laneFull {a : Nat} {ws : List Word} (h : m.Wf) : (m.laneFull a ws).Wf := .storeFull (.noteStore h)

theorem Mach.Wf.laneWord {a : Nat} {w : Word} (h : m.Wf) : (m.laneWord a w).Wf := .storeAs (.noteStore h)

/-! ## What ends with its holder -/

theorem Mach.Wf.mbxPut {b : Nat} {err : BitVec 16} {aux : Nat} {ws : List Word} (h : m.Wf) : (m.mbxPut b err aux ws).Wf :=
  .ite (.wr (.mk (.off h))) (.setBit (.set (.set (.set (.each (.mk (.off h)) .wr)))))

theorem Mach.Wf.mbxReject (h : m.Wf) : m.mbxReject.Wf := by
  refine .each h (fun h => .ite ?_ h)
  split
  · exact .mbxPut h
  · exact h

theorem Mach.Wf.mbxAnswer {b : Nat} {err : BitVec 16} {aux : Nat} {ws : List Word} (h : m.Wf) : (m.mbxAnswer b err aux ws).Wf :=
  .mbxReject (.mbxPut h)

theorem Mach.Wf.mbxFlush {err : BitVec 16} (h : m.Wf) : (m.mbxFlush err).Wf := .each h .mbxAnswer

theorem Mach.Wf.opSchedule (h : m.Wf) : m.opSchedule.Wf := .each h (fun h => .when h .set)

theorem Mach.Wf.updTouch (h : m.Wf) : m.updTouch.Wf := .mk h

theorem Mach.Wf.updUse {n : Nat} (h : m.Wf) : (m.updUse n).Wf := .when h .updTouch

theorem Mach.Wf.opFinal {n st : Nat} {err : BitVec 16} {aux : Nat} (h : m.Wf) : (m.opFinal n st err aux).Wf :=
  .opSchedule (.mk (.setBit (.set (.set (.off (.when (.set (.updUse h)) .set))))))

theorem Mach.Wf.opFail {n : Nat} {err : BitVec 16} {aux : Nat} (h : m.Wf) : (m.opFail n err aux).Wf := .opFinal h

theorem Mach.Wf.opRecord {n : Nat} {ws : List Word} (h : m.Wf) : (m.opRecord n ws).Wf := .set (.each h .wr)

theorem Mach.Wf.opProgress {n : Nat} (h : m.Wf) : (m.opProgress n).Wf := by
  unfold Mach.opProgress
  dsimp only
  split
  · exact .set h
  · exact .set h
  · exact h

theorem Mach.Wf.opPump {n : Nat} (h : m.Wf) : (m.opPump n).Wf :=
  .ite (.mk (.mk (.setB (.opProgress (.each h .opRecord))))) (.mk (.setB (.opProgress (.each h .opRecord))))

theorem Mach.Wf.opGive {n : Nat} {rs : List (List Word)} (h : m.Wf) : (m.opGive n rs).Wf := .opPump (.mk h)

theorem Mach.Wf.opWork {n op : Nat} {err : Mach → Option (BitVec 16 × Nat)} {go : Mach → Mach} (h : m.Wf)
    (hf : ∀ {m}, m.Wf → (go m).Wf) : (m.opWork n op err go).Wf := by
  refine .ite ?_ h
  split
  · exact .opFail h
  · exact hf h

theorem Mach.Wf.opIdle {n : Nat} (h : m.Wf) : (m.opIdle n).Wf :=
  .wr (.resetRange (.clearRegs (.wr (.wr h))) (Nat.le_add_right _ _))

theorem Mach.Wf.opRelease {n : Nat} (h : m.Wf) : (m.opRelease n).Wf := .wr (.when h .opIdle)

theorem Mach.Wf.releaseLocks {master : Nat} (h : m.Wf) : (m.releaseLocks master).Wf := by
  unfold Mach.releaseLocks
  exact .when (.each (.each (.each h (fun h => .when h (fun h => .ite (.mk h) (.wr h)))) (fun h => .when h .wr))
    (fun h => .when h (fun h => .when (.opRelease h) .opFinal))) .wr

theorem Mach.Wf.setStage {st : Nat} (h : m.Wf) : (m.setStage st).Wf := .ite h (.on (.set h))

theorem Mach.Wf.xferClear (h : m.Wf) : m.xferClear.Wf := .resetRange h (by decide)

theorem Mach.Wf.updRelease (h : m.Wf) : m.updRelease.Wf := .mk (.xferClear (.set (.set h)))

theorem Mach.Wf.stagingClear (h : m.Wf) : m.stagingClear.Wf := .mk (.set (.set h))

theorem Mach.Wf.streamClear {s : Nat} (h : m.Wf) : (m.streamClear s).Wf := .mk (.resetRange h (Nat.le_add_right _ _))

theorem Mach.Wf.sessBit {s : Nat} {b : Bool} (h : m.Wf) : (m.sessBit s b).Wf := .setBit h

theorem Mach.Wf.closeSession {s : Nat} (h : m.Wf) : (m.closeSession s).Wf := by
  refine .ite ?_ h
  extract_lets n1 n2 n3 _ k l
  have hk : k.Wf := .mk (.each (.when (.releaseLocks h) .wr) (fun h => .when h .streamClear))
  have hl : l.Wf := by
    simp only [l]
    split
    · exact .ite (.keyAbort hk) hk
    · exact hk
  exact .on (.sessBit (.when hl .setStage))

theorem Mach.Wf.closeSessions (h : m.Wf) : m.closeSessions.Wf := .each h .closeSession

theorem Mach.Wf.idleClose {x : Nat} (h : m.Wf) : (m.idleClose x).Wf := by
  unfold Mach.idleClose
  split
  · exact h
  · exact .closeSession (.passUntil h)

theorem Mach.Wf.setAbsent {b : Bool} (h : m.Wf) : (m.setAbsent b).Wf := .mk h

theorem Mach.Wf.distaffDown {type : Nat} (h : m.Wf) : (m.distaffDown type).Wf := .setAbsent (.when (.log (.set h)) .mark)

theorem Mach.Wf.blockSettle (h : m.Wf) : m.blockSettle.Wf :=
  .ite (.mk (.setAllBlock h)) (.ite (.mk (.log (.setAllBlock h))) h)

theorem Mach.Wf.distaffUp (h : m.Wf) : m.distaffUp.Wf := by
  unfold Mach.distaffUp
  exact .blockSettle (.mk (.on (.count (.each (.releaseLocks (.each (.mbxFlush h) .opFinal)) .off))))

/-! ## Policing -/

theorem Mach.Wf.bucketTake {p b cost : Nat} (h : m.Wf) : (m.bucketTake p b cost).Wf := .mk h

theorem Mach.Wf.windowAdd {p rx drop : Nat} (h : m.Wf) : (m.windowAdd p rx drop).Wf := .mk h

theorem Mach.Wf.frameIn {p : Nat} (h : m.Wf) : (m.frameIn p).Wf := .windowAdd (.count h)

theorem Mach.Wf.police {p : Nat} {bs : List Nat} {cost : Nat} {pass : Mach → Mach} (h : m.Wf) (hf : ∀ {m}, m.Wf → (pass m).Wf) :
    (m.police p bs cost pass).Wf :=
  .ite (hf (.each h .bucketTake)) (.windowAdd (.count h))

theorem Mach.Wf.ptpIn {port : BitVec 1} {f : Mach → Mach} (h : m.Wf) (hf : ∀ {m}, m.Wf → (f m).Wf) : (m.ptpIn port f).Wf :=
  .ite (.police (.frameIn h) hf) h

/-! ## The time base -/

theorem Mach.Wf.openDiv {a : Int} {b : Nat} (h : m.Wf) : (m.openDiv a b).2.Wf := .ite_snd h (.freeTicked h)

theorem Mach.Wf.syncState {st : Nat} (h : m.Wf) : (m.syncState st).Wf := .ite h (.on (.set h))

theorem Mach.Wf.timeStat (h : m.Wf) : m.timeStat.Wf := .when (.when (.setB (.set (.when h .syncState))) .on) .on

theorem Mach.Wf.setDue {c : Nat} {t : Int} (h : m.Wf) : (m.setDue c t).Wf := .wr (.wr h)

theorem Mach.Wf.ppsLoad (h : m.Wf) : m.ppsLoad.Wf := .on (.on (.wr (.setDue h)))

theorem Mach.Wf.captureEdge {c : Nat} (h : m.Wf) : (m.captureEdge c).Wf := .mk (.captureSource (.mk h))

theorem Mach.Wf.cmpOutput {c : Nat} (h : m.Wf) : (m.cmpOutput c).Wf :=
  .ite (.when h (fun h => .captureEdge (.send h))) (.ite (.captureEdge (.send h)) h)

theorem Mach.Wf.cmpFire {c : Nat} (h : m.Wf) : (m.cmpFire c).Wf := .cmpOutput (.when (.on (.setBit h)) .setDue)

theorem Mach.Wf.cmpStep {due : Int} {c : Nat} (h : m.Wf) : (m.cmpStep due c).Wf :=
  .ite (.wr (.setDue (.cmpFire h))) (.cmpFire h)

theorem Mach.Wf.comparator {c : Nat} (h : m.Wf) : (m.comparator c).Wf := .ite (.cmpFire (.passTo h)) h

theorem Mach.Wf.setIncr {v : Int} (h : m.Wf) : (m.setIncr v).Wf := .mk (.wr (.wr h))

theorem Mach.Wf.incrWrite {master : Nat} {ns : BitVec 8} (h : m.Wf) : (m.incrWrite master ns).Wf :=
  .ite (.refuse h) (.ite (.setIncr h) (.refuse h))

theorem Mach.Wf.stepTime {t : Nat} {frac : Word} (h : m.Wf) : (m.stepTime t frac).Wf := by
  refine .each (.on (.count (.mk h))) (fun h => ?_)
  split
  · exact .when h .cmpStep

theorem Mach.Wf.adjWrite {master : Nat} {data : Word} (h : m.Wf) : (m.adjWrite master data).Wf :=
  .ite (.refuse h) (.ite (.refuse h) (.ite (.refuse h) (.ite (.stepTime h)
    (.ite (.ite (.refuse h) (.stepTime h)) (.stepTime h)))))

theorem Mach.Wf.tbClear (h : m.Wf) : m.tbClear.Wf := .clearRegs h

theorem Mach.Wf.tbCtrlWrite {data : Word} (h : m.Wf) : (m.tbCtrlWrite data).Wf :=
  .ite (.refuse h) (.timeStat (.when (.when (.set (.set h)) (fun h => .mk (.syncState h))) .tbClear))

theorem Mach.Wf.servo {x : Int} {τ : Nat} (h : m.Wf) : (m.servo x τ).Wf := .ite h (.mk (.setIncr (.openDiv h)))

theorem Mach.Wf.measure {source : Nat} {x : Int} (h : m.Wf) : (m.measure source x).Wf :=
  .ite h (.timeStat (.ite (.ite (.syncState (.mk (.wr h))) (.stepTime (.syncState (.mk (.wr h)))))
    (.servo (.syncState (.mk (.wr h))))))

theorem Mach.Wf.portStat (h : m.Wf) : m.portStat.Wf := .setB (.setB h)

theorem Mach.Wf.portChoice (h : m.Wf) : m.portChoice.Wf := .ite (.mk h) (.ite (.mk h) (.mk h))

theorem Mach.Wf.ptpSync {f : PtpSync} (h : m.Wf) : (m.ptpSync f).Wf :=
  .ite h (.ite (.count h) (.ite (.timeStat (.portStat (.portChoice (.mk (.set (.count h))))))
    (.measure (.timeStat (.wr (.openDiv (.portStat (.portChoice (.mk (.set (.count h)))))))))))

theorem Mach.Wf.ptpResp {p : BitVec 1} {t4 cResp : Int} (h : m.Wf) : (m.ptpResp p t4 cResp).Wf := by
  refine .ite h ?_
  split
  · exact .timeStat (.portStat (.wr (.openDiv (.mk h))))
  · exact .count h

theorem Mach.Wf.ptpAnnounce {f : PtpAnnounce} (h : m.Wf) : (m.ptpAnnounce f).Wf :=
  .ite h (.ite (.count h) (.ite (.on (.wr (.wr h))) h))

theorem Mach.Wf.markSend (h : m.Wf) : m.markSend.Wf := .when h .send

theorem Mach.Wf.markEcho {roundTrip : Nat} (h : m.Wf) : (m.markEcho roundTrip).Wf := .ite (.set (.openDiv (.mk h))) h

theorem Mach.Wf.pairOffset {arrival : Int} (h : m.Wf) : (m.pairOffset arrival).Wf :=
  .ite (.measure (.wr (.openDiv h))) (.when h .wr)

theorem Mach.Wf.captureArm {u src : Nat} (h : m.Wf) : (m.captureArm u src).Wf := .ite (.refuse h) (.off (.off (.set h)))

theorem Mach.Wf.ppsIn (h : m.Wf) : m.ppsIn.Wf :=
  .ite (.ite (.count (.off (.captureSource h))) (.measure (.off (.captureSource h)))) (.captureSource h)

/-! ## Images, programs and the boot -/

theorem Mach.Wf.programWords {ws : List Word} (h : m.Wf) : (m.programWords ws).Wf := .storeFull (.zeroise h (by decide))

theorem Mach.Wf.loadProgram {p : ProgImage} (h : m.Wf) : (m.loadProgram p).Wf := by
  refine .mk (.set (.wr ?_))
  split
  · exact .set (.set (.set (.programWords h)))
  · exact .off (.storeFull (.zeroise (.set (.set (.set (.programWords h)))) (by decide)))

theorem Mach.Wf.loadBootSlot (h : m.Wf) : m.loadBootSlot.Wf := by
  unfold Mach.loadBootSlot
  split
  · exact .mk (.loadProgram h)
  · exact .ite (.noProgram h) h

theorem Mach.Wf.lcySync (h : m.Wf) : m.lcySync.Wf := by
  unfold Mach.lcySync
  dsimp only
  split
  · exact .wr (.wr (.off (.off (.off (.set h)))))
  · exact .wr (.wr (.set (.setB (.on (.set h)))))

theorem Mach.Wf.rollbackTo {v : Nat} (h : m.Wf) : (m.rollbackTo v).Wf := .when h .set

theorem Mach.Wf.wipe {code : Nat} (h : m.Wf) : (m.wipe code).Wf := .lcySync (.off (.when (.mk h) .off))

theorem Mach.Wf.configPut {a : Nat} {w : Word} (h : m.Wf) : (m.configPut a w).Wf := .wr h

theorem Mach.Wf.configApply {again can : Bool} (h : m.Wf) : (m.configApply again can).Wf := by
  unfold Mach.configApply
  split
  · exact .mk h
  · exact .mk (.mk (.each h .configPut))

theorem Mach.Wf.ipInForce (h : m.Wf) : m.ipInForce.Wf := .wr h

theorem Mach.Wf.bootDomain {d : Domain} (h : m.Wf) : (m.bootDomain d).Wf :=
  .ite h (.when (.ite (.canStart (.canStart (.domainOn h))) (.domainOn h)) .demandStop)

theorem Mach.Wf.confirmDone {v : Nat} (h : m.Wf) : (m.confirmDone v).Wf := .set (.count (.off (.rollbackTo (.mk h))))

theorem Mach.Wf.bootJournal (h : m.Wf) : m.bootJournal.1.Wf := by
  unfold Mach.bootJournal
  split
  · exact h
  · split
    · exact .ite_fst (.mk h) h
    · exact h
  · exact .ite_fst h (.mk h)
  · exact .ite (.confirmDone h) h

theorem Mach.Wf.bootStage (h : m.Wf) : m.bootStage.Wf := .set (.wr (.set (.set (.set (.set h)))))

theorem Mach.Wf.safeModeBoot (h : m.Wf) : m.safeModeBoot.Wf :=
  .ipInForce (.on (.set (.wr (.releaseTripLs (.releaseTripHs (.bootStage (.bootDomain (.bootDomain (.mk h)))))))))

theorem Mach.Wf.bootOn {again : Bool} (h : m.Wf) : (m.bootOn again).Wf :=
  .paramLoad (.each (.loadBootSlot (.bootStage (.ipInForce (.configApply (.setAbsent (.each (.wr h) .bootDomain)))))) .wr)

theorem Mach.Wf.loadScaling (h : m.Wf) : m.loadScaling.Wf := .mk h

theorem Mach.Wf.boot {again : Bool} (h : m.Wf) : (m.boot again).Wf :=
  .mk (.on (.count (.storeSettle (.ite (.bootOn (.bootJournal (.when (.loadScaling (.set (.domainReset (.mk h)))) .wipe)))
    (.safeModeBoot (.bootJournal (.when (.loadScaling (.set (.domainReset (.mk h)))) .wipe)))))))

theorem Mach.Wf.aonReset : m.aonReset.Wf := .setB (.lcySync (.each (.mk .reset) .wr))

theorem Mach.Wf.powerUp {slot : BitVec 6} {auxV : BitVec 16} {img : Option Image} (h : m.Wf) : (m.powerUp slot auxV img).Wf :=
  .ite h (.log (.mark (.chargerSet (.set (.freeTicked (.ppsLoad (.boot (.when (.set (.wr (.wr (.mk .aonReset)))) .on))))))))

theorem Mach.Wf.canFifoEmpty {x : Nat} (h : m.Wf) : (m.canFifoEmpty x).Wf := .setCan (.set h)

theorem Mach.Wf.domainsReset (h : m.Wf) : m.domainsReset.Wf := .each h (fun h => .ite h (.domainOff h))

theorem Mach.Wf.moduleReset {type : Nat} (h : m.Wf) : (m.moduleReset type).Wf := by
  unfold Mach.moduleReset
  extract_lets held n1 _ n2 n3 k l
  have hk : k.Wf := .disarm (.closeSessions (.mk (.releaseClaim h)))
  have hl : l.Wf := .ite (.ite (.recordRun hk) (.toRun hk)) (.ite (.recordRun hk) (.toRun hk))
  exact .log (.boot (.set (.off (.count (.set (.mk (.canFifoEmpty (.canFifoEmpty
    (.domainsReset (.mk (.dissolvePair (.cyclesStop hl))))))))))))

/-! ## The Privor chain -/

theorem Mach.Wf.launchAll {f : Mach → Port → Mach} (h : m.Wf) (hf : ∀ {m x1}, m.Wf → (f m x1).Wf) : (m.launchAll f).Wf :=
  .each h hf

theorem Mach.Wf.launchAt {p : Port} {start : Nat} {syms : List Symbol} (h : m.Wf) : (m.launchAt p start syms).Wf :=
  .send (.setPort h)

theorem Mach.Wf.launchFixed {p : Port} {f : ChainFrame} (h : m.Wf) : (m.launchFixed p f).Wf := .launchAt (.when h .on)

theorem Mach.Wf.sendGap {p : Port} {at0 : Nat} {f : ChainFrame} (h : m.Wf) : (m.sendGap p at0 f).Wf := .launchAt h

theorem Mach.Wf.syncLaunch {p : Port} (h : m.Wf) : (m.syncLaunch p).Wf := .ite (.overNodes (.launchFixed h)) (.launchFixed h)

theorem Mach.Wf.trainLaunch {p : Port} {f : ChainFrame} {slots : List (BitVec 16)} (h : m.Wf) : (m.trainLaunch p f slots).Wf := by
  unfold Mach.trainLaunch
  exact .overNodes (.launchFixed h)

theorem Mach.Wf.stopFollow {was : List Port} (h : m.Wf) : (m.stopFollow was).Wf := .ite (.each (.each h .stopRun) .send) h

theorem Mach.Wf.txEnable {p : Port} {on : Bool} (h : m.Wf) : (m.txEnable p on).Wf :=
  .ite (.refuse h) (.stopFollow (.setB (.setB h)))

theorem Mach.Wf.breakSeen (h : m.Wf) : m.breakSeen.Wf := .mk h

theorem Mach.Wf.countBy {a k : Nat} (h : m.Wf) : (m.countBy a k).Wf := .wr h

theorem Mach.Wf.seeSymbols {p : Port} {syms : List Symbol} (h : m.Wf) : (m.seeSymbols p syms).Wf := .countBy h

theorem Mach.Wf.trainSeen {p : Port} {f : FrameCheck} (h : m.Wf) : (m.trainSeen p f).Wf :=
  .when (.when (.setB (.when (.when h .count) .on)) .breakSeen) (fun h => .on (.count h))

theorem Mach.Wf.takeSlots {p : Port} {seq : Word} {slots : List SlotRx} (h : m.Wf) : (m.takeSlots p seq slots).Wf :=
  .setPort (.each h .count)

theorem Mach.Wf.uplinkRx {p : Port} {f : FrameCheck} {slots : List SlotRx} (h : m.Wf) : (m.uplinkRx p f slots).Wf :=
  .ite h (.ite (.count h) (.ite h (.when (.when (.when (.when (.trainSeen h) .setPort) .setPort) .takeSlots) .sendXl)))

theorem Mach.Wf.dualClaim (h : m.Wf) : m.dualClaim.Wf := .ite (.releaseClaim (.on h)) h

theorem Mach.Wf.takeRecords {p : Port} {c : Word} {recs : List RecordRx} (h : m.Wf) : (m.takeRecords p c recs).Wf :=
  .setPort (.each h .count)

theorem Mach.Wf.partnerTrain {x : Option ChainFrame} {slots : List (BitVec 16)} {bodyOk : Bool} (h : m.Wf) :
    (m.partnerTrain x slots bodyOk).Wf := by
  unfold Mach.partnerTrain
  split
  · exact h
  · exact .ite (.overNodes h) h

theorem Mach.Wf.cmdRx {p : Port} {f : FrameCheck} {recs : List RecordRx} {cmds : List (BitVec 16)} (h : m.Wf) :
    (m.cmdRx p f recs cmds).Wf :=
  .ite h (.ite (.count h) (.ite h (.when (.when (.when (.when (.trainSeen h) .setPort) (fun h => .mk (.dualClaim h)))
    .takeRecords) .sendXl)))

theorem Mach.Wf.lockLost {p : Port} (h : m.Wf) : (m.lockLost p).Wf := by
  unfold Mach.lockLost
  exact .when (.when (.setPort (.off (.when h .mark))) .breakSeen) .releaseClaim

theorem Mach.Wf.setRing {broken : Bool} (h : m.Wf) : (m.setRing broken).Wf := .mk (.each (.setB (.setB h)) .on)

theorem Mach.Wf.cycleBoundary {c : Word} (h : m.Wf) : (m.cycleBoundary c).Wf :=
  .ite (.mk (.off (.off (.when (.mk h) .setRing)))) (.when (.mk h) .setRing)

theorem Mach.Wf.hopDelay {rt tau : Nat} (h : m.Wf) : (m.hopDelay rt tau).2.Wf := .openDiv h

theorem Mach.Wf.setDelay {p : Port} {n d : Nat} (h : m.Wf) : (m.setDelay p n d).Wf := .wr h

theorem Mach.Wf.modNode {n : Nat} {f : NodeModel → NodeModel} (h : m.Wf) : (m.modNode n f).Wf := by
  unfold Mach.modNode
  split <;> exact h

theorem Mach.Wf.mgmtSend {p : Port} {at0 dest : Nat} {op : Byte} {addr : Nat} {req : List Byte} {len : Nat} (h : m.Wf) :
    (m.mgmtSend p at0 dest op addr req len).Wf :=
  .ite (.sendGap (.mk h)) h

theorem Mach.Wf.mgmtTake {p : Port} {dest : Nat} {op : Byte} {addr : Nat} {req : List Byte} (h : m.Wf) :
    (m.mgmtTake p dest op addr req).Wf :=
  .ite (.overNodes h) h

theorem Mach.Wf.mgmtAct {p : Port} {dest : Nat} {op : Byte} {addr : Nat} {req : List Byte} (h : m.Wf) :
    (m.mgmtAct p dest op addr req).Wf :=
  .mgmtTake (.mgmtSend h)

theorem Mach.Wf.mgmtReq {dest : Nat} {op : Byte} {addr : Nat} {req : List Byte} (h : m.Wf) : (m.mgmtReq dest op addr req).Wf :=
  .each h .mgmtAct

theorem Mach.Wf.enumSend {p : Port} {at0 sub count base target : Nat} (h : m.Wf) : (m.enumSend p at0 sub count base target).Wf :=
  .sendGap h

theorem Mach.Wf.echoSend {p : Port} {at0 pos : Nat} (h : m.Wf) : (m.echoSend p at0 pos).Wf := .launchAt (.enumSend h)

theorem Mach.Wf.timingSend {n fwd rev : Nat} (h : m.Wf) : (m.timingSend n fwd rev).Wf := .mgmtReq h

theorem Mach.Wf.echo {k pos rtA rtB : Nat} (h : m.Wf) : (m.echo k pos rtA rtB).Wf :=
  .when (.when (.setDelay (.hopDelay (.hopDelay (.each h .echoSend)))) .setDelay) (fun h => .ite (.timingSend h) (.timingSend h))

theorem Mach.Wf.ringClose {rt : List (Nat × Nat × Nat)} {otherEnd : Bool} (h : m.Wf) : (m.ringClose rt otherEnd).Wf :=
  .ite (.setRing (.each h .echo)) h

theorem Mach.Wf.periodicAssign {restarted : List Nat} (h : m.Wf) : (m.periodicAssign restarted).Wf :=
  .ite (.overNodes (.each (.enumSend h) (fun h => .mk (.on (.modNode h))))) h

theorem Mach.Wf.nodeSetup {n fwd rev at0 gap : Nat} (h : m.Wf) : (m.nodeSetup n fwd rev at0 gap).Wf :=
  .mgmtTake (.mgmtSend (.mgmtTake (.mgmtSend (.mgmtTake (.mgmtSend h)))))

theorem Mach.Wf.dataSend {p : Port} {at0 dest : Nat} {g : NodeImage} {k : Nat} (h : m.Wf) : (m.dataSend p at0 dest g k).Wf :=
  .sendGap h

theorem Mach.Wf.verifySend {p : Port} {at0 dest : Nat} {g : NodeImage} (h : m.Wf) : (m.verifySend p at0 dest g).Wf :=
  .sendGap h

theorem Mach.Wf.startSend {p : Port} {at0 dest : Nat} {g : NodeImage} (h : m.Wf) : (m.startSend p at0 dest g).Wf := .sendGap h

theorem Mach.Wf.loadRound {at0 gap : Nat} {ns : List Nat} {ids : Nat → Option NodeId} {r : List (Nat × Nat)} (h : m.Wf) :
    (m.loadRound at0 gap ns ids r).Wf := by
  refine .each (.each h .mgmtSend) fun {k x} hk => ?_
  obtain ⟨i, e⟩ := x
  dsimp only
  split
  · exact .dataSend hk
  · exact hk

theorem Mach.Wf.loadFrames {at0 dataGap gap : Nat} {ns : List Nat} {ids : List NodeId} {load : LoadResult} (h : m.Wf) :
    (m.loadFrames at0 dataGap gap ns ids load).Wf :=
  .each (.each (.each h (fun h => .each h .dataSend)) .loadRound) (fun h => .each (.each h .verifySend) .startSend)

theorem Mach.Wf.nodesLoaded {ns : List Nat} {ids : List NodeId} {load : LoadResult} (h : m.Wf) :
    (m.nodesLoaded ns ids load).Wf := by
  refine .each h (fun h => ?_)
  split
  · exact .modNode h
  · exact h

theorem Mach.Wf.rejoinRelease {n : Nat} {load : LoadResult} (h : m.Wf) : (m.rejoinRelease n load).Wf :=
  .ite (.mk (.mgmtReq (.nodeSetup (.nodesLoaded (.loadFrames h))))) h

theorem Mach.Wf.hopDelays {ns : List NodeId} (h : m.Wf) : (m.hopDelays ns).2.Wf := by
  induction ns generalizing m with
  | nil => exact h
  | cons n ns ih =>
    refine ih ?_
    dsimp only
    cases n.roundA <;> cases n.roundB
    · exact h
    · exact .hopDelay h
    · exact .hopDelay h
    · exact .hopDelay (.hopDelay h)

theorem Mach.Wf.admission {rl dmax : Nat} (h : m.Wf) : (m.admission rl dmax).1.Wf :=
  .when (.setB (.setB (.on (.set (.set h))))) .on

theorem Mach.Wf.roveStage {k : Nat} (h : m.Wf) : (m.roveStage k).Wf := .each h .set

theorem Mach.Wf.roveState {ok : Bool} (h : m.Wf) : (m.roveState ok).Wf := .each (.roveStage h) .on

/-- Every frame of a walk leaves by one of the senders. -/
theorem Mach.Wf.of_mem_walkItems {w : WalkResult} {f : Mach → Nat → Mach} (hf : f ∈ m.walkItems w) {k : Mach} {t : Nat}
    (h : k.Wf) : (f k t).Wf := by
  unfold Mach.walkItems at hf
  simp only [List.mem_append, List.mem_map, List.mem_flatMap, List.mem_replicate] at hf
  obtain (((⟨p, _, rfl⟩ | hf) | hf) | ⟨p, _, n, _, _, rfl⟩) | hf := hf
  · exact .enumSend h
  · split at hf
    · obtain rfl := List.mem_singleton.mp hf
      exact .enumSend h
    · cases hf
  · split at hf
    · split at hf
      · obtain rfl := List.mem_singleton.mp hf
        exact .enumSend h
      · cases hf
    · cases hf
  · exact .echoSend h
  · split at hf
    · obtain ⟨n, _, rfl⟩ := List.mem_map.mp hf
      exact .mgmtSend h
    · cases hf

theorem Mach.Wf.walkFrames {w : WalkResult} (h : m.Wf) : (m.walkFrames w).Wf :=
  have hm := Mach.Wf.each (.mk h) fun h => .set (.setB h)
  .ite (.overNodes (.overNodes (.each_mem hm fun _ hx => .of_mem_walkItems (List.of_mem_zip hx).2))) hm

theorem Mach.Wf.walkStore {hs : List Hop} {rl at0 : Nat} (h : m.Wf) : (m.walkStore hs rl at0).Wf := by
  refine .each (.each h (fun h => .when (.when ?_ (fun h => ?_)) .nodeSetup)) .set
  · split
    · exact .setDelay h
    · exact .wr h
  · split
    · exact .setDelay h
    · exact .wr h

theorem Mach.Wf.walkLoads {w : WalkResult} {at0 : Nat} (h : m.Wf) : (m.walkLoads w at0).Wf := .when h .loadFrames

theorem Mach.Wf.walkEnd {w : WalkResult} {hs : List Hop} {at0 : Nat} (h : m.Wf) : (m.walkEnd w hs at0).1.Wf :=
  .ite_fst (.roveState (.nodesLoaded h)) (.admission (.mk (.roveState (.walkStore (.nodesLoaded h)))))

theorem Mach.Wf.walk {w : WalkResult} (h : m.Wf) : (m.walk w).1.Wf :=
  .ite_fst (.walkEnd (.walkLoads (.hopDelays (.mk (.walkFrames h))))) (.roveState (.hopDelays (.mk (.walkFrames h))))

theorem Mach.Wf.roveBegin (h : m.Wf) : m.roveBegin.Wf := .mk (.walkFrames (.roveStage h))

theorem Mach.Wf.bootBegin (h : m.Wf) : m.bootBegin.Wf := .mk (.when (.roveStage h) .loadFrames)

theorem Mach.Wf.jobDrop (h : m.Wf) : m.jobDrop.Wf := .mk h

theorem Mach.Wf.roveLoads {j : ChainJob} {w : WalkResult} (h : m.Wf) : (m.roveLoads j w).Wf :=
  .ite (.walkLoads (.roveStage (.hopDelays h))) (.roveState (.jobDrop (.hopDelays h)))

theorem Mach.Wf.jobEnds {j : ChainJob} (h : m.Wf) : (m.jobEnds j).Wf := by
  unfold Mach.jobEnds
  dsimp only
  split
  · exact .walkEnd (.hopDelays (.jobDrop h))
  · exact .roveState (.when (.jobDrop h) .nodesLoaded)

theorem Mach.Wf.chainSettle (h : m.Wf) : m.chainSettle.Wf := by
  unfold Mach.chainSettle
  split
  · exact h
  · refine .when ?_ .jobEnds
    split
    · exact .when h .roveLoads
    · exact h

/-! ## Supply, domains and clocks -/

theorem Mach.Wf.cyclesCheck (h : m.Wf) : m.cyclesCheck.Wf := .when h .cyclesStop

theorem Mach.Wf.domainDrop {d : Domain} {st : Nat} (h : m.Wf) : (m.domainDrop d st).Wf := by
  refine .cyclesCheck (.set (.domainReset ?_))
  split
  · exact .closeSessions h
  · exact .closeSession h
  · exact .dissolvePair (.releaseClaim h)
  · exact .when (.releaseClaim h) .cyclesStop
  · exact .releaseClaim h
  · exact .setAbsent (.when h .mark)
  · exact h

theorem Mach.Wf.domainRequestOff {d : Domain} (h : m.Wf) : (m.domainRequestOff d).Wf := .ite h (.domainDrop h)

theorem Mach.Wf.pdWrite {master : Nat} {on : BitVec 10} (h : m.Wf) : (m.pdWrite master on).Wf :=
  .ite (.storeSettle (.each (.each (.set h) .domainRequestOff) .domainStart)) (.refuse h)

theorem Mach.Wf.zeroiseDone {d : Domain} (h : m.Wf) : (m.zeroiseDone d).Wf := by
  refine .ite ?_ h
  dsimp only
  split
  · exact .loadBootSlot (.set h)
  · exact .ipInForce (.set h)
  · exact .canStart (.canStart (.set h))
  · exact .when (.set h) .demandStop
  · exact .set h

theorem Mach.Wf.startFail {err : BitVec 16} (h : m.Wf) : (m.startFail err).Wf :=
  .mk (.toRun (.when (.on (.set h)) .sendMirror))

theorem Mach.Wf.setSupply {st : Supply} {auxV : BitVec 16} (h : m.Wf) : (m.setSupply st auxV).Wf :=
  .mark (.chargerSet (.setB (.set (.set (.mk (.storeSettle h))))))

theorem Mach.Wf.enterHoldup {auxV : BitVec 16} (h : m.Wf) : (m.enterHoldup auxV).Wf :=
  .ite h (.ite (.recordRun (.mk (.log (.send (.on (.count (.setSupply h)))))))
    (.when (.mk (.log (.send (.on (.count (.setSupply h)))))) (fun h => .mk (.toRun h))))

theorem Mach.Wf.domainAgainOn {d : Domain} (h : m.Wf) : (m.domainAgainOn d).Wf := .ite h (.domainStart h)

theorem Mach.Wf.brownoutEnd {auxV minV durMs : BitVec 16} (h : m.Wf) : (m.brownoutEnd auxV minV durMs).Wf :=
  .on (.set (.set (.log (.setSupply (.await h)))))

theorem Mach.Wf.supplyRise {auxV minV durMs : BitVec 16} (h : m.Wf) : (m.supplyRise auxV minV durMs).Wf := by
  refine .ite h ?_
  split
  · exact h
  · exact .brownoutEnd h
  · exact .mk (.each (.setSupply (.storeDrain h)) .domainAgainOn)

theorem Mach.Wf.brownoutTimeout (h : m.Wf) : m.brownoutTimeout.Wf := by
  refine .ite h ?_
  dsimp only
  split
  · exact .startFail (.await h)
  · exact .toRun (.await h)
  · exact .toRun (.await h)
  · exact .await h

theorem Mach.Wf.blockAndOpen (h : m.Wf) : m.blockAndOpen.Wf := .mk (.openRequest (.setAllBlock h))

theorem Mach.Wf.holdupOpen (h : m.Wf) : m.holdupOpen.Wf := .mk (.toRun (.blockAndOpen h))

theorem Mach.Wf.cycleClockFault {i : Island} (h : m.Wf) : (m.cycleClockFault i).Wf := by
  unfold Mach.cycleClockFault
  split
  · exact .safetyCause (.safFault h)
  · exact .safetyCause (.safFault h)
  · exact .safetyCause (.safFault h)
  · exact .startFail (.demandStop h)
  · exact .when h (fun h => .log (.cyclesStop (.demandStop h)))
  · exact .when h (fun h => .log (.cyclesStop (.demandStop h)))
  · exact h

theorem Mach.Wf.clockFault {i : Island} (h : m.Wf) : (m.clockFault i).Wf := by
  unfold Mach.clockFault
  dsimp only
  split
  · exact .mk (.distaffDown (.setBit (.setBit h)))
  · exact .linkLoss (.setBit (.setBit h))
  · exact .ite (.cycleClockFault (.setBit (.setBit h))) (.setBit (.setBit h))

theorem Mach.Wf.clockGood {i : Island} (h : m.Wf) : (m.clockGood i).Wf := by
  unfold Mach.clockGood
  dsimp only
  split
  · exact .mk (.mark (.when (.setBit h) .withdrawStop))
  · exact .mark (.when (.setBit h) .withdrawStop)

theorem Mach.Wf.railFault {d : Domain} (h : m.Wf) : (m.railFault d).Wf :=
  .cyclesCheck (.when (.log (.set (.domainDrop h))) (fun h => .mk (.guardSteps h)))

/-! ## Insulation, precharge and closing -/

theorem Mach.Wf.setStep {n : Nat} (h : m.Wf) : (m.setStep n).Wf := .set h

theorem Mach.Wf.isoBegin (h : m.Wf) : m.isoBegin.Wf := .mk (.on h)

theorem Mach.Wf.isoAsk (h : m.Wf) : m.isoAsk.Wf := .ite (.refuse h) (.ite h (.isoBegin h))

theorem Mach.Wf.enterPrecharge (h : m.Wf) : m.enterPrecharge.Wf := .mark (.mk (.set (.set (.toRun h))))

theorem Mach.Wf.insulationStep (h : m.Wf) : m.insulationStep.Wf :=
  .ite (.energiseTrip (.setStep h)) (.ite (.mk (.energiseTrip (.setStep h)))
    (.ite (.isoBegin (.energiseTrip (.setStep h))) (.startFail (.energiseTrip (.setStep h)))))

theorem Mach.Wf.isoDone {kohm : Nat} (h : m.Wf) : (m.isoDone kohm).Wf :=
  .ite (.ite (.ite (.enterPrecharge (.mk (.when (.on (.set (.on (.off h)))) .on)))
    (.startFail (.mk (.when (.on (.set (.on (.off h)))) .on)))) (.mk (.when (.on (.set (.on (.off h)))) .on))) h

theorem Mach.Wf.isoAbandon (h : m.Wf) : m.isoAbandon.Wf := .ite (.ite (.isoBegin h) (.when (.off h) .startFail)) h

theorem Mach.Wf.preFail {code : Nat} (h : m.Wf) : (m.preFail code).Wf :=
  .ite (.toRun (.prechargeFailed h)) (.prechargeFailed h)

theorem Mach.Wf.closing (h : m.Wf) : m.closing.Wf := .ite (.mk (.set (.on h))) (.preFail (.set (.on h)))

theorem Mach.Wf.setPre {p : PrechargeState} (h : m.Wf) : (m.setPre p).Wf := .mk h

theorem Mach.Wf.closingCheck {str bus : Option Int} (h : m.Wf) : (m.closingCheck str bus).Wf := by
  unfold Mach.closingCheck
  split
  · exact h
  · exact .ite (.preFail h) (.ite (.preFail h) (.setPre h))

theorem Mach.Wf.preMatch {str bus : Int} (h : m.Wf) : (m.preMatch str bus).Wf :=
  .ite (.preFail h) (.ite (.preFail h) (.ite (.closing h) (.ite (.closing (.set (.setPre h))) (.set (.setPre h)))))

theorem Mach.Wf.preDiff {str bus : Int} (h : m.Wf) : (m.preDiff str bus).Wf := .set (.openDiv h)

theorem Mach.Wf.prechargeCheck (h : m.Wf) : m.prechargeCheck.Wf := by
  unfold Mach.prechargeCheck
  extract_lets v k st p low ok q n
  have hk : k.Wf := by
    simp only [k]
    split
    · exact .preDiff h
    · exact h
  have hn : n.Wf := .setPre hk
  refine .ite (.closingCheck hk) (.ite hk (.ite hn (.ite (.ite (.preFail hn) hn) ?_)))
  split
  · exact .preMatch hn
  · exact .ite (.preFail hn) (.set (.setPre hn))
  · exact .set (.setPre hn)

theorem Mach.Wf.closeEnd (h : m.Wf) : m.closeEnd.Wf := .mk h

theorem Mach.Wf.stopAfterClose {c : Nat} (h : m.Wf) : (m.stopAfterClose c).Wf := .toRun (.mk h)

theorem Mach.Wf.closeTimeout (h : m.Wf) : m.closeTimeout.Wf := by
  refine .ite ?_ h
  dsimp only
  split
  · exact .stopAfterClose (.closeEnd (.passUntil h))
  · exact .when (.closeEnd (.passUntil h)) .preFail

theorem Mach.Wf.brkNowClosed (h : m.Wf) : m.brkNowClosed.Wf := by
  refine .ite ?_ (.ite (.mk (.log (.setAllBlock (.closeEnd (.count h))))) (.closeEnd (.count h)))
  split
  · exact .stopAfterClose (.closeEnd (.count h))
  · exact .ite (.toRun (.set (.closeEnd (.count h)))) (.closeEnd (.count h))

theorem Mach.Wf.brkNowOpen (h : m.Wf) : m.brkNowOpen.Wf := .when (.mk (.when (.mk h) .setAllBlock)) .toRun

theorem Mach.Wf.brkAux {a b : Bool} (h : m.Wf) : (m.brkAux a b).Wf :=
  .when (.when (.when (.setB (.when (.setB (.setB h)) .mark)) (fun h => .isoAbandon (.captureSource h))) .brkNowClosed)
    .brkNowOpen

/-! ## The frame buffer -/

theorem Mach.Wf.putFrame {o : Nat} {ws : List Word} (h : m.Wf) : (m.putFrame o ws).Wf := .storeWhole h

theorem Mach.Wf.clearMem {a n : Nat} (h : m.Wf) : (m.clearMem a n).Wf :=
  ⟨h.1, dropRange_canonical memDefault (Nat.le_add_right a n) h.2⟩

theorem Mach.Wf.frameBank (h : m.Wf) : m.frameBank.Wf := .wr (.putFrame h)

theorem Mach.Wf.frameSetpoint (h : m.Wf) : m.frameSetpoint.Wf := .putFrame h

theorem Mach.Wf.frameSense (h : m.Wf) : m.frameSense.Wf := .ite h (.putFrame (.putFrame h))

theorem Mach.Wf.frameOpen (h : m.Wf) : m.frameOpen.Wf :=
  .putFrame (.putFrame (.putFrame (.frameSense (.frameSetpoint (.frameBank (.putFrame (.clearMem h)))))))

theorem Mach.Wf.frameRecords (h : m.Wf) : m.frameRecords.Wf := .mk (.putFrame h)

theorem Mach.Wf.freezeFrame (h : m.Wf) : m.freezeFrame.Wf :=
  .mk (.each (.putFrame (.putFrame (.putFrame (.frameRecords (.putFrame (.each h .count)))))) .wr)

theorem Mach.Wf.putDigest {base k : Nat} {v : Word} (h : m.Wf) : (m.putDigest base k v).Wf := .storeWhole (.storeWhole h)

/-! ## The sense interface -/

theorem Mach.Wf.shuntTemp {d : SenseData} (h : m.Wf) : (m.shuntTemp d).Wf := .ite (.mk (.set h)) (.mk (.set h))

theorem Mach.Wf.putMilli {a : Nat} {x : Rat} (h : m.Wf) : (m.putMilli a x).Wf := .wr (.openDiv h)

theorem Mach.Wf.putCenti {a : Nat} {v : Int} (h : m.Wf) : (m.putCenti a v).Wf := .wr (.openDiv h)

theorem Mach.Wf.selectedValue {d : SenseData} (h : m.Wf) : (m.selectedValue d).Wf := by
  unfold Mach.selectedValue
  split
  · exact .when h .putMilli
  · exact .when h .putMilli
  · split
    · exact .putMilli h
    · exact h
  · exact h

theorem Mach.Wf.senseValues {d : SenseData} (h : m.Wf) : (m.senseValues d).Wf :=
  .ite (.wr (.wr (.selectedValue (.when (.when (.when (.when h .putMilli) .putMilli) .putCenti) .putCenti))))
    (.wr (.wr (.selectedValue (.when (.when (.when (.when h .putMilli) .putMilli) .putCenti) .putCenti))))

theorem Mach.Wf.streamCurrent {d : SenseData} (h : m.Wf) : (m.streamCurrent d).Wf := .mk h

theorem Mach.Wf.senseStat (h : m.Wf) : m.senseStat.Wf := by
  unfold Mach.senseStat
  split
  · exact .mk (.off (.off (.off (.on (.off h)))))
  · exact .streamCurrent (.setB (.setB (.setB (.setB (.setB (.setB (.setB (.setB (.setB h)))))))))

theorem Mach.Wf.senseTake {d : SenseData} (h : m.Wf) : (m.senseTake d).Wf := .mk h

theorem Mach.Wf.senseWrite {d : SenseData} (h : m.Wf) : (m.senseWrite d).Wf :=
  .ite h (.when (.frameSense (.senseStat (.senseValues (.shuntTemp (.senseTake h))))) .sendXl)

theorem Mach.Wf.senseStream {d : SenseData} (h : m.Wf) : (m.senseStream d).Wf := .ite h (.senseStat (.senseTake h))

theorem Mach.Wf.senseFreeze (h : m.Wf) : m.senseFreeze.Wf := by
  refine .ite h (.mk (.when ?_ .count))
  split
  · exact .when (.frameSense (.setB (.senseStat h))) .putMilli
  · exact .frameSense (.setB (.senseStat h))

theorem Mach.Wf.setpointApply (h : m.Wf) : m.setpointApply.Wf := by
  unfold Mach.setpointApply
  split
  · exact h
  · exact .ite (.when (.mk (.off (.wr (.wr h)))) (fun h => .frameSense (.frameSetpoint h))) h

theorem Mach.Wf.capArm (h : m.Wf) : m.capArm.Wf := .ite (.refuse h) (.ite (.refuse h) (.mk (.set (.set h))))

theorem Mach.Wf.capHeader (h : m.Wf) : m.capHeader.Wf := .set (.storeWords h)

theorem Mach.Wf.capAbort (h : m.Wf) : m.capAbort.Wf := .mk (.set (.capHeader h))

theorem Mach.Wf.viewSample {k : Nat} {v : Dy} (h : m.Wf) : (m.viewSample k v).2.2.Wf := .ite_snd_snd (.freeTicked h) h

theorem Mach.Wf.viewSamples (h : m.Wf) : m.viewSamples.2.Wf := by
  refine .foldl_snd h fun {q j} hq => ?_
  obtain ⟨l, k⟩ := q
  dsimp only
  split
  · exact hq
  · exact .viewSample hq

theorem Mach.Wf.viewHeader {n base flags : Nat} (h : m.Wf) : (m.viewHeader n base flags).Wf := .storeWords h

theorem Mach.Wf.viewStore (h : m.Wf) : m.viewStore.Wf :=
  .mk (.storeWords (.when (.when (.viewSamples h) .viewHeader) .storeWords))

theorem Mach.Wf.capTrigger (h : m.Wf) : m.capTrigger.Wf := .mk (.on (.set h))

theorem Mach.Wf.capFull (h : m.Wf) : m.capFull.Wf := .ite (.on (.set (.capHeader h))) (.set h)

theorem Mach.Wf.capStore (h : m.Wf) : m.capStore.Wf :=
  .capFull (.ite (.viewStore (.mk (.storeWords (.when h .capTrigger)))) (.mk (.mk (.storeWords (.when h .capTrigger)))))

theorem Mach.Wf.statusTake (h : m.Wf) : m.statusTake.Wf :=
  .mk (.when (.when (.when (.when (.when (.wr (.set (.set h))) .count) (fun h => .on (.count h))) .on) .on) .safetyCause)

theorem Mach.Wf.capRecord (h : m.Wf) : m.capRecord.Wf := .ite h (.statusTake (.when h .capStore))

/-! ## Operands of Relud -/

theorem Mach.Wf.setS {r : SReg} {w : Word} (h : m.Wf) : (m.setS r w).Wf := .ite h (.mk h)

theorem Mach.Wf.setV {r : VReg} {f : Nat → Lane} (h : m.Wf) : (m.setV r f).Wf := .mk h

theorem Mach.Wf.setM {r : MReg} {f : Nat → BitVec 8} (h : m.Wf) : (m.setM r f).Wf := .ite h (.mk h)

theorem Mach.Wf.setMx {x : XReg} {f : Nat → Vector Lane 8} (h : m.Wf) : (m.setMx x f).Wf := .mk h

theorem Mach.Wf.stickFlags {f : Nat → LaneFlags} (h : m.Wf) : (m.stickFlags f).Wf := .mk h

theorem Mach.Wf.addFlags {f : Nat → LaneFlags} (h : m.Wf) : (m.addFlags f).Wf := by
  unfold Mach.addFlags
  exact .ite (.stickFlags h) (.on (.set (.stickFlags h)))

/-! ## The sequencer -/

theorem Mach.Wf.recordUse {fast : Bool} {used : Nat} (h : m.Wf) : (m.recordUse fast used).Wf :=
  .ite (.set (.set h)) (.set (.set h))

theorem Mach.Wf.stateDigestTake {c : Word} (h : m.Wf) : (m.stateDigestTake c).Wf := .ite (.mk (.meet h)) h

theorem Mach.Wf.estOver (h : m.Wf) : m.estOver.Wf := .ite (.mk (.set (.set (.when h .set)))) h

theorem Mach.Wf.endSection {used : Nat} (h : m.Wf) : (m.endSection used).Wf :=
  .ite (.set (.recordUse h)) (.estOver (.stateDigestTake (.set (.recordUse h))))

theorem Mach.Wf.overrun (h : m.Wf) : m.overrun.Wf := .endSection (.ite (.on (.count h)) (.on (.count h)))

theorem Mach.Wf.trap {cause lane : Nat} (h : m.Wf) : (m.trap cause lane).Wf :=
  .releaseClaim (.mk (.when (.ite (.wr (.set (.set (.set (.on (.set (.set (.when h .stateDigestTake))))))))
    (.on (.set (.set (.when h .stateDigestTake))))) .set))

theorem Mach.Wf.relud {o : OpInfo} {body : Mach → Nat → Issued} {target : Mach → Option Nat} (h : m.Wf)
    (hb : ∀ {m t}, m.Wf → (body m t).Wf) : (m.relud o body target).Wf := by
  have hm : (m.meet (progMemBase + 4 * m.spin.pc) (4 * o.size) Agent.fetch).Wf := .meet h
  refine .ite (.ite (.overrun h) (.ite (.trap h) ?_)) h
  dsimp only
  split
  · exact .trap (.poisonHit hm)
  · refine .ite (.trap hm) (.ite (.overrun hm) ?_)
    have hi := hb (t := (m.meet (progMemBase + 4 * m.spin.pc) (4 * o.size) Agent.fetch).spin.issueAt o) hm
    generalize body _ _ = i at hi
    cases hi with
    | done hd => exact .mk hd
    | trapped ht => exact .trap ht

theorem Mach.Wf.run {o : OpInfo} {f : Mach → Mach} (h : m.Wf) (hf : ∀ {m}, m.Wf → (f m).Wf) : (m.run o f).Wf :=
  .relud h (fun h => .done (hf h))

theorem Issued.Wf.vwrite {d : VReg} {res : Nat → Lane × LaneFlags} (h : m.Wf) : (m.vwrite d res).Wf := by
  unfold Mach.vwrite
  dsimp only
  split
  · exact .trapped (.addFlags h)
  · exact .done (.setV (.addFlags h))

/-! ## The Flyer -/

theorem Mach.Wf.creditEvery (h : m.Wf) : m.creditEvery.2.Wf := .ite_snd (.freeTicked h) h

theorem Mach.Wf.creditRefill (h : m.Wf) : m.creditRefill.Wf := .ite (.mk (.creditEvery h)) (.mk (.creditEvery h))

theorem Mach.Wf.formTrain (h : m.Wf) : m.formTrain.Wf := .frameRecords (.each (.each (.mk h) (fun h => .on (.count h))) .wr)

theorem Mach.Wf.farTake {f : ChainFrame} (h : m.Wf) : (m.farTake f).Wf := .ite (.mk h) h

theorem Mach.Wf.firstClaimed (h : m.Wf) : m.firstClaimed.Wf := .ite (.mk (.wr (.set h))) h

theorem Mach.Wf.sendTrain (h : m.Wf) : m.sendTrain.Wf :=
  .ite (.when (.when (.farTake (.launchAll h .trainLaunch)) (fun h => .firstClaimed (.sendXl h))) .releaseClaim)
    (.ite h (.launchAll h .launchFixed))

theorem Mach.Wf.commandLaunch (h : m.Wf) : m.commandLaunch.Wf :=
  .ite (.creditRefill h) (.sendTrain (.formTrain (.creditRefill h)))

theorem Mach.Wf.relayLaunch (h : m.Wf) : m.relayLaunch.Wf := by
  refine .ite ?_ h
  split
  · exact .launchAll h .trainLaunch
  · exact .count (.launchAll h .launchFixed)

theorem Mach.Wf.emitMissing (h : m.Wf) : m.emitMissing.Wf :=
  .ite (.when (.when (.mk (.on (.count h))) .releaseClaim) .stopWith) (.on (.count h))

theorem Mach.Wf.emitDeadline (h : m.Wf) : m.emitDeadline.Wf :=
  .ite (.mk (.withdrawStop (.when h .overrun))) (.emitMissing (.when h .overrun))

theorem Mach.Wf.sendTrim {s : TrimSym} (h : m.Wf) : (m.sendTrim s).Wf := .mk (.when (.each h .sendSymbols) .count)

theorem Mach.Wf.hystSample {i : Int} (h : m.Wf) : (m.hystSample i).Wf := by
  unfold Mach.hystSample
  dsimp only
  split
  · exact .mk h
  · refine .ite (.mk h) (.ite (.mk (.on (.when (.mk h) .sendTrim))) ?_)
    split
    · exact .sendTrim (.mk h)
    · exact .ite (.mk h) (.sendTrim (.mk h))
    · exact .mk h

theorem Mach.Wf.hystCycle (h : m.Wf) : m.hystCycle.Wf := .when (.mk h) .sendTrim

theorem Mach.Wf.stopEnd (h : m.Wf) : m.stopEnd.Wf := .ite (.each (.on (.off (.passUntil (.withdrawStop h)))) .send) h

/-! ## Mirrored items -/

theorem Mach.Wf.setpointTake {i lim c : Word} (h : m.Wf) : (m.setpointTake i lim c).Wf := .mk (.on h)

theorem Mach.Wf.swapTake {c : Word} (h : m.Wf) : (m.swapTake c).Wf := .mk (.on (.on h))

theorem Mach.Wf.swapDrop (h : m.Wf) : m.swapDrop.Wf := .mk (.off h)

theorem Mach.Wf.applyItem {x : MirrorItem} (h : m.Wf) : (m.applyItem x).Wf := by
  unfold Mach.applyItem
  split
  · exact .setpointTake h
  · exact .setB (.set h)
  · exact .blockTake h
  · exact .storeWord h
  · exact .swapTake h
  · exact .swapDrop h
  · exact h

theorem Mach.Wf.item {i : MirrorItem} (h : m.Wf) : (m.item i).Wf :=
  .ite (.ite (.mk (.sendMirror h)) (.applyItem (.sendMirror h))) (.applyItem h)

theorem Mach.Wf.commit (h : m.Wf) : m.commit.Wf := .ite (.refuse h) (.ite (.refuse h) (.item h))

theorem Mach.Wf.swap (h : m.Wf) : m.swap.Wf :=
  .ite (.refuse h) (.ite (.refuse h) (.ite (.refuse h) (.ite (.refuse h) (.item h))))

theorem Mach.Wf.cancel (h : m.Wf) : m.cancel.Wf := by
  unfold Mach.cancel
  split
  · exact .refuse h
  · exact .ite (.refuse h) (.ite (.item h) (.refuse h))

theorem Mach.Wf.bankCopy (h : m.Wf) : m.bankCopy.Wf := .ite (.refuse h) (.on h)

theorem Mach.Wf.copyPoison {src dst n : Nat} (h : m.Wf) : (m.copyPoison src dst n).Wf := .each h .poisonWord

theorem Mach.Wf.bankCopied (h : m.Wf) : m.bankCopied.Wf := .ite (.off (.copyPoison (.storeFull (.meet h)))) h

theorem Mach.Wf.bankSwap (h : m.Wf) : m.bankSwap.Wf := by
  unfold Mach.bankSwap
  split
  · exact h
  · exact .ite (.when (.wr (.on (.setB (.swapDrop h)))) .frameBank) h

theorem Mach.Wf.spnRun (h : m.Wf) : m.spnRun.Wf := .ite (.refuse h) (.ite (.refuse h) (.ite h (.mk h)))

theorem Mach.Wf.spnStop (h : m.Wf) : m.spnStop.Wf := .ite (.mk h) (.ite (.mk h) (.refuse h))

theorem Mach.Wf.spnSelftest (h : m.Wf) : m.spnSelftest.Wf := .ite (.refuse h) (.ite (.mk h) (.refuse h))

theorem Mach.Wf.trapClear (h : m.Wf) : m.trapClear.Wf := .ite (.refuse h) (.clearRegs h)

/-! ## The pair -/

theorem Mach.Wf.xlRx {bad : Bool} {f : Mach → Mach} (h : m.Wf) (hf : ∀ {m}, m.Wf → (f m).Wf) : (m.xlRx bad f).Wf :=
  .ite h (.ite (.count h) (hf (.on h)))

theorem Mach.Wf.leaseForm (h : m.Wf) : m.leaseForm.Wf := .ite (.ite h (.mk (.sendXl h))) h

theorem Mach.Wf.readyForm (h : m.Wf) : m.readyForm.Wf := .ite h (.on (.setB h))

theorem Mach.Wf.takeWaiting (h : m.Wf) : m.takeWaiting.Wf := .each (.mk h) .applyItem

theorem Mach.Wf.lostForm (h : m.Wf) : m.lostForm.Wf :=
  .ite (.readyForm (.ite (.canPair (.mk (.takeWaiting (.resyncAbort (.releaseLocks (.on (.mk h)))))))
    (.takeWaiting (.resyncAbort (.releaseLocks (.on (.mk h))))))) (.ite (.readyForm (.mk h)) h)

theorem Mach.Wf.heldCheck (h : m.Wf) : m.heldCheck.Wf := by
  unfold Mach.heldCheck
  split
  · exact h
  · exact .ite h (.startTripRule (.mk h))

theorem Mach.Wf.resyncAt {c : Word} (h : m.Wf) : (m.resyncAt c).Wf := .readyForm (.mark (.mk (.on h)))

theorem Mach.Wf.resyncStart (h : m.Wf) : m.resyncStart.Wf := .resyncAt (.sendXl h)

theorem Mach.Wf.resyncAsk (h : m.Wf) : m.resyncAsk.Wf :=
  .ite (.refuse h) (.ite (.refuse h) (.ite (.resyncStart (.mk h)) (.refuse h)))

theorem Mach.Wf.snapSend {k : Nat} (h : m.Wf) : (m.snapSend k).Wf :=
  .ite (.ite (.mk (.sendXl (.mk (.each (.meet h) .sendXl)))) (.mk (.each (.meet h) .sendXl))) h

theorem Mach.Wf.resyncOver (h : m.Wf) : m.resyncOver.Wf :=
  .readyForm (.when (.mk (.set (.count (.on (.off h))))) (fun h => .on (.set h)))

theorem Mach.Wf.resyncEnds (h : m.Wf) : m.resyncEnds.Wf := by
  refine .ite ?_ h
  split
  · exact .snapSend h
  · exact .ite (.resyncOver h) h

theorem Mach.Wf.laneIn {o : Nat} {ws : List Word} (h : m.Wf) : (m.laneIn o ws).Wf := .ite (.storeWords h) h

theorem Mach.Wf.snapIn {o : Nat} {ws : List Word} {poison : List Nat} (h : m.Wf) : (m.snapIn o ws poison).Wf :=
  .when (.laneIn h) (fun h => .each h .poisonWord)

theorem Mach.Wf.testFrom {c : Word} (h : m.Wf) : (m.testFrom c).Wf := .readyForm (.mk (.set (.wr (.on h))))

theorem Mach.Wf.testResolve (h : m.Wf) : m.testResolve.Wf := by
  refine .ite (.readyForm ?_) h
  split
  · exact .when (.on (.off h)) .resyncStart
  · exact .ite (.on (.off h)) (.off h)
  · exact .ite (.mk (.releaseClaim (.off h))) (.mk (.on (.off h)))
  · exact .ite (.on (.off h)) (.mk (.on (.off h)))

theorem Mach.Wf.selftestEnd {failed : BitVec 128} (h : m.Wf) : (m.selftestEnd failed).Wf :=
  .ite (.estOver h) (.ite (.testResolve (.set (.set (.on (.set (.each h .wr)))))) h)

theorem Mach.Wf.xlCycleRx {f : XlCycle} {late : Bool} {arrival : Int} (h : m.Wf) : (m.xlCycleRx f late arrival).Wf :=
  .pairOffset (.when (.lostForm (.mk h)) .frameSense)

theorem Mach.Wf.stateCompare {cycle value : Word} (h : m.Wf) : (m.stateCompare cycle value).Wf :=
  .ite (.ite (.readyForm (.mk h)) (.when (.readyForm (.mk (.wr (.set (.on (.count h)))))) .resyncStart)) h

theorem Mach.Wf.digestRx {cycle : Word} {kind : DigestKind} {value : Word} (h : m.Wf) : (m.digestRx cycle kind value).Wf := by
  refine .ite ?_ h
  split
  · exact .mk h
  · exact .mk h
  · exact .stateCompare (.mk h)

theorem Mach.Wf.slotxRx {seq : Word} {slots : List SlotRx} {recs : List RecordRx} {onTime : Bool} (h : m.Wf) :
    (m.slotxRx seq slots recs onTime).Wf :=
  .ite (.mk h) h

theorem Mach.Wf.leaseRx {f : XlLease} {alike : Bool} (h : m.Wf) : (m.leaseRx f alike).Wf :=
  .timeStat (.heldCheck (.readyForm (.when (.testResolve (.lostForm (.mk (.on (.mark (.setB (.set (.set (.set h)))))))))
    (fun h => .resyncStart (.mk h)))))

theorem Mach.Wf.noticeRx {x : NoticeKind} (h : m.Wf) : (m.noticeRx x).Wf := by
  unfold Mach.noticeRx
  split
  · exact .mk h
  · exact .when h .stopWith
  · exact .when h .testFrom
  · exact .when h .resyncAt
  · exact .when h .mk

theorem Mach.Wf.ackRx {seq : Word} (h : m.Wf) : (m.ackRx seq).Wf := by
  unfold Mach.ackRx
  split
  · exact h
  · exact .applyItem (.mk h)

theorem Mach.Wf.mirrorTimeout (h : m.Wf) : m.mirrorTimeout.Wf := by
  refine .ite (.readyForm (.mk (.count h))) ?_
  split
  · exact h
  · exact .applyItem (.mk (.passUntil h))

theorem Mach.Wf.takeClaim {trigger : Nat} {settle : Bool} (h : m.Wf) : (m.takeClaim trigger settle).Wf :=
  .mk (.wr (.ownSetpoint (.captureSource (.count (.on (.set (.on h)))))))

theorem Mach.Wf.claimTake (h : m.Wf) : m.claimTake.Wf := by
  unfold Mach.claimTake
  split
  · refine .ite (.on (.passUntil h)) (.ite (.takeClaim (.passUntil h)) ?_)
    split
    · exact .ite (.takeClaim (.passUntil h)) (.passUntil h)
    · exact .passUntil h
  · exact h

theorem Mach.Wf.settleAbort (h : m.Wf) : m.settleAbort.Wf := .mk (.when (.captureSource (.on (.off h))) .standBy)

theorem Mach.Wf.claimIn {asserted : Bool} (h : m.Wf) : (m.claimIn asserted).Wf :=
  .ite h (.ite (.ite (.settleAbort (.mk (.captureSource (.setB h)))) (.dualClaim (.mk (.captureSource (.setB h)))))
    (.mk (.captureSource (.setB h))))

theorem Mach.Wf.claimLapse (h : m.Wf) : m.claimLapse.Wf := .ite (.safetyCause h) h

theorem Mach.Wf.handoverPlan (h : m.Wf) : m.handoverPlan.Wf := .mk h

theorem Mach.Wf.handoverAsk (h : m.Wf) : m.handoverAsk.Wf := .ite (.refuse h) (.ite (.handoverPlan h) (.refuse h))

theorem Mach.Wf.xlClear (h : m.Wf) : m.xlClear.Wf := .clearRegs h

theorem Mach.Wf.diverged {cycle : Word} {code : Nat} (h : m.Wf) : (m.diverged cycle code).Wf := .when (.wr (.on h)) .set

theorem Mach.Wf.divergence (h : m.Wf) : m.divergence.Wf := by
  unfold Mach.divergence
  dsimp only
  split
  · exact .ite (.readyForm (.when (.when (.when (.when (.when (.when (.mk h) (fun h => .diverged (.count h))) .mk)
      (fun h => .when (.count h) .diverged)) (fun h => .testFrom (.sendXl h)))
      (fun h => .when (.count h) (fun h => .on (.diverged h)))) .set)) h
  · exact h

theorem Mach.Wf.relayForm (h : m.Wf) : m.relayForm.Wf := .setB h

theorem Mach.Wf.readyTick (h : m.Wf) : m.readyTick.Wf := .ite h (.readyForm (.mk h))

theorem Mach.Wf.pairInstant {old : Word} (h : m.Wf) : (m.pairInstant old).Wf :=
  .ite (.leaseForm (.markSend (.mk (.relayForm (.readyTick (.lostForm (.mk h))))))) (.leaseForm h)

/-! ## The cycle -/

theorem Mach.Wf.toInstant (h : m.Wf) : m.toInstant.Wf := .wr (.ite (.cmpFire (.passTo h)) (.passTo h))

theorem Mach.Wf.estCount (h : m.Wf) : m.estCount.Wf := .mk (.when h .count)

theorem Mach.Wf.joinEnd (h : m.Wf) : m.joinEnd.Wf :=
  .ite (.mk (.setStep (.when (.recordRun h) (fun h => .mk (.set h))))) (.startFail h)

theorem Mach.Wf.arrayBegins (h : m.Wf) : m.arrayBegins.Wf :=
  .when (.when (.mk (.on (.wr (.wr (.set h))))) (fun h => .mk (.setStep h))) .joinEnd

theorem Mach.Wf.arrayInstant (h : m.Wf) : m.arrayInstant.Wf :=
  .ite (.mk (.set (.set (.when (.when (.when (.mk h) .arrayBegins) .set) .estOver))))
    (.when (.when (.when (.mk h) .arrayBegins) .set) .estOver)

theorem Mach.Wf.startCount (h : m.Wf) : m.startCount.Wf := .ite (.when (.mk h) .enterPrecharge) (.ite (.mk h) h)

theorem Mach.Wf.cycleOpens (h : m.Wf) : m.cycleOpens.Wf := .mk h

theorem Mach.Wf.sampleInstant (h : m.Wf) : m.sampleInstant.Wf :=
  .ite (.frameOpen (.cycleOpens (.startCount (.arrayInstant (.hystCycle (.mk
    (.cycleBoundary (.pairInstant (.estCount (.prechargeCheck (.stateDigestTake (.toInstant (.when h .overrun))))))))))))) h

theorem Mach.Wf.stopClearCheck (h : m.Wf) : m.stopClearCheck.Wf :=
  .ite (.ite (.insulationStep (.mk h)) (.when (.mk h) .startFail)) h

theorem Mach.Wf.protStop {cause : Nat} (h : m.Wf) : (m.protStop cause).Wf := .ite (.count (.on (.set h))) h

theorem Mach.Wf.comparatorStop (h : m.Wf) : m.comparatorStop.Wf := .when h .protStop

theorem Mach.Wf.settleWatch (h : m.Wf) : m.settleWatch.Wf := .when h .mk

theorem Mach.Wf.nodeFreeze (h : m.Wf) : m.nodeFreeze.Wf := .stopClearCheck (.settleWatch (.comparatorStop (.freezeFrame h)))

theorem Mach.Wf.digestPair (h : m.Wf) : m.digestPair.Wf := .when h .wr

theorem Mach.Wf.sendDigest {c : Word} {k : DigestKind} {v : Word} (h : m.Wf) : (m.sendDigest c k v).Wf := .when h .sendXl

theorem Mach.Wf.inputDigest (h : m.Wf) : m.inputDigest.Wf := .sendDigest (.digestPair (.wr (.putDigest (.meet h))))

theorem Mach.Wf.outputDigestReady (h : m.Wf) : m.outputDigestReady.Wf :=
  .sendDigest (.digestPair (.when (.wr (.putDigest h)) .storeWhole))

theorem Mach.Wf.stateDigestReady (h : m.Wf) : m.stateDigestReady.Wf := by
  unfold Mach.stateDigestReady
  split
  next => exact h
  next c v _ =>
    extract_lets _ n1 n2 k
    have hk : k.Wf := .sendDigest (.wr (.wr (.putDigest (.mk h))))
    split
    · exact .ite (.stateCompare hk) hk
    · exact hk

/-! ## Protection -/

theorem Mach.Wf.dyInt {x : Dy} {scale : Nat} {lo hi : Int} (h : m.Wf) : (m.dyInt x scale lo hi).2.Wf :=
  .ite_snd h (.ite_snd h (.openDiv h))

theorem Mach.Wf.setDy {f : Field} {x : Dy} {scale : Nat} (h : m.Wf) : (m.setDy f x scale).Wf := .set (.dyInt h)

theorem Mach.Wf.setDyU {f : Field} {x : Dy} {scale : Nat} (h : m.Wf) : (m.setDyU f x scale).Wf := .set (.dyInt h)

theorem Mach.Wf.orderlyStop (h : m.Wf) : m.orderlyStop.Wf := .ite (.toRun h) h

theorem Mach.Wf.immediateStop {c : SafetyCause} (h : m.Wf) : (m.immediateStop c).Wf := .ite h (.safetyCause h)

theorem Mach.Wf.summaryStop (h : m.Wf) : m.summaryStop.Wf := .ite (.orderlyStop (.mk h)) (.when (.mk h) .immediateStop)

theorem Mach.Wf.escalate (h : m.Wf) : m.escalate.Wf := .ite (.safetyCause (.on h)) h

theorem Mach.Wf.posBits {reg : Nat → Nat} {irq : Field} {bad : List Nat} (h : m.Wf) : (m.posBits reg irq bad).Wf :=
  .each h (fun h => .ite h (.on (.setBit h)))

theorem Mach.Wf.setLevel {lvl : Nat} (h : m.Wf) : (m.setLevel lvl).Wf := .when (.when (.set h) .on) .on

theorem Mach.Wf.countSubst (h : m.Wf) : m.countSubst.Wf := .mk (.each h .count)

theorem Mach.Wf.summaryRegs (h : m.Wf) : m.summaryRegs.Wf := by
  unfold Mach.summaryRegs
  extract_lets hot cold n1 n2 n3 n4 vs n5 n6 failed lost n7 n8 n9
  have h2 : n2.Wf := .setDy (.setDy (.setDy h))
  have h3 : n3.Wf := by
    simp only [n3]
    split
    · exact .set (.set h2)
    · exact h2
  have h4 : n4.Wf := .setDyU (.setDyU h3)
  have h5 : n5.Wf := by
    simp only [n5]
    split
    · exact .setDyU (.setDyU h4)
    · exact h4
  exact .set (.protStop (.setLevel (.countSubst (.posBits (.posBits (.setB h5))))))

theorem Mach.Wf.summaryRead (h : m.Wf) : m.summaryRead.Wf := .ite (.summaryStop (.when h .summaryRegs)) h

theorem Mach.Wf.clrCause (h : m.Wf) : m.clrCause.Wf :=
  .ite (.mk (.when (.when (.off (.set h)) .setLevel) (fun h => .storeWord (.storeWord (.when h .storeWord))))) (.refuse h)

theorem Mach.Wf.backstopFrame {c : Word} (h : m.Wf) : (m.backstopFrame c).Wf := .each h .mk

theorem Mach.Wf.backstop (h : m.Wf) : m.backstop.Wf :=
  .ite (.ite (.immediateStop (.on (.protStop (.mk (.each h .backstopFrame))))) (.mk (.each h .backstopFrame))) h

theorem Mach.Wf.modWarn {base die : Int} (h : m.Wf) : (m.modWarn base die).Wf :=
  .when (.mk h) (fun h => .when (.when (.set (.set h)) (fun h => .log (.on (.on h)))) .off)

theorem Mach.Wf.modStop {fresh : Bool} (h : m.Wf) : (m.modStop fresh).Wf := by
  unfold Mach.modStop
  split
  · exact .orderlyStop (.when h .protStop)
  · exact .orderlyStop (.when h .protStop)
  · exact .when h .protStop
  · exact .startFail h
  · exact .when h .log

theorem Mach.Wf.moduleTemp {a b : Option Int} {die : Int} (h : m.Wf) : (m.moduleTemp a b die).Wf :=
  .when (.when (.when (.modWarn (.when (.mk h) .log)) (fun h => .immediateStop (.when h .protStop)))
    (fun h => .each h .domainDrop)) .modStop

theorem Mach.Wf.meanTemp (h : m.Wf) : m.meanTemp.2.Wf := .ite_snd h (.dyInt h)

theorem Mach.Wf.demandBytes (h : m.Wf) : m.demandBytes.2.Wf := .meanTemp h

theorem Mach.Wf.demandSend (h : m.Wf) : m.demandSend.Wf :=
  .ite (.ite (.count (.await h)) (.mark (.mk (.canLoad (.demandBytes (.count (.await h))))))) h

/-! ## The chain for the estimation -/

theorem Mach.Wf.activitySet (h : m.Wf) : m.activitySet.Wf := .when h .set

theorem Mach.Wf.bleedSend {n : Nat} {mask : BitVec 6} {taken : Bool} (h : m.Wf) : (m.bleedSend n mask taken).Wf :=
  .ite (.mgmtTake (.mgmtSend h)) (.count (.mgmtSend h))

theorem Mach.Wf.openWireSend {n wire : Nat} (h : m.Wf) : (m.openWireSend n wire).Wf := .mgmtReq h

theorem Mach.Wf.wireBegin {n wire : Nat} (h : m.Wf) : (m.wireBegin n wire).Wf :=
  .mark (.openWireSend (.bleedSend (.set (.set h))))

theorem Mach.Wf.sweepNext (h : m.Wf) : m.sweepNext.Wf := by
  unfold Mach.sweepNext
  split
  · exact .wireBegin h
  · exact .activitySet (.sweepEnd h)

theorem Mach.Wf.sweepStart {ns : List Nat} (h : m.Wf) : (m.sweepStart ns).Wf :=
  .activitySet (.sweepNext (.mark (.mk (.on h))))

theorem Mach.Wf.owNow (h : m.Wf) : m.owNow.Wf := .ite (.refuse h) (.ite (.refuse h) (.when h .sweepStart))

theorem Mach.Wf.owAbort (h : m.Wf) : m.owAbort.Wf := .ite (.mk h) h

theorem Mach.Wf.owDue {request : Bool} (h : m.Wf) : (m.owDue request).Wf :=
  .ite (.ite (.ite h (.sweepStart h)) (.ite h (.sweepStart (.await h)))) h

theorem Mach.Wf.nodeDone (h : m.Wf) : m.nodeDone.Wf := by
  unfold Mach.nodeDone
  split
  · exact h
  · exact .sweepNext (.mk (.bleedSend h))

theorem Mach.Wf.wireTested {status : BitVec 8} (h : m.Wf) : (m.wireTested status).Wf := by
  unfold Mach.wireTested
  split
  · exact h
  · exact .ite (.nodeDone (.openWireSend (.count h))) (.wireBegin (.openWireSend (.count h)))

theorem Mach.Wf.pollLane {nacks : List Nat} {n : Nat} (h : m.Wf) : (m.pollLane nacks n).Wf :=
  .ite h (.ite (.mk h) (.ite (.bleedSend h) (.mk (.bleedSend h))))

theorem Mach.Wf.shortWarns (h : m.Wf) : m.shortWarns.Wf := .mk (.when h .on)

theorem Mach.Wf.measRegs (h : m.Wf) : m.measRegs.Wf := .wr (.when (.shortWarns (.posBits (.posBits h))) .on)

theorem Mach.Wf.requestPoll {nacks : List Nat} (h : m.Wf) : (m.requestPoll nacks).Wf :=
  .ite h (.activitySet (.when (.when h (fun h => .each h .pollLane)) .measRegs))

theorem Mach.Wf.quietWrite (h : m.Wf) : m.quietWrite.Wf := .ite (.when (.mgmtReq h) .setB) h

/-! ## Memory integrity -/

theorem Mach.Wf.carderLoc {i w cls syndrome : Nat} (h : m.Wf) : (m.carderLoc i w cls syndrome).Wf :=
  .set (.set (.set (.set (.set h))))

theorem Mach.Wf.weakLine {i w : Nat} (h : m.Wf) : (m.weakLine i w).Wf := .mk h

theorem Mach.Wf.carderCe {i w syndrome : Nat} (h : m.Wf) : (m.carderCe i w syndrome).Wf :=
  .mk (.when (.on (.count (.carderLoc h))) .weakLine)

theorem Mach.Wf.ueRegion {i : Nat} (h : m.Wf) : (m.ueRegion i).Wf := .ite (.ite h (.distaffDown h)) (.when h .on)

theorem Mach.Wf.carderUe {i w syndrome : Nat} (h : m.Wf) : (m.carderUe i w syndrome).Wf :=
  .ueRegion (.weakLine (.log (.when (.on (.count (.carderLoc h))) .poisonWord)))

theorem Mach.Wf.carderWord {i w : Nat} {cls : EccClass} {syndrome : Nat} (h : m.Wf) : (m.carderWord i w cls syndrome).Wf := by
  refine .ite (.carderLoc h) ?_
  split
  · exact .carderCe h
  · exact .carderUe h
  · exact h
  · exact h

theorem Mach.Wf.spareWeak {i k : Nat} (h : m.Wf) : (m.spareWeak i k).Wf := .log (.on h)

theorem Mach.Wf.carderSpare {i k : Nat} {cls : EccClass} {syndrome : Nat} (h : m.Wf) : (m.carderSpare i k cls syndrome).Wf := by
  refine .ite (.carderLoc h) ?_
  split
  · exact .mk (.when (.on (.count (.carderLoc h))) .spareWeak)
  · refine .when (.spareWeak (.log ?_)) .ueRegion
    split
    · exact .poisonWord (.on (.count (.carderLoc h)))
    · exact .on (.count (.carderLoc h))
  · exact h
  · exact h

theorem Mach.Wf.carderPass (h : m.Wf) : m.carderPass.Wf := .mk (.count h)

theorem Mach.Wf.carderGo {i : Nat} (h : m.Wf) : (m.carderGo i).Wf := by
  unfold Mach.carderGo
  split
  · exact h
  · exact .mk (.set (.set (.when h .carderPass)))

theorem Mach.Wf.upset {u : Upset} (h : m.Wf) : (m.upset u).Wf := .ite h (.mk h)

theorem Mach.Wf.carder {cls : EccClass} {syndrome : Nat} {upsets : List Upset} (h : m.Wf) :
    (m.carder cls syndrome upsets).Wf := by
  refine .ite (.each h .upset) (.ite (.carderGo (.each h .upset)) ?_)
  split
  · exact .ite (.carderGo (.carderSpare (.each h .upset))) (.mk (.carderSpare (.each h .upset)))
  · exact .ite (.mk (.set (.carderWord (.mk (.each h .upset))))) (.set (.carderWord (.mk (.each h .upset))))

theorem Mach.Wf.programRepair (h : m.Wf) : m.programRepair.Wf := by
  unfold Mach.programRepair
  split
  · exact h
  · dsimp only
    split
    · exact .count (.on (.storeFull h))
    · exact .log h

theorem Mach.Wf.serveFrom {i line : Nat} {was now : LineStore} (h : m.Wf) : (m.serveFrom i line was now).Wf :=
  have hm : (m.meet (instBase i + 64 * line) 64 Agent.carder).Wf := .meet h
  .ite ⟨hm.1, writeBytes_wf _ _ hm.2⟩ h

theorem Mach.Wf.copyToSpare {i line e : Nat} (h : m.Wf) : (m.copyToSpare i line e).Wf := .ite (.mk (.meet h)) h

theorem Mach.Wf.lineRemap {i line : Nat} (h : m.Wf) : (m.lineRemap i line).Wf := by
  refine .ite ?_ h
  dsimp only
  split
  · exact .count (.on (.wr (.copyToSpare (.mk h))))
  · exact .log (.on (.mk h))

theorem Mach.Wf.entryFree {i e : Nat} (h : m.Wf) : (m.entryFree i e).Wf := .ite (.serveFrom h) h

theorem Mach.Wf.remapWrite {i e : Nat} {data : Word} (h : m.Wf) : (m.remapWrite i e data).Wf :=
  .ite h (.ite (.refuse h) (.ite h (.when (.wr (.entryFree h)) .serveFrom)))

theorem Mach.Wf.memClear (h : m.Wf) : m.memClear.Wf := .clearRegs h

/-! ## Starting and stopping -/

theorem Mach.Wf.nodeArrays (h : m.Wf) : m.nodeArrays.Wf :=
  .each h (fun h => .storeWords (.storeWords (.storeWords (.storeWords h))))

theorem Mach.Wf.startDomains (h : m.Wf) : m.startDomains.1.Wf :=
  .ite_fst (.setStep h) (.when (.when (.each (.setStep h) .domainOn) .loadBootSlot) .cyclesStart)

theorem Mach.Wf.startParam (h : m.Wf) : m.startParam.1.Wf :=
  .ite_fst (.nodeArrays (.paramLoad (.each h .wr))) (.paramLoad (.each h .wr))

theorem Mach.Wf.startCycles (h : m.Wf) : m.startCycles.1.Wf :=
  .ite_fst (.mk (.each (.setStep h) .on)) (.each (.setStep h) .on)

theorem Mach.Wf.startRove {w : WalkResult} (h : m.Wf) : (m.startRove w).1.Wf := .walk (.setStep h)

theorem Mach.Wf.stepEnd {r : Mach × Option (BitVec 16)} {next : Mach → Mach} (hr : r.1.Wf) (hf : ∀ {m}, m.Wf → (next m).Wf) :
    (m.stepEnd r next).Wf := by
  unfold Mach.stepEnd
  split
  · exact hf hr
  · exact .ite (.startFail hr) (.on (.set hr))

theorem Mach.Wf.startSteps {w : WalkResult} (h : m.Wf) : (m.startSteps w).Wf :=
  .stepEnd (.startDomains h) (fun h => .stepEnd (.startParam (.setStep h))
    (fun h => .stepEnd (.startRove h) (fun h => .stepEnd (.startCycles h) id)))

theorem Mach.Wf.pairForm (h : m.Wf) : m.pairForm.Wf := .canPair (.mk (.standBy h))

theorem Mach.Wf.enterStarting (h : m.Wf) : m.enterStarting.Wf := .setStep (.set (.toRun (.when h .toRun)))

theorem Mach.Wf.startBegin {w : WalkResult} {mirrored : Bool} (h : m.Wf) : (m.startBegin w mirrored).Wf :=
  .startSteps (.when (.enterStarting h) (fun h => .ite (.pairForm h) (.sendMirror (.pairForm h))))

theorem Mach.Wf.joinDelays {w : WalkResult} (h : m.Wf) : (m.joinDelays w).1.Wf := by
  unfold Mach.joinDelays
  refine .ite_fst (.mk (.each (.each (.hopDelays (.each h .echoSend)) fun {k x} hk => ?_) .set)) (.hopDelays (.each h .echoSend))
  obtain ⟨n, hop⟩ := x
  dsimp only
  split
  · exact .setDelay hk
  · exact hk

theorem Mach.Wf.joinParam (h : m.Wf) : m.joinParam.1.Wf := by
  unfold Mach.joinParam
  dsimp only
  split
  · exact .energiseTrip (.startParam h)
  · exact .startParam h

theorem Mach.Wf.joinBegin {w : WalkResult} (h : m.Wf) : (m.joinBegin w).Wf :=
  .stepEnd (.setStep (.startDomains (.mk (.pairForm (.enterStarting h)))))
    (fun h => .stepEnd (.setStep (.joinParam (.setStep h))) (fun h => .stepEnd (.joinDelays h)
    (fun h => .stepEnd (.setStep (.startCycles h)) id)))

theorem Mach.Wf.runStart {w : WalkResult} (h : m.Wf) : (m.runStart w).1.Wf := by
  unfold Mach.runStart
  split
  · exact h
  · exact .ite (.joinBegin h) (.startBegin h)

theorem Mach.Wf.stopClearSend {pos : Nat} (h : m.Wf) : (m.stopClearSend pos).Wf := .when h .mgmtReq

theorem Mach.Wf.settleEnd (h : m.Wf) : m.settleEnd.Wf :=
  .ite (.ite (.startFail h) (.ite (.startFail h) (.mk (.stopClearSend (.setStep h))))) h

theorem Mach.Wf.stopClearMbx {pos : Nat} (h : m.Wf) : (m.stopClearMbx pos).1.Wf := .ite_fst (.stopClearSend h) h

theorem Mach.Wf.stopPrecharge (h : m.Wf) : m.stopPrecharge.Wf := .ite (.mk h) (.toRun h)

theorem Mach.Wf.runStop (h : m.Wf) : m.runStop.1.Wf := by
  refine .ite_fst h ?_
  split
  · exact h
  · exact h
  · exact .mk (.toRun h)
  · exact .toRun h
  · exact .stopPrecharge h
  · exact .toRun h
  · exact h

theorem Mach.Wf.currentZero (h : m.Wf) : m.currentZero.Wf :=
  .ite (.ite (.holdupOpen h) (.ite (.blockAndOpen h) (.brkNowOpen (.blockAndOpen h)))) h

theorem Mach.Wf.isolate {pos : Nat} (h : m.Wf) : (m.isolate pos).Wf := .ite (.ite (.log (.runStop (.mk h))) (.mk h)) h

theorem Mach.Wf.mirrorRun {code cause : Nat} {w : WalkResult} (h : m.Wf) : (m.mirrorRun code cause w).Wf := by
  refine .ite ?_ (.ite (.ite h (.ite (.enterPrecharge h) (.toRun h))) (.ite (.toRun h) h))
  split
  · exact .startBegin h
  · exact .sendMirror (.on (.set h))

theorem Mach.Wf.mirrorTake {seq : Word} {item : MirrorItem} {w : WalkResult} (h : m.Wf) : (m.mirrorTake seq item w).Wf := by
  unfold Mach.mirrorTake
  split
  · exact .mirrorRun h
  · exact .ite h (.ite (.sendXl (.swapTake h)) (.sendXl (.readyForm (.mk h))))
  · exact .ite (.when (.applyItem h) .sendXl) h

/-! ## The recovery ladder -/

theorem Mach.Wf.domainAgain {d : Domain} (h : m.Wf) : (m.domainAgain d).Wf := .ite (.set (.domainReset h)) h

theorem Mach.Wf.reSpindle (h : m.Wf) : m.reSpindle.Wf :=
  .ite (.readyForm (.mk (.when (.arrayUnload (.each (.releaseClaim h) .programRepair)) .set))) h

theorem Mach.Wf.reXlink (h : m.Wf) : m.reXlink.Wf := .lostForm (.mk (.wr (.domainAgain (.releaseClaim h))))

theorem Mach.Wf.reMbx (h : m.Wf) : m.reMbx.Wf := .clearRegs (.mbxFlush h)

theorem Mach.Wf.waitReady (h : m.Wf) : m.waitReady.Wf := .readyForm (.mk (.when h .wr))

theorem Mach.Wf.reinitEffect {x : ReFunc} (h : m.Wf) : (m.reinitEffect x).Wf := by
  unfold Mach.reinitEffect
  split
  · exact .when h (fun h => .readyForm (.lockLost h))
  · exact .when h .lockLost
  · exact .reSpindle h
  · exact .domainAgain (.closeSessions h)
  · exact .when h .canReinit
  · exact .when h .canReinit
  · exact .waitReady (.domainAgain h)
  · exact .reXlink h
  · exact .reMbx h

theorem Mach.Wf.reinitComplete {x : ReFunc} (h : m.Wf) : (m.reinitComplete x).Wf := by
  unfold Mach.reinitComplete
  split
  · exact .when h .mk
  · exact .zeroiseDone h
  · exact .waitReady (.zeroiseDone h)
  · exact .zeroiseDone h
  · exact h

theorem Mach.Wf.ladderShow {rung fn master : Nat} (h : m.Wf) : (m.ladderShow rung fn master).Wf :=
  .ite (.set (.set (.set (.on h)))) (.mk (.set (.set (.set (.set (.on h))))))

theorem Mach.Wf.actionStart {a : LadderAction} (h : m.Wf) : (m.actionStart a).Wf := by
  unfold Mach.actionStart
  dsimp only
  split
  · exact .when (.mk h) .withdrawStop
  · exact .mk (.when (.mk h) .withdrawStop)
  · exact .reinitEffect (.count (.set (.mk (.when (.mk h) .withdrawStop))))

theorem Mach.Wf.guardFor {a : LadderAction} (h : m.Wf) : (m.guardFor a).Wf :=
  .ite (.actionStart (.mk (.guardSteps h))) (.mk (.guardSteps h))

theorem Mach.Wf.reinitBegin {f : ReFunc} {master : Nat} (h : m.Wf) : (m.reinitBegin f master).Wf :=
  .ite (.ite (.guardFor (.ladderShow h)) (.actionStart (.ladderShow h)))
    (.ite (.mk (.handoverPlan (.ladderShow h))) (.actionStart (.ladderShow h)))

theorem Mach.Wf.resetBegin {type master : Nat} (h : m.Wf) : (m.resetBegin type master).Wf :=
  .ite (.guardFor (.ladderShow h)) (.actionStart (.ladderShow h))

theorem Mach.Wf.resetGuard (h : m.Wf) : m.resetGuard.Wf := by
  unfold Mach.resetGuard
  split
  · exact h
  · exact .ite (.ite h (.guardFor (.mk h))) (.actionStart (.when h .await))

theorem Mach.Wf.ladderReq {r : LadderReq} {op : Nat} {err : Mach → Option (BitVec 16 × Nat)} {go : Mach → Nat → Mach} (h : m.Wf)
    (hf : ∀ {m x1}, m.Wf → (go m x1).Wf) : (m.ladderReq r op err go).Wf := by
  unfold Mach.ladderReq
  split
  · refine .ite (.ite (.mbxAnswer h) ?_) h
    split
    · exact .mbxAnswer h
    · exact hf (.mbxAnswer h)
  · refine .access h (fun h => .ite (.refuse h) (.ite (.refuse h) ?_))
    split
    · exact .refuse h
    · exact hf h
  · refine .ite h ?_
    split
    · exact h
    · exact hf h

theorem Mach.Wf.funcReinit {r : LadderReq} {f : BitVec 4} (h : m.Wf) : (m.funcReinit r f).Wf := by
  refine .ite h (.ladderReq h (fun h => ?_))
  split
  · exact h
  · exact .reinitBegin h

theorem Mach.Wf.moduleResetReq {r : LadderReq} (h : m.Wf) : (m.moduleResetReq r).Wf := .ite h (.ladderReq h .resetBegin)

theorem Mach.Wf.cycleBegin {k : Nat} (h : m.Wf) : (m.cycleBegin k).Wf :=
  .ite (.mk (.set (.set h))) (.mark (.mk (.send (.mk (.set (.set h))))))

theorem Mach.Wf.powerCycle {r : LadderReq} (h : m.Wf) : (m.powerCycle r).Wf := .ite h (.ladderReq h .cycleBegin)

theorem Mach.Wf.resetCtrlWrite {master : Nat} {data : Word} (h : m.Wf) : (m.resetCtrlWrite master data).Wf := by
  unfold Mach.resetCtrlWrite
  dsimp only
  split
  · exact .funcReinit h
  · exact .moduleResetReq h
  · exact .powerCycle h
  · exact .refuse h

theorem Mach.Wf.reinitDone (h : m.Wf) : m.reinitDone.Wf := by
  unfold Mach.reinitDone
  split
  · exact .mk (.set (.off (.on (.reinitComplete h))))
  · exact h

theorem Mach.Wf.autoReinit {f : ReFunc} (h : m.Wf) : (m.autoReinit f).Wf := by
  refine .ite h ?_
  split
  · exact h
  · exact .reinitBegin h

theorem Mach.Wf.autoReset (h : m.Wf) : m.autoReset.Wf := by
  refine .ite (.ite (.mk (.guardSteps (.set h))) (.set h)) ?_
  split
  · exact h
  · exact .resetBegin (.set (.mk h))

theorem Mach.Wf.clockRecovered {i : Island} (h : m.Wf) : (m.clockRecovered i).Wf := by
  refine .ite h ?_
  dsimp only
  split
  · exact .autoReinit (.await h)
  · exact .autoReinit (.await h)
  · exact .autoReinit (.await h)
  · exact .autoReinit (.await h)
  · exact .ite (.autoReset (.await h)) (.await h)
  · exact .ite (.autoReset (.await h)) (.await h)
  · exact .autoReinit (.await h)
  · exact .autoReinit (.await h)
  · split
    · exact .await h
    · exact .ite (.await h) (.autoReinit (.reinitDone (.reinitBegin (.await h))))
  · exact .autoReinit (.await h)
  · exact .await h
  · exact .await h

theorem Mach.Wf.lockTimeout {p : Port} (h : m.Wf) : (m.lockTimeout p).Wf :=
  .ite h (.ite (.log (.await h)) (.autoReinit (.mk (.await h))))

/-! ## The host interface -/

theorem Mach.Wf.setLink {p : Nat} {up : Bool} (h : m.Wf) : (m.setLink p up).Wf := .ite h (.on (.setB h))

theorem Mach.Wf.setCage {p : Nat} {c : Cage} (h : m.Wf) : (m.setCage p c).Wf := .mk h

theorem Mach.Wf.sfpChange {p : Nat} {k : SfpKind} (h : m.Wf) : (m.sfpChange p k).Wf :=
  .when (.setCage (.setB (.set h))) .setLink

theorem Mach.Wf.arpRx {src : BitVec 48} {target : Word} {claimsOwn : Bool} (h : m.Wf) : (m.arpRx src target claimsOwn).Wf :=
  .when (.when h (fun h => .on (.on h))) .send

theorem Mach.Wf.icmpRx {src : BitVec 48} (h : m.Wf) : (m.icmpRx src).Wf := .ite (.send (.mk h)) h

theorem Mach.Wf.hsrDeliver {port : BitVec 1} {src : BitVec 48} {seq : BitVec 16} (h : m.Wf) : (m.hsrDeliver port src seq).Wf :=
  .ite (.count (.mk h)) (.send (.mk h))

theorem Mach.Wf.hsrRx {port : BitVec 1} {f : HsrFrame} (h : m.Wf) : (m.hsrRx port f).Wf := by
  unfold Mach.hsrRx
  dsimp only
  split
  · exact .frameIn h
  · exact .police (.frameIn h) .hsrDeliver
  · exact .police (.frameIn h) .send
  · exact .police (.frameIn h) (fun h => .hsrDeliver (.send h))
  · exact .police (.frameIn h) (fun h => .hsrDeliver (.send h))

theorem Mach.Wf.babbleEnd {p : Nat} (h : m.Wf) : (m.babbleEnd p).Wf := .when (.mk h) (fun h => .on (.on h))

theorem Mach.Wf.handshakeFail (h : m.Wf) : m.handshakeFail.Wf := .send (.count h)

theorem Mach.Wf.handshake {svc : Bool} {c : ClientCert} (h : m.Wf) : (m.handshake svc c).Wf := by
  refine .ite h (.ite ?_ (.handshakeFail h))
  split
  · exact .handshakeFail h
  · exact .on (.sessBit (.mk h))

theorem Mach.Wf.onSession {s : Nat} {f : Session → Session} (h : m.Wf) : (m.onSession s f).Wf := .mk h

theorem Mach.Wf.recordSeen {s : Nat} (h : m.Wf) : (m.recordSeen s).Wf := .onSession h

theorem Mach.Wf.keepaliveRx {x : Nat} (h : m.Wf) : (m.keepaliveRx x).Wf := .send (.recordSeen h)

theorem Mach.Wf.telegramFrom {s : Nat} {bs : List Byte} (h : m.Wf) : (m.telegramFrom s bs).Wf :=
  .ite h (.ite (.recordSeen h) (.ite (.telegramRx (.recordSeen h)) (.ite (.telegramRx (.mk (.recordSeen h)))
    (.mk (.telegramRx (.mk (.recordSeen h)))))))

theorem Mach.Wf.sessCloseWrite {master : Nat} {data : Word} (h : m.Wf) : (m.sessCloseWrite master data).Wf := by
  unfold Mach.sessCloseWrite
  split
  · exact .refuse h
  · exact .each h .closeSession

theorem Mach.Wf.eventNotify {x : Nat} (h : m.Wf) : (m.eventNotify x).Wf := by
  unfold Mach.eventNotify
  split
  · exact h
  · exact .ite (.send (.onSession (.onSession h))) (.onSession h)

theorem Mach.Wf.streamWrite {master s : Nat} {data : Word} (h : m.Wf) : (m.streamWrite master s data).Wf := by
  unfold Mach.streamWrite
  split
  · exact .refuse h
  · exact .when (.wr h) (fun h => .mk (.wr (.wr h)))

theorem Mach.Wf.streamOne {s : Nat} {full : Bool} {rec' : List Byte} (h : m.Wf) : (m.streamOne s full rec').Wf :=
  .ite (.count (.count (.mk h))) (.send (.wr (.mk h)))

theorem Mach.Wf.streamForm {s : Nat} {full : Bool} (h : m.Wf) : (m.streamForm s full).Wf :=
  .ite h (.ite (.each (.mk h) .streamOne) (.mk h))

/-! ## The mailboxes -/

theorem Mach.Wf.mbxGo {master b : Nat} (h : m.Wf) : (m.mbxGo master b).Wf := .mbxReject (.mk (.on h))

theorem Mach.Wf.mbxCtrlWrite {master b opcode len : Nat} {go : Bool} (h : m.Wf) : (m.mbxCtrlWrite master b opcode len go).Wf := by
  unfold Mach.mbxCtrlWrite
  dsimp only
  split
  · exact .refuse h
  · exact .ite (.refuse h) (.when (.set (.set h)) .mbxGo)

theorem Mach.Wf.mbxTimeout {b : Nat} (h : m.Wf) : (m.mbxTimeout b).Wf := .ite (.mk (.mbxAnswer (.count (.passUntil h)))) h

theorem Mach.Wf.sessionInfo {b : Nat} (h : m.Wf) : (m.sessionInfo b).Wf := .mbxAnswer (.openDiv h)

theorem Mach.Wf.logMark {b : Nat} (h : m.Wf) : (m.logMark b).Wf := .mbxAnswer (.log h)

/-! ## Updates and the life cycle -/

theorem Mach.Wf.updateOpen {n : Nat} (h : m.Wf) : (m.updateOpen n).Wf :=
  .opGive (.updTouch (.setStage (.wr (.set (.mk (.ite (.stagingClear h) h))))))

theorem Mach.Wf.updateEnd (h : m.Wf) : m.updateEnd.Wf := .setStage (.stagingClear (.updRelease h))

theorem Mach.Wf.updateWrite {n : Nat} (h : m.Wf) : (m.updateWrite n).Wf := .opGive (.setStage (.set (.set (.mk h))))

theorem Mach.Wf.writeFails {n : Nat} (h : m.Wf) : (m.writeFails n).Wf := .setStage (.set (.mk h))

theorem Mach.Wf.updateWriteOp {n : Nat} {flashOk : Bool} (h : m.Wf) : (m.updateWriteOp n flashOk).Wf := by
  refine .ite ?_ (.opWork (.when (.when h .unmark) .writeFails) .updateWrite)
  split
  · exact .mark h
  · exact .opFail (.unmark (.await h))

theorem Mach.Wf.updateVerify {n : Nat} {sig : SigFacts} (h : m.Wf) : (m.updateVerify n sig).Wf :=
  .opGive (.setStage (.set (.mk h)))

theorem Mach.Wf.updateActivate {n : Nat} (h : m.Wf) : (m.updateActivate n).Wf := by
  unfold Mach.updateActivate
  dsimp only
  split
  · exact .opFail h
  · exact .ite (.mk (.opGive (.lcySync (.mk h)))) (.mk (.opGive (.setStage (.updRelease (.mk h)))))

theorem Mach.Wf.updateConfirm {n : Nat} (h : m.Wf) : (m.updateConfirm n).Wf := .opGive (.on (.mk h))

theorem Mach.Wf.confirmEnd (h : m.Wf) : m.confirmEnd.Wf := by
  unfold Mach.confirmEnd
  split
  · exact .setStage (.confirmDone h)
  · exact h

theorem Mach.Wf.confirmExpiry (h : m.Wf) : m.confirmExpiry.Wf := by
  unfold Mach.confirmExpiry
  split
  · exact .ite h (.autoReset (.log (.mk (.passUntil h))))
  · exact h

theorem Mach.Wf.lifeSet {n : Nat} (h : m.Wf) : (m.lifeSet n).Wf := by
  unfold Mach.lifeSet
  split
  · exact .opFail h
  · exact .opGive (.log (.setB (.set (.count (.lcySync (.mk h))))))

theorem Mach.Wf.logArchive (h : m.Wf) : m.logArchive.Wf := .ite (.mk h) h

theorem Mach.Wf.sensorRead {n : Nat} {v : Option Int} (h : m.Wf) : (m.sensorRead n v).Wf := by
  unfold Mach.sensorRead
  split
  · exact .set (.set h)
  · exact .ite (.set (.set h)) (.log (.on (.set (.set h))))

theorem Mach.Wf.sensorFailed {n : Nat} (h : m.Wf) : (m.sensorFailed n).Wf := .log (.on (.set (.set (.freeTicked h))))

theorem Mach.Wf.sensorTurn {n : Nat} {v : Option Int} (h : m.Wf) : (m.sensorTurn n v).Wf := by
  unfold Mach.sensorTurn
  dsimp only
  split
  · split
    · exact .sensorRead h
    · exact .sensorFailed h
  · exact .sensorRead h

/-! ## Operations -/

theorem Mach.Wf.opStart {master n : Nat} (h : m.Wf) : (m.opStart master n).Wf := by
  unfold Mach.opStart
  split
  · exact .refuse h
  · exact .updUse (.opSchedule (.mk (.set (.wr (.set (.wr (.wr h)))))))

theorem Mach.Wf.marched (h : m.Wf) : m.marched.Wf :=
  .ite (.loadBootSlot (.set (.zeroise (.zeroise (.zeroise (.zeroise h (by decide)) (by decide)) (by decide)) (by decide))))
    (.zeroise (.zeroise (.zeroise (.zeroise h (by decide)) (by decide)) (by decide)) (by decide))

theorem Mach.Wf.opAbort {master n : Nat} (h : m.Wf) : (m.opAbort master n).Wf := by
  unfold Mach.opAbort
  split
  · exact .refuse h
  · exact .ite (.opFinal (.when h .marched)) (.ite (.refuse h) h)

theorem Mach.Wf.opAck {master n count : Nat} (h : m.Wf) : (m.opAck master n count).Wf := by
  unfold Mach.opAck
  split
  · exact .refuse h
  · exact .ite (.refuse h) (.when (.set h) .opPump)

theorem Mach.Wf.opEnd {n : Nat} (h : m.Wf) : (m.opEnd n).Wf :=
  .ite (.opFinal (.when (.when (.when h .wipe) (fun h => .mark (.mk h))) .confirmEnd)) h

theorem Mach.Wf.nodeSend {n limit : Nat} {write answered : Bool} {data : List Byte} (h : m.Wf) :
    (m.nodeSend n limit write answered data).Wf :=
  .when h (fun h => .each h (fun h => .each h (fun h => .ite (.mgmtSend h) (.mgmtSend h))))

theorem Mach.Wf.nodeTake {pos addr : Nat} {data : List Byte} (h : m.Wf) : (m.nodeTake pos addr data).Wf := .each h .mgmtTake

theorem Mach.Wf.dropField {x : Int} (h : m.Wf) : (m.dropField x).2.Wf := .ite_snd h (.freeTicked h)

theorem Mach.Wf.dropFields {f : Nat → Int} {cells : Nat} (h : m.Wf) : (m.dropFields f cells).2.Wf := .foldl_snd h .dropField

theorem Mach.Wf.wireRecord {r : WireRec} (h : m.Wf) : (m.wireRecord r).2.Wf := .dropFields (.dropFields h)

theorem Mach.Wf.wireStore {r : WireRec} (h : m.Wf) : (m.wireStore r).Wf := .mk h

theorem Mach.Wf.wireReq {k : Nat} {op : Byte} {addr : Nat} {req : List Byte} (h : m.Wf) : (m.wireReq k op addr req).Wf :=
  .each h (fun h => .mgmtTake (.mgmtSend h))

theorem Mach.Wf.wireSteps (h : m.Wf) : m.wireSteps.Wf := .wireReq (.wireReq (.each (.wireReq (.wireReq h)) .wireReq))

theorem Mach.Wf.wireCal {n : Nat} {recs : List WireRec} (h : m.Wf) : (m.wireCal n recs).Wf :=
  .opGive (.foldl_snd (.each (.wireSteps h) .wireStore) .wireRecord)

theorem Mach.Wf.logRead {n : Nat} (h : m.Wf) : (m.logRead n).Wf := .opGive h

theorem Mach.Wf.progStore {n : Nat} (h : m.Wf) : (m.progStore n).Wf := .opGive (.setStage (.stagingClear (.mk h)))

theorem Mach.Wf.storeFails {n : Nat} (h : m.Wf) : (m.storeFails n).Wf := .mk h

theorem Mach.Wf.progLoad {n : Nat} (h : m.Wf) : (m.progLoad n).Wf := by
  refine .ite (.opFail (.domainOn h)) ?_
  split
  · exact .opFail (.noProgram (.set (.domainOn h)))
  · exact .opGive (.mk (.loadProgram (.domainOn h)))

theorem Mach.Wf.calRead {n : Nat} (h : m.Wf) : (m.calRead n).Wf := .opGive (.set h)

theorem Mach.Wf.calWrite {n : Nat} (h : m.Wf) : (m.calWrite n).Wf := .opGive (.loadScaling (.mk h))

theorem Mach.Wf.configSave {n : Nat} (h : m.Wf) : (m.configSave n).Wf := .opGive (.mk h)

theorem Mach.Wf.lanesTested {r : TestResult} (h : m.Wf) : (m.lanesTested r).Wf :=
  .ite (.mk (.wr h)) (.on (.set (.each h .wr)))

theorem Mach.Wf.testOne {bit : Nat} {r : TestResult} (h : m.Wf) : (m.testOne bit r).2.Wf :=
  .ite_snd (.when (.when h .lanesTested) .marched) h

theorem Mach.Wf.selftestOp {n : Nat} {rs : List TestResult} (h : m.Wf) : (m.selftestOp n rs).Wf :=
  .opGive (.foldl_snd h .testOne)

/-! ## Boundary scan -/

theorem Mach.Wf.extestLeft {was : Bool} (h : m.Wf) : (m.extestLeft was).Wf := .when h .mk

theorem Mach.Wf.heldSafe (h : m.Wf) : m.heldSafe.Wf :=
  .mk (.loopOpens (.hvilOpens (.releaseClaim (.releaseTripLs (.releaseTripHs h)))))

theorem Mach.Wf.updateIr {ctrl : Byte} {comp : BitVec 6} (h : m.Wf) : (m.updateIr ctrl comp).Wf :=
  .extestLeft (.when (.mk h) .heldSafe)

/-! ## Host accesses -/

theorem Mach.Wf.latch {master a : Nat} (h : m.Wf) : (m.latch master a).Wf := .ite h (.mk h)

theorem Mach.Wf.captureFree {l : LatchCopy} {a : Nat} (h : m.Wf) : (m.captureFree l a).Wf := .ite (.mk (.off h)) h

theorem Mach.Wf.hostRead {master a : Nat} {single : Bool} (h : m.Wf) : (m.hostRead master a single).Wf := by
  unfold Mach.hostRead
  split
  · exact .refuse h
  · refine .ite (.refuse h) (.ite (.refuse (.poisonHit (.when h .meet))) ?_)
    split
    · exact .ok (.captureFree (.when h .meet))
    · exact .ok (.when (.latch (.when (.when (.when h .meet) .storeSettle) .chainSettle)) .wr)

theorem Mach.Wf.steps {fs : List (Mach → Mach)} (h : m.Wf) (hs : Updates fs) : (m.steps fs).Wf := .ite h (hs.foldl (.ok h))

theorem Mach.Wf.need {c : Bool} {e : BitVec 16} {aux : Nat} (h : m.Wf) : (m.need c e aux).Wf := .ite h (.refuse h)

theorem Mach.Wf.keep {a : Nat} {data mask : Word} {allowed : Bool} {e : BitVec 16} (h : m.Wf) :
    (m.keep a data mask allowed e).Wf :=
  .need h

theorem Mach.Wf.value {c : Bool} (h : m.Wf) : (m.value c).Wf := .need h

theorem Mach.Wf.plain {a : Nat} {data : Word} (h : m.Wf) : (m.plain a data).Wf := by
  unfold Mach.plain
  split
  · exact h
  · exact .wr h

theorem Mach.Wf.act {data : Word} {i : Nat} {f : Mach → Mach} (h : m.Wf) (hf : ∀ {m}, m.Wf → (f m).Wf) : (m.act data i f).Wf :=
  .when h hf

theorem Mach.Wf.lockWrite {master a : Nat} {data : Word} (h : m.Wf) : (m.lockWrite master a data).Wf :=
  .ite (.refuse h) (.ite h (.ite (.refuse h) (.ite (.ite (.refuse h) (.wr h)) (.ite (.ite (.refuse h) (.opRelease h)) (.wr h)))))

theorem Mach.Wf.admitTiming {t : Nat} {cfg : Word} {go : Mach → Mach} (h : m.Wf) (hf : ∀ {m}, m.Wf → (go m).Wf) :
    (m.admitTiming t cfg go).Wf :=
  .setB (.steps h (.cons .value (.cons hf .nil)))

theorem Mach.Wf.chCfgWrite {data : Word} (h : m.Wf) : (m.chCfgWrite data).Wf :=
  .ite (.steps h (.cons .keep (.cons .value .nil))) (.admitTiming h .plain)

theorem Mach.Wf.chCtrlWrite {x : Nat} {data : Word} (h : m.Wf) : (m.chCtrlWrite x data).Wf := by
  unfold Mach.chCtrlWrite
  exact .steps h (.cons .need (.cons (fun h => .when h .txEnable) (.cons (fun h => .stopFollow (.setB h))
    (.cons (fun h => .act h .roveBegin) (.cons (fun h => .act h .bootBegin) (.cons (fun h => .act h .clearRegs) .nil))))))

theorem Mach.Wf.chWrite {a : Nat} {data : Word} (h : m.Wf) : (m.chWrite a data).Wf :=
  .ite (.chCtrlWrite (.chainSettle h)) (.ite (.chCfgWrite (.chainSettle h))
    (.ite (.refuse (.chainSettle h)) (.plain (.chainSettle h))))

theorem Mach.Wf.flyOff {a : Nat} {data : Word} {ok : Bool} (h : m.Wf) : (m.flyOff a data ok).Wf :=
  .steps h (.cons .keep (.cons .value (.cons .plain .nil)))

theorem Mach.Wf.flyWrite {master a : Nat} {data : Word} (h : m.Wf) : (m.flyWrite master a data).Wf :=
  .ite (.steps h (.cons .keep (.cons .plain (.cons (fun h => .act h .withdrawStop)
    (.cons (fun h => .act h .stopWith) (.cons (fun h => .act h .clearRegs) .nil))))))
    (.ite (.ite (.steps h (.cons .keep (.cons .value .nil))) (.admitTiming h .plain))
    (.ite (.flyOff h) (.ite (.flyOff h) (.ite (.flyOff h) (.ite (.flyOff h)
    (.ite (.flyOff h) (.ite (.steps h (.cons .keep (.cons .item .nil))) (.plain h))))))))

theorem Mach.Wf.capKeep {a : Nat} {data : Word} (h : m.Wf) : (m.capKeep a data).Wf := .keep h

theorem Mach.Wf.spOwner {master : Nat} (h : m.Wf) : (m.spOwner master).Wf := .need h

theorem Mach.Wf.snsWrite {master a : Nat} {data : Word} (h : m.Wf) : (m.snsWrite master a data).Wf :=
  .ite (.steps h (.cons .keep (.cons .plain (.cons (fun h => .act h .isoAsk) (.cons (fun h => .act h .clearRegs) .nil)))))
    (.ite (.steps h (.cons .keep (.cons .value (.cons .item .nil)))) (.ite (.steps h (.cons .value (.cons .plain .nil)))
    (.ite (.lockWrite h) (.ite (.steps h (.cons .spOwner (.cons .value (.cons .plain .nil))))
    (.ite (.steps h (.cons .spOwner (.cons .plain .nil))) (.ite (.steps h
    (.cons .spOwner (.cons .plain (.cons (fun h => .act h .commit) .nil))))
    (.ite (.steps h (.cons .capKeep (.cons .value (.cons .plain (.cons (fun h => .act h .capArm)
    (.cons (fun h => .act h .capAbort) .nil)))))) (.ite (.steps h (.cons .capKeep (.cons .value (.cons .plain .nil))))
    (.ite (.steps h (.cons .capKeep (.cons .value (.cons .plain .nil))))
    (.ite (.steps h (.cons .capKeep (.cons .plain .nil))) (.ite (.steps h
    (.cons .value (.cons .plain (.cons (fun h => .act h .owNow) (.cons (fun h => .act h .owAbort) .nil)))))
    (.ite (.steps h (.cons .plain (.cons (fun h => .act h .clrCause) (.cons (fun h => .act h .clearRegs) .nil))))
    (.plain h)))))))))))))

theorem Mach.Wf.ownProgram (h : m.Wf) : m.ownProgram.Wf := .mk h

theorem Mach.Wf.spnWrite {a : Nat} {data : Word} (h : m.Wf) : (m.spnWrite a data).Wf :=
  .ite (.steps h (.cons .keep (.cons .plain (.cons (fun h => .act h .spnRun)
    (.cons (fun h => .act h .spnStop) (.cons (fun h => .act h .spnSelftest)
    (.cons (fun h => .act h .clearRegs) (.cons (fun h => .act h .trapClear) .nil))))))))
    (.ite (.steps h (.cons .keep (.cons (fun h => .when h .ownProgram) (.cons .plain .nil))))
    (.ite (.steps h (.cons .keep (.cons .value (.cons (fun h => .when h .ownProgram) (.cons .plain .nil)))))
    (.ite (.steps h (.cons .plain (.cons (fun h => .act h .swap) (.cons (fun h => .act h .bankCopy)
    (.cons (fun h => .act h .cancel) .nil))))) (.ite (.steps h (.cons .keep (.cons .plain .nil)))
    (.ite (.steps h (.cons .keep (.cons .plain .nil))) (.plain h))))))

theorem Mach.Wf.cmpWrite {a : Nat} {data : Word} (h : m.Wf) : (m.cmpWrite a data).Wf := by
  unfold Mach.cmpWrite
  dsimp only
  split
  · exact .steps h (.cons .need (.cons .value (.cons .value (.cons .plain .nil))))
  · exact .steps h (.cons .need (.cons .keep (.cons .plain .nil)))
  · exact .steps h (.cons .need (.cons .keep (.cons .value (.cons .plain .nil))))
  · exact .steps h (.cons .need (.cons .keep (.cons .value (.cons .plain .nil))))

theorem Mach.Wf.tbWrite {master a : Nat} {data : Word} (h : m.Wf) : (m.tbWrite master a data).Wf :=
  .ite (.tbCtrlWrite h) (.ite (.incrWrite h) (.ite (.adjWrite h) (.ite (.steps h (.cons .need (.cons .plain .nil)))
    (.ite (.steps h (.cons .value (.cons .plain .nil))) (.ite (.steps h (.cons .value (.cons .plain .nil)))
    (.ite (.cmpWrite h) (.ite (.captureArm h) (.plain h))))))))

theorem Mach.Wf.ethWrite {master a : Nat} {data : Word} (h : m.Wf) : (m.ethWrite master a data).Wf :=
  .ite (.act h .clearRegs) (.ite (.steps h (.cons .value (.cons .plain .nil)))
    (.ite (.steps h (.cons .value (.cons .plain .nil))) (.ite (.steps h (.cons .value (.cons .plain .nil)))
    (.ite (.steps h (.cons .value (.cons .plain .nil))) (.ite (.sessCloseWrite h)
    (.ite (.steps h (.cons .keep (.cons .value (.cons .plain .nil)))) (.plain h)))))))

theorem Mach.Wf.mbxWrite {master a : Nat} {data : Word} (h : m.Wf) : (m.mbxWrite master a data).Wf := by
  refine .ite (.steps h (.cons .value (.cons .plain .nil))) (.ite (.ite (.lockWrite h) (.plain h))
    (.ite (.mbxCtrlWrite h) (.ite (.lockWrite h) (.ite ?_ h))))
  split
  · exact .refuse h
  · exact .plain h

theorem Mach.Wf.opWrite {master a : Nat} {data : Word} (h : m.Wf) : (m.opWrite master a data).Wf := by
  refine .ite (.refuse h) (.ite (.plain h) (.ite (.steps h (.cons (fun h => ?_)
    (.cons .need (.cons .plain (.cons (fun h => .act h .opStart) (.cons (fun h => .act h .opAbort) .nil))))))
    (.ite (.lockWrite h) (.ite (.opAck h) (.ite (.steps h (.cons (fun h => ?_) (.cons .need (.cons .plain .nil)))) h)))))
  · split
    · exact .refuse h
    · exact h
  · split
    · exact .refuse h
    · exact h

theorem Mach.Wf.qWrite {master a : Nat} {data : Word} (h : m.Wf) : (m.qWrite master a data).Wf :=
  .ite h (.ite (.streamWrite h) (.ite (.steps h (.cons .need (.cons .value (.cons .plain .nil)))) h))

theorem Mach.Wf.canCtrlWrite {x : Nat} {data : Word} (h : m.Wf) : (m.canCtrlWrite x data).Wf :=
  .steps h (.cons .need (.cons .plain (.cons (fun h => .when h .canJoining)
    (.cons (fun h => .act h .canRecover) (.cons (fun h => .act h .clearRegs) .nil)))))

theorem Mach.Wf.canBufWrite {master x a : Nat} {data : Word} (h : m.Wf) : (m.canBufWrite master x a data).Wf :=
  .ite (.refuse h) (.ite (.steps h (.cons .keep (.cons .plain (.cons (fun h => .act h .off)
    (.cons (fun h => .act h .canResume) (.cons (fun h => .act h .mbCommit) (.cons (fun h => .act h .canFree) .nil)))))))
    (.ite (.steps h (.cons .keep (.cons .plain .nil))) (.plain h)))

theorem Mach.Wf.canWrite {master a : Nat} {data : Word} (h : m.Wf) : (m.canWrite master a data).Wf :=
  .ite (.canCtrlWrite h) (.ite (.steps h (.cons .keep (.cons .value (.cons .plain .nil))))
    (.ite (.steps h (.cons .keep (.cons .value (.cons .plain .nil)))) (.ite
    (.steps h (.cons .keep (.cons .value (.cons .plain .nil)))) (.ite (.steps h (.cons .keep (.cons .plain .nil)))
    (.ite (.act h .canPop) (.ite (.canBufWrite h) (.plain h)))))))

theorem Mach.Wf.pwrWrite {master a : Nat} {data : Word} (h : m.Wf) : (m.pwrWrite master a data).Wf :=
  .ite (.pdWrite h) (.ite (.act h .clearRegs) (.ite (.resetCtrlWrite h) (.plain h)))

theorem Mach.Wf.xlWrite {a : Nat} {data : Word} (h : m.Wf) : (m.xlWrite a data).Wf :=
  .ite (.steps h (.cons .keep (.cons .value (.cons .plain .nil)))) (.ite
    (.steps h (.cons (fun h => .act h .handoverAsk) (.cons (fun h => .act h .resyncAsk) (.cons (fun h => .act h .xlClear) .nil))))
    (.plain h))

theorem Mach.Wf.safWrite {master a : Nat} {data : Word} (h : m.Wf) : (m.safWrite master a data).Wf :=
  .ite (.keyWrite h) (.ite (.steps h (.cons .need (.cons .keep (.cons .plain .nil)))) (.plain h))

theorem Mach.Wf.memWrite {a : Nat} {data : Word} (h : m.Wf) : (m.memWrite a data).Wf :=
  .ite (.act h .memClear) (.ite (.steps h (.cons .value (.cons .plain .nil))) (.ite (.remapWrite h) (.plain h)))

theorem Mach.Wf.mgtWrite {master a : Nat} {data : Word} (h : m.Wf) : (m.mgtWrite master a data).Wf :=
  .ite (.steps h (.cons .value (.cons .plain .nil))) (.ite (.steps h (.cons .need (.cons .plain .nil))) (.plain h))

theorem Mach.Wf.bankMirror {a : Nat} {w : Word} (h : m.Wf) : (m.bankMirror a w).Wf := .ite (.item h) h

theorem Mach.Wf.memoryWrite {a : Nat} {data : Word} (h : m.Wf) : (m.memoryWrite a data).Wf := by
  unfold Mach.memoryWrite
  split
  · exact .refuse h
  · exact .ite (.refuse (.abandonWrite (.mergeMeet h))) (.bankMirror (.when (.storeWord (.mergeMeet h)) .ownProgram))

theorem Mach.Wf.memoryWrite2 {a : Nat} {w0 w1 : Word} (h : m.Wf) : (m.memoryWrite2 a w0 w1).Wf := by
  unfold Mach.memoryWrite2
  split
  · exact .refuse h
  · exact .bankMirror (.bankMirror (.when (.storeFull h) .ownProgram))

theorem Mach.Wf.blockWrite {master a : Nat} {data : Word} (h : m.Wf) : (m.blockWrite master a data).Wf := by
  refine .ite (.spnWrite h) ?_
  split
  · exact .pwrWrite h
  · exact .tbWrite h
  · exact .mbxWrite h
  · exact .qWrite h
  · exact .opWrite h
  · exact .memWrite h
  · exact .chWrite h
  · exact .chWrite h
  · exact .flyWrite h
  · exact .xlWrite h
  · exact .ethWrite h
  · exact .canWrite h
  · exact .canWrite h
  · exact .safWrite h
  · exact .snsWrite h
  · exact .mgtWrite h
  · exact .plain h

theorem Mach.Wf.hostWrite {master a : Nat} {data : Word} (h : m.Wf) : (m.hostWrite master a data).Wf := by
  unfold Mach.hostWrite
  split
  · exact .refuse h
  · exact .irqSettle (.access h (fun h => .ite (.memoryWrite h) (.blockWrite h)))

theorem Mach.Wf.readWords {master a n i : Nat} {single : Bool} {ws : List Word} (h : m.Wf) :
    (m.readWords master a single n i ws).1.Wf := by
  induction n generalizing m i ws with
  | zero => exact h
  | succ n ih => exact .ite_fst (.hostRead h) (ih (.hostRead h))

theorem Mach.Wf.writeWords {master a i : Nat} {ws : List Word} {done : Bool} (h : m.Wf) :
    (m.writeWords master a ws i done).1.Wf := by
  induction ws generalizing m i done with
  | nil => exact h
  | cons w ws ih =>
    have hrest {k : Mach} {d : Bool} (hk : k.Wf) :
        (if k.bad then (k, stopped k i []) else k.writeWords master a ws (i + 1) d).1.Wf := .ite_fst hk (ih hk)
    refine .ite_fst (ih h) (hrest ?_)
    split
    · exact .access h .memoryWrite2
    · exact .hostWrite h

theorem Mach.Wf.accessOp {master total : Nat} {x : AccessOp} (h : m.Wf) : (m.accessOp master total x).1.Wf := by
  unfold Mach.accessOp
  split
  · exact .ite_fst h (.ite_fst h (.readWords h))
  · exact .ite_fst h (.ite_fst h (.writeWords h))

theorem Mach.Wf.accessOps {master rd wr : Nat} {stop failed : Bool} {ops : List AccessOp} (h : m.Wf) :
    (m.accessOps master stop failed rd wr ops).1.Wf := by
  induction ops generalizing m failed rd wr with
  | nil => exact h
  | cons op ops ih => exact ih (.ite_fst h (.accessOp h))

theorem Mach.Wf.requestRun {x : Nat} {bytes : List Byte} {q : DareriReq} (h : m.Wf) : (m.requestRun x bytes q).Wf :=
  .ite (.send (.onSession (.accessOps h))) (.accessOps h)

theorem Mach.Wf.requestTake {x : Nat} {z : Session} {bytes : List Byte} {q : DareriReq} (h : m.Wf) :
    (m.requestTake x z bytes q).Wf := by
  unfold Mach.requestTake
  split
  · exact .ite (.send h) (.send h)
  · exact .requestRun h

theorem Mach.Wf.recordRx {x : Nat} {bytes : List Byte} {authentic ringFull : Bool} (h : m.Wf) :
    (m.recordRx x bytes authentic ringFull).Wf := by
  unfold Mach.recordRx
  split
  · exact h
  · refine .ite (.count h) ?_
    dsimp only
    split
    · exact .count (.recordSeen h)
    · refine .ite (.keepaliveRx (.recordSeen h)) (.ite (.telegramFrom (.recordSeen h)) ?_)
      split
      · exact .count (.recordSeen h)
      · exact .ite (.when (.count (.recordSeen h)) .count) (.requestTake (.recordSeen h))

/-! ## Vector arithmetic -/

theorem Mach.Wf.vector2 {d a b : VReg} {mask : MReg} {lat : Nat} {f : Dy → Dy → Dy → PlyRes} (h : m.Wf) :
    (m.vector2 d a b mask lat f).Wf :=
  .relud h .vwrite

theorem Mach.Wf.vector2q {d a b : VReg} {mask : MReg} {lat : Nat} {f : Dy → Dy → Dy → Dy} (h : m.Wf) :
    (m.vector2q d a b mask lat f).Wf :=
  .relud h .vwrite

theorem Mach.Wf.vectorS {d a : VReg} {b : SReg} {mask : MReg} {lat : Nat} {f : Dy → Dy → Dy → PlyRes} (h : m.Wf) :
    (m.vectorS d a b mask lat f).Wf :=
  .relud h .vwrite

theorem Mach.Wf.vectorSq {d a : VReg} {b : SReg} {mask : MReg} {lat : Nat} {f : Dy → Dy → Dy → Dy} (h : m.Wf) :
    (m.vectorSq d a b mask lat f).Wf :=
  .relud h .vwrite

theorem Mach.Wf.vector1 {d a : VReg} {mask : MReg} {lat : Nat} {f : Dy → PlyRes} (h : m.Wf) : (m.vector1 d a mask lat f).Wf :=
  .relud h .vwrite

theorem Mach.Wf.vector1q {d a : VReg} {mask : MReg} {lat : Nat} {f : Dy → Dy} (h : m.Wf) : (m.vector1q d a mask lat f).Wf :=
  .relud h .vwrite

theorem Mach.Wf.vector1o {d a : VReg} {mask : MReg} {lat : Nat} {f : Dy → Dy} (h : m.Wf) : (m.vector1o d a mask lat f).Wf :=
  .relud h .vwrite

theorem Mach.Wf.integer2 {d a b : VReg} {mask : MReg} {f : Mant → Mant → Mant} (h : m.Wf) : (m.integer2 d a b mask f).Wf :=
  .run h .setV

/-! ## Cross-lane instructions -/

theorem Mach.Wf.cross {d a : VReg} {k : PlyIx} {mask : MReg} {lat : Nat} {f : List (Nat × Dy) → Nat → Lane × LaneFlags} (h : m.Wf)
    : (m.cross d a k mask lat f).Wf :=
  .relud h .vwrite

theorem Mach.Wf.moveLanes {d a : VReg} {from' : Nat → Option Nat} (h : m.Wf) : (m.moveLanes d a from').Wf := .setV h

/-! ## Masks -/

theorem Mach.Wf.writeCmp {md mask : MReg} {f : Nat → Nat → Bool} (h : m.Wf) : (m.writeCmp md mask f).Wf := .setM h

theorem Mach.Wf.compare2 {md : MReg} {a b : VReg} {mask : MReg} {c : Dy → Dy → Bool} (h : m.Wf) : (m.compare2 md a b mask c).Wf :=
  .run h .writeCmp

theorem Mach.Wf.compareS {md : MReg} {a : VReg} {b : SReg} {mask : MReg} {c : Dy → Dy → Bool} (h : m.Wf) :
    (m.compareS md a b mask c).Wf :=
  .run h .writeCmp

theorem Mach.Wf.mask2 {md ma mb : MReg} {f : BitVec 8 → BitVec 8 → BitVec 8} (h : m.Wf) : (m.mask2 md ma mb f).Wf :=
  .run h .setM

/-! ## Memory instructions -/

theorem Mach.Wf.hitPoison {a n agent : Nat} (h : m.Wf) : (m.hitPoison a n agent).Wf := .each h .poisonHit

theorem Issued.Wf.ldsBody {d : SReg} {addr : Word} (h : m.Wf) : (m.ldsBody d addr).Wf :=
  .ite (.trapped h) (.ite (.done (.setS (.when h .meet))) (.ite (.done (.setS (.addFlags (.count (.poisonHit (.when h .meet))))))
    (.done (.setS (.when h .meet)))))

theorem Issued.Wf.stsBody {addr w : Word} (h : m.Wf) : (m.stsBody addr w).Wf :=
  .ite (.trapped h) (.ite (.done (.laneWord h)) (.done h))

theorem Mach.Wf.meetLanes {off n : Nat} (h : m.Wf) : (m.meetLanes off n).Wf := .ite h (.each h .meet)

theorem Mach.Wf.loadPoison {bad : List Nat} {off n : Nat} (h : m.Wf) : (m.loadPoison bad off n).Wf :=
  .ite h (.addFlags (.count (.each h .hitPoison)))

theorem Issued.Wf.vldBody {d : VReg} {off : Nat} {mask : MReg} (h : m.Wf) : (m.vldBody d off mask).Wf :=
  .ite (.trapped h) (.done (.setV (.loadPoison (.meetLanes h))))

theorem Mach.Wf.storeLane {a : Nat} {mask : BitVec 8} {l : Lane} (h : m.Wf) : (m.storeLane a mask l).Wf := by
  refine .ite (.laneFull h) (.each h (fun h => ?_))
  dsimp only
  split
  · exact .laneFull h
  · exact .laneWord h
  · exact .laneWord h
  · exact h

theorem Issued.Wf.vstBody {va : VReg} {off : Nat} {mask : MReg} (h : m.Wf) : (m.vstBody va off mask).Wf :=
  .ite (.trapped h) (.done (.each h .storeLane))

theorem Issued.Wf.bankPoison {off n lane : Nat} (h : m.Wf) {i : Issued} (hi : m.bankPoison off n lane = some i) : i.Wf := by
  unfold Mach.bankPoison at hi
  split at hi <;> cases hi
  exact .trapped (.hitPoison h)

theorem Mach.Wf.meetBank {off n : Nat} (h : m.Wf) : (m.meetBank off n).Wf := .meet h

theorem Issued.Wf.ldpsBody {d : SReg} {addr : Word} (h : m.Wf) : (m.ldpsBody d addr).Wf :=
  .ite (.trapped h) (.getD (Issued.Wf.bankPoison (.meetBank h)) (.done (.setS (.meetBank h))))

theorem Issued.Wf.vldpBody {d : VReg} {off : Nat} {mask : MReg} (h : m.Wf) : (m.vldpBody d off mask).Wf :=
  .ite (.trapped h) (.getD (Issued.Wf.bankPoison (.meetBank h)) (.done (.setV (.meetBank h))))

theorem Issued.Wf.vldpxBody {d : VReg} {off stride : Nat} {mask : MReg} (h : m.Wf) : (m.vldpxBody d off stride mask).Wf := by
  refine .ite (.trapped h) (.ite (.trapped h) ?_)
  dsimp only
  split
  · exact .trapped (.hitPoison (.ite h (.each h .meetBank)))
  · exact .done (.setV (.ite h (.each h .meetBank)))

theorem Issued.Wf.frldBody {d : VReg} {item : FrldItem} {prev : Bool} {mask : MReg} (h : m.Wf) :
    (m.frldBody d item prev mask).Wf :=
  .ite (.trapped h) (.done (.setV (.ite (.each (.ite h (.each h .meet)) .hitPoison)
    (.addFlags (.each (.ite h (.each h .meet)) .hitPoison)))))

theorem Issued.Wf.frameWord {off : Nat} {prev : Bool} {k : Mach → Word → Bool → Issued} (h : m.Wf)
    (hf : ∀ {m x1 x2}, m.Wf → (k m x1 x2).Wf) : (m.frameWord off prev k).Wf :=
  .ite (.trapped h) (.ite (.trapped h) (.ite (hf (.poisonHit (.meet h))) (hf (.meet h))))

/-! ## Matrices -/

theorem Issued.Wf.mxldBody {x : XReg} {off : Nat} (h : m.Wf) : (m.mxldBody x off).Wf :=
  .ite (.trapped h) (.done (.setMx (.loadPoison (.meetLanes h))))

theorem Mach.Wf.matVec {d : VReg} {x : XReg} {b : VReg} {mask : MReg} {t acc : Bool} (h : m.Wf) :
    (m.matVec d x b mask t acc).Wf :=
  .relud h .vwrite

theorem Issued.Wf.mxwrite {x : XReg} {res : Nat → Vector (Lane × LaneFlags) 8} (h : m.Wf) : (m.mxwrite x res).Wf := by
  unfold Mach.mxwrite
  dsimp only
  split
  · exact .trapped (.addFlags h)
  · exact .done (.setMx (.addFlags h))

/-! ## Scalar instructions -/

theorem Mach.Wf.scalar2 {d a b : SReg} {lat : Nat} {f : Word → Word → Word} (h : m.Wf) : (m.scalar2 d a b lat f).Wf :=
  .run h .setS

theorem Mach.Wf.scalarI {d a : SReg} {size : Nat} {f : Word → Word} (h : m.Wf) : (m.scalarI d a size f).Wf := .run h .setS

theorem Mach.Wf.branch {d a : SReg} {imm : Imm} {c : Word → Word → Bool} (h : m.Wf) : (m.branch d a imm c).Wf :=
  .relud h .done

theorem Issued.Wf.loopBody {count : Word} {len : Nat} (h : m.Wf) : (m.loopBody count len).Wf :=
  .ite (.trapped h) (.ite (.done h) (.ite (.trapped h) (.done (.mk h))))

/-! ## String instructions -/

theorem Issued.Wf.beforeEmit {f : Mach → Issued} (h : m.Wf) (hf : ∀ {m}, m.Wf → (f m).Wf) : (m.beforeEmit f).Wf :=
  .ite (.trapped h) (hf h)

theorem Issued.Wf.injWrite {d : VReg} {v : Option Dy} {active : Bool} (h : m.Wf) : (m.injWrite d v active).Wf := by
  unfold Mach.injWrite
  exact .vwrite h

theorem Issued.Wf.injBody {d : VReg} {off cyc : Word} (h : m.Wf) : (m.injBody d off cyc).Wf :=
  .ite (.trapped h) (.getD (Issued.Wf.bankPoison (.meetBank h)) (.injWrite (.meetBank h)))

theorem Issued.Wf.multisineBody {d : VReg} {off cyc : Word} (h : m.Wf) : (m.multisineBody d off cyc).Wf :=
  .ite (.trapped h) (.ite (.trapped h) (.getD (Issued.Wf.bankPoison (.meetBank h)) (.injWrite (.meetBank h))))

/-! ## Reference values -/

theorem Mach.Wf.bankTake (h : m.Wf) : m.bankTake.1.Wf := .ite_fst (.mk h) h

/-! ## The reference program: fast section -/

theorem Mach.Wf.refWatch (h : m.Wf) : m.refWatch.1.Wf := .mk h

theorem Mach.Wf.beginNodes (h : m.Wf) : m.beginNodes.Wf := .mk h

theorem Mach.Wf.bolRestart {old : RefProgState} (h : m.Wf) : (m.bolRestart old).Wf := .mk h

theorem Mach.Wf.swapEffects {mode : Nat} (h : m.Wf) : (m.swapEffects mode).Wf := .mk h

theorem Mach.Wf.refCheck (h : m.Wf) : m.refCheck.1.Wf :=
  .ite_fst (.beginNodes (.bolRestart (.bankTake (.mk h)))) (.ite_fst (.ite (.swapEffects (.bolRestart (.bankTake h)))
    (.bankTake h)) h)

theorem Mach.Wf.refFast (h : m.Wf) : m.refFast.Wf := .mk (.refWatch (.refCheck h))

/-! ## The reference program: estimation -/

theorem Mach.Wf.laneVector {n off : Nat} {ws : List Word} (h : m.Wf) : (m.laneVector n off ws).Wf := .ite (.laneFull h) h

theorem Mach.Wf.writeNode {n : Nat} (h : m.Wf) : (m.writeNode n).Wf :=
  .laneVector (.laneVector (.laneVector (.laneVector (.laneVector (.laneVector (.laneVector (.laneVector (.laneVector h))))))))

theorem Mach.Wf.writeStep {n w : Nat} {step : Int} (h : m.Wf) : (m.writeStep n w step).Wf := .laneVector h

theorem Mach.Wf.leaSquare {n : Nat} {s : Word} (h : m.Wf) : (m.leaSquare n s).Wf := .ite h (.mk h)

theorem Mach.Wf.estNode {iM alpha : Rat} {n : Nat} (h : m.Wf) : (m.estNode iM alpha n).Wf := by
  unfold Mach.estNode
  extract_lets x reqWas inval x' x'' s due put k
  have hk : k.Wf := .when h (fun h => .each h .laneVector)
  refine .ite ?_ (.ite (.writeNode (.mk hk)) (.mk hk))
  split
  next => exact .leaSquare (.writeNode (.mk hk))
  next =>
    dsimp only
    split
    · exact .writeStep (.leaSquare (.writeNode (.mk hk)))
    · exact .leaSquare (.writeNode (.mk hk))

theorem Mach.Wf.writeLea {n : Nat} {z : Nat → Nat → Option (Rat × Rat)} {x : NodeEst} {rep lea : Nat} (h : m.Wf) :
    (m.writeLea n z x rep lea).Wf :=
  .laneVector (.each h (fun h => .laneVector (.laneVector h)))

theorem Mach.Wf.writeTemps {n : Nat} (h : m.Wf) : (m.writeTemps n).Wf := .laneVector (.laneVector h)

theorem Mach.Wf.leaNode {lea n : Nat} (h : m.Wf) : (m.leaNode lea n).Wf := .writeNode (.writeTemps (.writeLea (.mk h)))

theorem Mach.Wf.leaDrop (h : m.Wf) : m.leaDrop.Wf := .mk h

theorem Mach.Wf.leaTick (h : m.Wf) : m.leaTick.Wf := .ite h (.mk (.ite (.mk (.leaDrop (.ite (.mk (.each h .leaNode)) h))) h))

theorem Mach.Wf.leakEnd (h : m.Wf) : m.leakEnd.Wf := .each (.mk h) (fun h => .writeNode (.laneVector h))

theorem Mach.Wf.leakTick (h : m.Wf) : m.leakTick.Wf := .ite (.leakEnd h) h

/-! ## The reference program: thermal limits -/

theorem Mach.Wf.secondTick (h : m.Wf) : m.secondTick.Wf := .mk (.mk h)

theorem Mach.Wf.writeThermal {n : Nat} (h : m.Wf) : (m.writeThermal n).Wf :=
  .writeNode (.laneVector (.laneVector (.laneVector h)))

theorem Mach.Wf.secondStep (h : m.Wf) : m.secondStep.Wf := by
  unfold Mach.secondStep
  split
  · exact h
  · exact .each (.mk (.secondTick h)) .writeThermal

theorem Mach.Wf.limitStep (h : m.Wf) : m.limitStep.Wf := .mk h

theorem Mach.Wf.levelCleared (h : m.Wf) : m.levelCleared.Wf := .ite (.mk h) h

theorem Mach.Wf.summaryWrite (h : m.Wf) : m.summaryWrite.Wf := .laneVector h

theorem Mach.Wf.clearResults {n : Nat} (h : m.Wf) : (m.clearResults n).Wf := .writeNode (.each h .laneVector)

theorem Mach.Wf.modeOld (h : m.Wf) : m.modeOld.Wf := .ite h (.mk h)

theorem Mach.Wf.refEstimate (h : m.Wf) : m.refEstimate.Wf :=
  .summaryWrite (.limitStep (.leakTick (.secondStep (.leaTick (.each (.levelCleared
    (.when (.when (.modeOld h) (fun h => .each h .clearResults)) (fun h => .each h .writeNode))) .estNode)))))

/-! ## A program of the host -/

theorem Mach.Wf.illegalWord {size : Nat} (h : m.Wf) : (m.illegalWord size).Wf := .relud h .trapped

/-- What a Relud instruction does keeps the stores. -/
theorem reludMeaning_keepsStores {c : Instr} {f : State → Host.Outcome State Fault Refusal} {s : State} (h : s.mach.Wf)
    (hf : reludMeaning c = some f) : KeepsStores (f s) := by
  cases c with
  | add | sub | and | or | xor | sll | srl | sra | mul | mulh | slt | sltu | min | max =>
    cases hf
    exact .eff (.scalar2 h)
  | jalr | rdsc =>
    cases hf
    exact .eff (.relud h (fun h => .done (.setS h)))
  | rdtb =>
    cases hf
    exact .eff (.relud h (fun h => .ite (.trapped h) (.done (.setS h))))
  | secend =>
    cases hf
    exact .eff (.relud h (fun h => .done (.endSection h)))
  | nop =>
    cases hf
    exact .eff (.run h id)
  | addi | andi | ori | xori =>
    cases hf
    exact .eff (.scalarI h)
  | lui =>
    cases hf
    exact .eff (.run h .setS)
  | slti =>
    cases hf
    exact .eff (.scalarI h)
  | shi =>
    cases hf
    refine .eff (.relud h (fun h => ?_))
    split
    · exact .done (.setS h)
    · exact .done (.setS h)
    · exact .done (.setS h)
    · exact .trapped h
  | beq | bne | blt | bge =>
    cases hf
    exact .eff (.branch h)
  | jal =>
    cases hf
    exact .eff (.relud h (fun h => .done (.setS h)))
  | loop =>
    cases hf
    exact .eff (.relud h .loopBody)
  | waitcyc =>
    cases hf
    exact .eff (.run h id)
  | tsamp =>
    cases hf
    exact .eff (.relud h (fun h => .frameWord h (fun h => .done (.setS h))))
  | lds =>
    cases hf
    exact .eff (.relud h .ldsBody)
  | sts =>
    cases hf
    exact .eff (.relud h .stsBody)
  | ldps =>
    cases hf
    exact .eff (.relud h .ldpsBody)
  | vld =>
    cases hf
    exact .eff (.relud h .vldBody)
  | vst =>
    cases hf
    exact .eff (.relud h .vstBody)
  | vldp =>
    cases hf
    exact .eff (.relud h .vldpBody)
  | vldpx =>
    cases hf
    exact .eff (.relud h .vldpxBody)
  | frld =>
    cases hf
    exact .eff (.relud h .frldBody)
  | frls =>
    cases hf
    exact .eff (.relud h (fun h => .frameWord h (fun h => .done (.setS h))))
  | frlb =>
    cases hf
    exact .eff (.relud h (fun h => .frameWord h (fun h => .done (.setV (.ite (.addFlags h) h)))))
  | vadd | vsub | vmul | vmac | vmsb | vdiv =>
    cases hf
    exact .eff (.vector2 h)
  | vsqrt =>
    cases hf
    exact .eff (.vector1 h)
  | vabs | vneg =>
    cases hf
    exact .eff (.vector1o h)
  | vmin | vmax =>
    cases hf
    exact .eff (.vector2q h)
  | vmov =>
    cases hf
    exact .eff (.run h .setV)
  | vcvtif | vcvtfi | vscl =>
    cases hf
    exact .eff (.relud h .vwrite)
  | vsin | vcos =>
    cases hf
    exact .eff (.vector1q h)
  | vclmp =>
    cases hf
    exact .eff (.vector2q h)
  | vadds | vsubs | vmuls | vmacs | vmsbs | vdivs =>
    cases hf
    exact .eff (.vectorS h)
  | vmins | vmaxs =>
    cases hf
    exact .eff (.vectorSq h)
  | iadd | isub | iand | ior | ixor | ishl | ishr | isar | imul | imin | imax =>
    cases hf
    exact .eff (.integer2 h)
  | ceq | cne | clt | cle | cgt | cge =>
    cases hf
    exact .eff (.compare2 h)
  | hys =>
    cases hf
    exact .eff (.relud h (fun h => .ite (.trapped h) (.done (.writeCmp h))))
  | ceqs | cnes | clts | cles | cgts | cges =>
    cases hf
    exact .eff (.compareS h)
  | mand | mor | mxor | mandn =>
    cases hf
    exact .eff (.mask2 h)
  | mnot =>
    cases hf
    exact .eff (.run h .setM)
  | mpop =>
    cases hf
    exact .eff (.run h .setS)
  | mflg =>
    cases hf
    exact .eff (.run h .setM)
  | clrflg =>
    cases hf
    exact .eff (.run h .mk)
  | vsel =>
    cases hf
    exact .eff (.run h .setV)
  | mset | mlane =>
    cases hf
    exact .eff (.run h .setM)
  | rank | order | redsum | redmax | redmin | argmax | argmin | pfx =>
    cases hf
    exact .eff (.cross h)
  | bcast | nbr | gather =>
    cases hf
    exact .eff (.run h .moveLanes)
  | psum | pdot =>
    cases hf
    exact .eff (.relud h .vwrite)
  | pbc =>
    cases hf
    exact .eff (.run h .setV)
  | pmov =>
    cases hf
    exact .eff (.relud h .vwrite)
  | splf | spli =>
    cases hf
    exact .eff (.run h .setV)
  | vins =>
    cases hf
    exact .eff (.relud h .vwrite)
  | vext =>
    cases hf
    exact .eff (.run h .setS)
  | mxld =>
    cases hf
    exact .eff (.relud h .mxldBody)
  | mxst =>
    cases hf
    exact .eff (.relud h (fun h => .ite (.trapped h) (.done (.each h .laneFull))))
  | mxrow =>
    cases hf
    exact .eff (.run h .setMx)
  | mxget =>
    cases hf
    exact .eff (.run h .setV)
  | mxmul | mxmac | mxmult =>
    cases hf
    exact .eff (.matVec h)
  | mxr1 =>
    cases hf
    exact .eff (.relud h .mxwrite)
  | emit | trim =>
    cases hf
    exact .eff (.relud h (fun h => .beforeEmit h (fun h => .done (.mk h))))
  | prof =>
    cases hf
    exact .eff (.relud h .mxwrite)
  | inj =>
    cases hf
    exact .eff (.relud h .injBody)
  | injMultisine =>
    cases hf
    exact .eff (.relud h .multisineBody)
  | skrec =>
    cases hf
    exact .eff (.relud h (fun h => .beforeEmit h (fun h => .done (.mk h))))
  | skw =>
    cases hf
    exact .eff (.run h .storeAs)
  | skrd =>
    cases hf
    exact .eff (.relud h (fun h => .ite (.trapped (.when h .meet)) (.ite (.done (.setS (.poisonHit (.when h .meet))))
      (.done (.setS (.when h .meet))))))
  | _ => cases hf

theorem Mach.Wf.issueNext (h : m.Wf) : m.issueNext.Wf := by
  unfold Mach.issueNext
  dsimp only
  split
  · exact .illegalWord h
  next f hf =>
    obtain ⟨c, _, hc⟩ := Option.bind_eq_some_iff.mp hf
    have hk : KeepsStores (f { mach := m, pending := [] }) := reludMeaning_keepsStores h hc
    split
    next t ht => exact hk t ht
    next => exact .illegalWord h

theorem Mach.Wf.runProgram {n : Nat} (h : m.Wf) : (Mach.runProgram n m).Wf := by
  induction n generalizing m with
  | zero => exact h
  | succ n ih => exact .ite (ih (.issueNext h)) h

theorem Mach.Wf.ownSection (h : m.Wf) : m.ownSection.Wf := .runProgram h

/-! ## Sections -/

/-- Where the reference program meets poison, what its section ends with. -/
theorem Mach.Wf.refPoison {t : Mach} (h : m.Wf) (ht : m.refPoison = some t) : t.Wf := by
  unfold Mach.refPoison at ht
  dsimp only at ht
  split at ht
  · split at ht <;> cases ht
    exact .trap (.poisonHit (.mk (.freeTicked h)))
  · split at ht <;> cases ht
    exact .trap (.poisonHit h)

theorem Mach.Wf.refMeet (h : m.Wf) : m.refMeet.Wf := .each (.when h .meet) (fun h => .when (.freeTicked h) .meetOne)

theorem Mach.Wf.refSection (h : m.Wf) : m.refSection.Wf := by
  have hm : m.refMeet.Wf := .refMeet h
  unfold Mach.refSection
  dsimp only
  split
  next t ht => exact .refPoison hm ht
  next => exact .endSection (.freeTicked (.ite (.refFast (.freeTicked hm)) (.refEstimate (.freeTicked hm))))

theorem Mach.Wf.programDue (h : m.Wf) : m.programDue.Wf := .ite (.ite (.refSection h) (.ownSection h)) h

theorem Mach.Wf.fastStart (h : m.Wf) : m.fastStart.Wf := .ite (.programDue (.mk (.set h))) h

theorem Mach.Wf.resyncCycle (h : m.Wf) : m.resyncCycle.Wf :=
  .when (.snapSend (.when h (fun h => .mk (.sendXl h)))) (fun h => .set (.set h))

theorem Mach.Wf.estStart (h : m.Wf) : m.estStart.Wf :=
  .ite (.resyncCycle (.when h .overrun)) (.ite (.mk (.set (.when h .overrun)))
    (.ite (.programDue (.mk (.set (.when h .overrun)))) (.when h .overrun)))

/-! ## The idle step -/

theorem Mach.Wf.idle (h : m.Wf) : m.idle.Wf := .timeStat (.leaseForm (.chainSettle (.tick h)))

/-! ## The step -/

/-- The dispatch gives a Relud instruction its meaning. -/
theorem exec_eq_of_reludMeaning {c : Instr} {f : State → Host.Outcome State Fault Refusal} (hf : reludMeaning c = some f)
    (s : State) : exec c s = f s := by
  cases c <;> cases hf <;> rfl

/-- Every command keeps the stores in canonical form. -/
theorem exec_keepsStores {s : State} (h : s.mach.Wf) (c : Instr) : KeepsStores (exec c s) := by
  cases hm : reludMeaning c with
  | some f =>
    rw [exec_eq_of_reludMeaning hm]
    exact reludMeaning_keepsStores h hm
  | none =>
    cases c with
    | aonPowerUp => exact .eff (.powerUp h)
    | supplyWarningFall => exact .eff (.ite (.count (.setSupply h)) h)
    | supplyResetFall => exact .eff (.enterHoldup h)
    | supplyWarningRise => exact .eff (.supplyRise h)
    | brownoutTimeout => exact .eff (.brownoutTimeout h)
    | holdupOpenTimeout => exact .eff (.ite (.holdupOpen (.await h)) h)
    | holdupShed => exact .eff (.ite (.mk (.storeDrain (.each (.await h) .domainDrop))) h)
    | holdupStoreEmpty => exact .eff (.ite .aonReset h)
    | clockFault => exact .eff (.clockFault h)
    | clockRecovered => exact .eff (.clockRecovered h)
    | railFault => exact .eff (.railFault h)
    | pwrPdCtrlWrite => exact .eff (.access h .pdWrite)
    | domainZeroiseDone => exact .eff (.zeroiseDone h)
    | distaffWatchdogExpiry => exact .eff (.ite h (.distaffDown h))
    | distaffRestartDone => exact .eff (.ite (.distaffUp h) h)
    | distaffAbsentTimeout => exact .eff (.ite (.autoReset (.mk (.when h .await))) h)
    | supervisorSummaryRead => exact .eff (.ite (.summaryStop h) h)
    | moduleResetTake =>
      refine .eff ?_
      split
      · exact h
      · exact .moduleReset (.mk (.unmark (.await h)))
    | sampleInstant => exact .eff (.sampleInstant h)
    | uplinkLaunch => exact .eff (.inCycle h (fun h => .launchAll h .launchFixed))
    | senseDataWrite => exact .eff (.ite (.inCycle h .senseWrite) (.senseStream h))
    | senseFreeze => exact .eff (.inCycle h (fun h => .programDue (.senseFreeze h)))
    | fastSectionStart => exact .eff (.inCycle h .fastStart)
    | estSectionStart => exact .eff (.inCycle h .estStart)
    | sectionOverrun => exact .eff (.when h .overrun)
    | emitDeadline => exact .eff (.inCycle h .emitDeadline)
    | commandLaunch => exact .eff (.inCycle h .commandLaunch)
    | relayedCmdLaunch => exact .eff (.inCycle h .relayLaunch)
    | frameFreeze => exact .eff (.inCycle h (fun h => .programDue (.nodeFreeze h)))
    | syncLaunch => exact .eff (.inCycle h (fun h => .launchAll h .syncLaunch))
    | inputDigestReady => exact .eff (.inCycle h .inputDigest)
    | outputDigestReady => exact .eff (.inCycle h .outputDigestReady)
    | stateDigestReady => exact .eff (.inCycle h .stateDigestReady)
    | setpointApply => exact .eff (.setpointApply h)
    | setpointExpiry => exact .eff (.ite (.when (.mk (.on h)) .frameSense) h)
    | bankSwap => exact .eff (.bankSwap h)
    | hystSample => exact .eff (.hystSample h)
    | stopBroadcastStart => exact .eff (.when h .stopWith)
    | stopBroadcastEnd => exact .eff (.stopEnd h)
    | swStop => exact .eff (.access h .stopWith)
    | swRelease => exact .eff (.access h .withdrawStop)
    | flyClrCnt => exact .eff (.access h .clearRegs)
    | prechargeTimeout => exact .eff (.ite (.preFail (.await h)) h)
    | closePulseTimeout => exact .eff (.closeTimeout h)
    | brkAuxChange => exact .eff (.brkAux h)
    | brkAuxDiscrepancy => exact .eff (.ite h (.causeRun (.recordCause (.safFault (.await h)))))
    | uplinkTrainRx => exact .eff (.uplinkRx (.when h .seeSymbols))
    | cmdTrainRx => exact .eff (.when (.cmdRx (.when h .seeSymbols)) .partnerTrain)
    | mgmtResponseRx =>
      refine .eff (.when h (fun h => ?_))
      dsimp only
      split
      · exact .mk (.when (.seeSymbols h) .count)
      · exact .when (.seeSymbols h) .count
    | turnNoticeRx => exact .eff (.when h (fun h => .breakSeen (.setPort (.set h))))
    | portLockLoss => exact .eff (.when h .lockLost)
    | portLockTimeout => exact .eff (.lockTimeout h)
    | ringClose => exact .eff (.ringClose h)
    | periodicAssign => exact .eff (.periodicAssign h)
    | nodeRejoinRelease => exact .eff (.rejoinRelease h)
    | positionIsolated => exact .eff (.isolate h)
    | rove => exact .eff (.access h (fun h => .ite (.roveBegin (.mk h)) (.refuse h)))
    | boot => exact .eff (.access h (fun h => .ite (.bootBegin (.mk h)) (.refuse h)))
    | launch => exact .eff (.access h (fun h => .stopFollow (.setB h)))
    | txEn => exact .eff (.access h .txEnable)
    | chxClrCnt => exact .eff (.access h .clearRegs)
    | spnRun => exact .eff (.access h .spnRun)
    | spnStop => exact .eff (.access h .spnStop)
    | spnSelftest => exact .eff (.access h .spnSelftest)
    | laneSelftestEnd => exact .eff (.selftestEnd h)
    | clrTrap => exact .eff (.access h .trapClear)
    | spnClrCnt => exact .eff (.access h .clearRegs)
    | swap => exact .eff (.access h .swap)
    | cancel => exact .eff (.access h .cancel)
    | copy => exact .eff (.access h .bankCopy)
    | bankCopyDone => exact .eff (.bankCopied h)
    | commit => exact .eff (.access h (fun h => .ite (.refuse h) (.commit h)))
    | isoStart => exact .eff (.access h .isoAsk)
    | isoMeasDone => exact .eff (.isoDone h)
    | snsClrCnt => exact .eff (.access h .clearRegs)
    | arm => exact .eff (.access h .capArm)
    | abort => exact .eff (.access h .capAbort)
    | captureRecord => exact .eff (.inCycle h .capRecord)
    | owNow => exact .eff (.access h .owNow)
    | owAbort => exact .eff (.access h .owAbort)
    | owSweepPeriod => exact .eff (.owDue h)
    | owWireTest => exact .eff (.when h .wireTested)
    | owNodeTimeout => exact .eff (.when h (fun h => .nodeDone (.count (.await h))))
    | requestWordPoll => exact .eff (.requestPoll h)
    | quietModeWrite => exact .eff (.quietWrite h)
    | clrCause => exact .eff (.access h .clrCause)
    | protClrCnt => exact .eff (.access h .clearRegs)
    | backstopCheck => exact .eff (.backstop h)
    | stringSummaryRead => exact .eff (.summaryRead h)
    | orderlyStopEscalate =>
      refine .eff ?_
      split
      · exact .ite (.escalate (.passUntil h)) h
      · exact h
    | stopCurrentZero => exact .eff (.currentZero h)
    | openRequestTimeout => exact .eff (.ite (.escalate (.await h)) h)
    | thermalDemandSend => exact .eff (.demandSend h)
    | containerStatusRx => exact .eff (.ite h (.when (.when (.mark h) .off) .off))
    | containerStatusLoss => exact .eff (.ite h (.setLevel (.on (.on (.await h)))))
    | moduleTempRead => exact .eff (.moduleTemp h)
    | sensorRead => exact .eff (.ite h (.each (.mark (.await h)) .sensorTurn))
    | handover => exact .eff (.access h .handoverAsk)
    | resync => exact .eff (.access h .resyncAsk)
    | xlClrCnt => exact .eff (.access h .xlClear)
    | cycle => exact .eff (.xlRx h .xlCycleRx)
    | cmdx => exact .eff (.xlRx h (fun h => .when h .mk))
    | digest => exact .eff (.xlRx h .digestRx)
    | slotx => exact .eff (.xlRx h .slotxRx)
    | lease => exact .eff (.xlRx h .leaseRx)
    | mirror => exact .eff (.xlRx h .mirrorTake)
    | ack => exact .eff (.xlRx h .ackRx)
    | notice => exact .eff (.xlRx h .noticeRx)
    | snap => exact .eff (.xlRx h .snapIn)
    | store => exact .eff (.xlRx h (fun h => .each h .laneIn))
    | mirrorAckTimeout => exact .eff (.mirrorTimeout h)
    | leaseExpiry => exact .eff (.timeStat (.heldCheck (.lostForm (.off (.await h)))))
    | xlinkDead => exact .eff (.lostForm (.off (.when h .mark)))
    | xlinkDeadTimeout => exact .eff (.ite (.autoReinit (.await h)) h)
    | claimInChange => exact .eff (.claimIn h)
    | claimRelease => exact .eff (.readyForm (.releaseClaim h))
    | claimTake => exact .eff (.claimTake h)
    | claimSettleEnd => exact .eff (.ite (.mk (.passUntil h)) h)
    | claimLapseTrip => exact .eff (.claimLapse h)
    | divergenceCheck => exact .eff (.divergence h)
    | resyncEndCycle => exact .eff (.resyncEnds h)
    | resyncTimeout => exact .eff (.readyForm (.resyncAbort (.when h .await)))
    | resyncRetry => exact .eff (.ite (.resyncStart h) h)
    | xlinkMarkEcho => exact .eff (.markEcho h)
    | tbIncrNsWrite => exact .eff (.access h .incrWrite)
    | tbAdjNsWrite => exact .eff (.access h .adjWrite)
    | tbClrCnt => exact .eff (.access h .tbClear)
    | comparatorFire => exact .eff (.ite (.sampleInstant h) (.comparator h))
    | captureArm => exact .eff (.access h .captureArm)
    | captureEvent => exact .eff (.captureUnit h)
    | captureNsRead | latchingRead => exact .eff (.hostRead h)
    | ppsInEdge => exact .eff (.ppsIn h)
    | ptpSyncRx => exact .eff (.ptpIn h .ptpSync)
    | ptpDelayReqSend => exact .eff (.ite (.mk (.send (.count h))) h)
    | ptpDelayRespRx => exact .eff (.ptpIn h .ptpResp)
    | ptpAnnounceRx => exact .eff (.ptpIn h .ptpAnnounce)
    | ptpTcForward => exact .eff (.ptpIn h (fun h => .ite (.send (.count h)) (.send h)))
    | syncHoldover => exact .eff (.ite (.timeStat (.syncState h)) h)
    | holdoverMaxExpiry =>
      refine .eff ?_
      split
      · exact h
      · exact .timeStat (.passUntil h)
    | dtlsHandshake => exact .eff (.handshake h)
    | sessionClose | closeNotify => exact .eff (.closeSession h)
    | sessionIdleTimeout => exact .eff (.idleClose h)
    | ethSessCloseWrite => exact .eff (.access h .sessCloseWrite)
    | request => exact .eff (.when h .recordRx)
    | keepalive => exact .eff (.when h .keepaliveRx)
    | telegram => exact .eff (.telegramFrom h)
    | eventNotify => exact .eff (.when h .eventNotify)
    | streamRecord => exact .eff (.streamForm h)
    | streamCfgWrite => exact .eff (.access h .streamWrite)
    | arpRequestRx => exact .eff (.when h .arpRx)
    | icmpEchoRx => exact .eff (.when h .icmpRx)
    | linkUp => exact .eff (.ite (.send (.setLink h)) h)
    | linkDown => exact .eff (.when h .setLink)
    | hsrFrameRx => exact .eff (.when h .hsrRx)
    | hsrSupervisionSend => exact .eff (.when h (fun h => .send (.mark (.await h))))
    | babbleWindow => exact .eff (.when h .babbleEnd)
    | sfpPowerFault => exact .eff (.when h (fun h => .setLink (.setCage (.set (.on h)))))
    | sfpModuleChange => exact .eff (.when h .sfpChange)
    | ethClrCnt => exact .eff (.access h .clearRegs)
    | lockRead => exact .eff (.hostRead h)
    | lockRelease => exact .eff (.hostWrite h)
    | go => exact .eff (.access h .mbxCtrlWrite)
    | mailboxTimeout => exact .eff (.mbxTimeout h)
    | mailboxTimeoutLadder => exact .eff (.ite (.autoReinit (.mk h)) h)
    | echo => exact .eff (.ite (.mbxAnswer h) h)
    | sessionInfo => exact .eff (.ite (.sessionInfo h) h)
    | runStart => exact .eff (.ite (.mbxAnswer (.runStart h)) h)
    | settleCountEnd => exact .eff (.settleEnd h)
    | runStop => exact .eff (.ite (.mbxAnswer (.runStop h)) h)
    | stopClear =>
      refine .eff (.ite ?_ h)
      split
      · exact .mbxAnswer (.stopClearMbx h)
      · exact .mbxAnswer h
    | funcReinit => exact .eff (.funcReinit h)
    | reinitDone => exact .eff (.reinitDone h)
    | moduleReset => exact .eff (.moduleResetReq h)
    | powerCycle => exact .eff (.powerCycle h)
    | powerCycleFail => exact .eff (.ite (.mk (.on (.log (.send (.await h))))) h)
    | resetGuard => exact .eff (.resetGuard h)
    | pwrClrCnt => exact .eff (.access h .clearRegs)
    | logMark => exact .eff (.ite (.logMark h) h)
    | start => exact .eff (.access h .opStart)
    | opAbort => exact .eff (.access h .opAbort)
    | opAckWrite => exact .eff (.access h .opAck)
    | operationEnd => exact .eff (.opEnd h)
    | nodeRead => exact .eff (.opWork (.when h .nodeSend) (fun h => .opGive (.modNode h)))
    | nodeWrite => exact .eff (.opWork (.when h .nodeSend) (fun h => .opGive (.nodeTake h)))
    | wireCal => exact .eff (.opWork h .wireCal)
    | logRead => exact .eff (.opWork h .logRead)
    | progStore => exact .eff (.opWork (.when h .storeFails) .progStore)
    | progLoad => exact .eff (.opWork h .progLoad)
    | calRead => exact .eff (.opWork h .calRead)
    | calWrite => exact .eff (.opWork h .calWrite)
    | configSave => exact .eff (.opWork (.when h .mk) .configSave)
    | selftest => exact .eff (.opWork h .selftestOp)
    | updateOpen => exact .eff (.opWork h .updateOpen)
    | updateWrite => exact .eff (.updateWriteOp h)
    | updateVerify => exact .eff (.opWork h .updateVerify)
    | updateActivate => exact .eff (.opWork h .updateActivate)
    | updateConfirm => exact .eff (.opWork h .updateConfirm)
    | updateClose => exact .eff (.opWork h (fun h => .opGive (.updateEnd h)))
    | lifecycleSet => exact .eff (.opWork h .lifeSet)
    | updateLockTimeout => exact .eff (.ite h (.on (.updateEnd (.passUntil h))))
    | confirmWindowExpiry => exact .eff (.confirmExpiry h)
    | logArchive => exact .eff (.logArchive h)
    | safKeyWrite => exact .eff (.access h .keyWrite)
    | keySequenceTimeout =>
      refine .eff ?_
      split
      · exact h
      · exact .keyAbort (.passUntil h)
    | resetArmExpiry =>
      refine .eff ?_
      split
      · exact h
      · exact .disarm (.passUntil h)
    | doorInputChange | estopInputChange => exact .eff (.inputChange h)
    | inputDiscrepancy => exact .eff (.inputDiscrepancy h)
    | crossShort =>
      refine .eff (.safetyCause (.when ?_ (fun h => .mk (.off h))))
      split
      · exact .safFault h
      · exact .safFault h
      · exact h
    | faultLoopOpen => exact .eff (.ite (.loopOpens h) (.safetyCause (.loopOpens h)))
    | hvilOpen => exact .eff (.ite (.hvilOpens h) (.safetyCause (.hvilOpens h)))
    | loopSupplyFault => exact .eff (.safetyCause (.safFault (.loopOpens (.hvilOpens (.off h)))))
    | coilRailFault => exact .eff (.ite (.permits (.safFault (.off h))) h)
    | channelExchange => exact .eff (.endCond (.mk (.on h)))
    | channelLinkLoss => exact .eff (.linkLoss h)
    | channelBBrkTripRelease => exact .eff (.when h (fun h => .releaseTripLs (.passUntil h)))
    | outputTestPulse => exact .eff (.outputTest h)
    | sourceOffPulse => exact .eff (.sourcePulse h)
    | tripRelease => exact .eff (.tripRelease h)
    | telegramCopyRx => exact .eff (.telegramRx h)
    | telegramConfirmWindow => exact .eff (.telWindow h)
    | telegramPathLoss => exact .eff (.pathLoss h)
    | tripConfirmTimeout => exact .eff (.when h (fun h => .tripConfirmed (.await h)))
    | canFrameRx => exact .eff (.canGot h)
    | canFrameTxDone => exact .eff (.canSent h)
    | canClashLoss => exact .eff (.canClash h)
    | canFixedResume => exact .eff (.fixedResume h)
    | canError => exact .eff (.canError h)
    | recover => exact .eff (.access h .canRecover)
    | canRecoveryEnd => exact .eff (.canRecovered h)
    | canBusoffTimeout => exact .eff (.ite (.autoReinit (.passUntil h)) h)
    | canClrCnt => exact .eff (.access h .clearRegs)
    | mbCommit => exact .eff (.canHost h .mbCommit)
    | mbAbort => exact .eff (.canHost h .off)
    | clrFull => exact .eff (.canHost h .canFree)
    | pop => exact .eff (.access h .canPop)
    | carderRead => exact .eff (.carder h)
    | programRepair => exact .eff (.ite (.programRepair h) h)
    | lineRemap => exact .eff (.ite (.lineRemap h) h)
    | memClrCnt => exact .eff (.access h .memClear)
    | memRemapWrite => exact .eff (.access h (fun h => .ite (.refuse h) (.remapWrite h)))
    | tapUpdateIr => exact .eff (.updateIr h)
    | tapLeaveExtest => exact .eff (.extestLeft (.mk h))
    | registerWrite => exact .eff (.hostWrite h)
    | clockGoodAgain => exact .eff (.clockGood h)
    | portRelock => exact .eff (.when h (fun h => .mk (.on h)))
    | hvilClose => exact .eff (.ite h (.endCond (.loopShort (.set (.on h)))))
    | faultLoopClose => exact .eff (.ite h (.endCond (.loopShort (.set (.on (.elementsClosed h))))))
    | loopSupplyRecovery => exact .eff (.endCond (.on h))
    | coilRailRecovery => exact .eff (.permits (.off (.on h)))
    | bankCrcDone => exact .eff (.ite (.off (.wr (.meet h))) h)
    | canBusJoin => exact .eff (.canJoin h)
    | operatingHour => exact .eff (.when h (fun h => .count (.mark (.await h))))
    | powerCyclePulseEnd => exact .eff (.ite (.send (.await h)) h)
    | _ => cases hm

theorem step_keepsStores {s : State} (h : s.mach.Wf) : KeepsStores (step s) := by
  unfold step
  split
  next c rest _ => exact exec_keepsStores (s := { s with pending := rest }) h c
  next =>
    rintro _ ⟨⟩
    exact .idle h

end Sys2Proof.Machine

end

open Sys2Proof.Machine in
/-- Settles O25: each function of the model keeps the canonical form of what it is given, so every command and the tick do. -/
theorem storesInvariant : Obligations.StoresInvariant := by
  intro s t hs ht
  exact (State.inv_iff t).mpr (step_keepsStores ((State.inv_iff s).mp hs) t ht)

/-! # The reset state -/

section

namespace Sys2Proof.Machine

/-- The state after reset stores no register word. -/
theorem Mach.rd_reset (a : Nat) : Mach.reset.rd a = resetWord a := rfl

/-- Outside the layouts of R380 and R415 the reset word is the table's. -/
theorem resetWord_of_regRow {a : Nat} {r : RegRow} (hr : regRow? a = some r) (hc : ¬(0x30200 ≤ a ∧ a < 0x30280))
    (hq : ¬(0x50000 ≤ a ∧ a < 0x50400)) : resetWord a = r.reset := by
  have hrow : ((regRow? a).map (·.reset)).getD 0 = r.reset := by rw [hr]; rfl
  unfold resetWord
  rw [if_neg (by omega), if_neg (by omega), if_neg (by omega), if_neg (by omega), if_neg (by omega), if_neg (by omega), hrow]

/-- No power domain is on in the reset word of PD_STAT. -/
theorem resetWord_pdStat : resetWord Reg.PWR_PD_STAT = 0 := by decide

/-- R37: every domain is off after reset. -/
theorem Mach.domOn_reset (d : Domain) : Mach.reset.domOn d = false := by
  have hg : Mach.reset.get (pdField d) = 0 := by
    unfold Mach.get
    rw [Mach.rd_reset, show (pdField d).addr = Reg.PWR_PD_STAT from rfl, resetWord_pdStat]
    simp [fieldOf]
  unfold Mach.domOn
  rw [hg]
  rfl

end Sys2Proof.Machine

end

open Sys2Proof.Machine in
/-- Settles O26: the reset state stores no word, so each register reads its row's reset word, and the rest is how it is built. -/
theorem invAtReset : Obligations.InvAtReset :=
  ⟨(State.inv_iff _).mpr .reset, rfl, rfl, rfl, rfl, rfl, Mach.domOn_reset, fun a _ hr hc hq =>
    (Mach.rd_reset a).trans (resetWord_of_regRow hr hc hq)⟩

/-! # What the shared operations leave of the power registers

The operations on the string, the pair, the chain and the safety island write registers of their own. What the supervisor shows of
domains and clocks (R20, R37), the recorded reset type (R472) and the clock faults of SAF_FAULT (R347) stay through all of them,
and so do the run state and its cause outside a transition (R463). One lemma for each operation says so; its proof repeats the
operation's own composition. -/

section

namespace Sys2Proof.Machine

-- One theorem at a time: each worker of the checker keeps a stack of its own.
set_option Elab.async false

/-! ## The relation -/

/-- Registers that only the operations of their own rules write. -/
def heldRegs : List Nat :=
  [Reg.PWR_PD_CTRL, Reg.PWR_PD_STAT, Reg.PWR_CI_STAT, Reg.PWR_CI_FAULT, Reg.PWR_RESET_CAUSE, Reg.SAF_FAULT]

/-- A register that any operation may write. -/
def freeReg (a : Nat) : Bool := decide (a ∉ Reg.PWR_RUN_STAT :: heldRegs)

/-- `k` shows the domains, clocks, reset type, clock faults and run state of `m`, and the supervisor holds what it held. -/
structure Mach.Steady (m k : Mach) : Prop where
  rd : ∀ a ∈ heldRegs, k.rd a = m.rd a
  lastCause : k.get F.PWR_RUN_STAT_last_cause = m.get F.PWR_RUN_STAT_last_cause
  runState : k.runState = m.runState
  safeMode : k.power.safeMode = m.power.safeMode
  openReq : k.power.openReq = m.power.openReq
  guard : k.power.guard = m.power.guard
  latched : k.safety.latched = m.safety.latched

/-- The machine in the run state that a transition reaches, with its cause. -/
def Mach.entered (m : Mach) (dst : RunState) (cause : Nat) : Mach :=
  { m.set F.PWR_RUN_STAT_last_cause cause with runState := dst }

/-- The machine with a cause latched where it latches (R327). -/
def Mach.latching (m : Mach) (c : SafetyCause) : Mach :=
  { m with safety := { m.safety with latched := if c.latches then addOnce m.safety.latched c else m.safety.latched } }

/-- The machine with the open request made (R464). -/
def Mach.asking (m : Mach) : Mach := { m with power := { m.power with openReq := true } }

variable {m k l : Mach}

theorem ne_of_freeReg {a b : Nat} (ha : freeReg a = true) (hb : b ∈ heldRegs) : b ≠ a := by
  rintro rfl
  exact of_decide_eq_true ha (List.mem_cons_of_mem _ hb)

theorem runStat_ne_of_freeReg {a : Nat} (ha : freeReg a = true) : Reg.PWR_RUN_STAT ≠ a := by
  rintro rfl
  exact of_decide_eq_true ha List.mem_cons_self

theorem freeReg_of_ne {a : Nat} (ha : 0x30000 ≤ a) (hs : a ≠ Reg.SAF_FAULT) : freeReg a = true := by
  have hr : ∀ b ∈ Reg.PWR_RUN_STAT :: heldRegs, b < 0x30000 ∨ b = Reg.SAF_FAULT := by decide
  refine decide_eq_true fun h => ?_
  rcases hr a h with hlt | heq
  · omega
  · exact hs heq

/-- The cause field holds eight bits. -/
theorem Mach.entered_lastCause (m : Mach) (dst : RunState) (cause : Nat) :
    (m.entered dst cause).get F.PWR_RUN_STAT_last_cause = cause % 256 :=
  Mach.get_set m cause (f := F.PWR_RUN_STAT_last_cause) (by decide)

theorem Mach.entered_rd (m : Mach) (dst : RunState) (cause : Nat) {a : Nat} (ha : a ∈ heldRegs) :
    (m.entered dst cause).rd a = m.rd a := by
  have hs : a ≠ F.PWR_RUN_STAT_last_cause.addr := by
    rintro rfl
    revert ha
    decide
  exact Mach.rd_set_ne m cause hs

theorem mem_addOnce {α : Type} [DecidableEq α] (xs : List α) (a : α) : a ∈ addOnce xs a := by
  unfold addOnce
  split
  · assumption
  · exact List.mem_append_right xs List.mem_cons_self

/-- A cause that latches is latched. -/
theorem Mach.mem_latching (m : Mach) {c : SafetyCause} (hc : c.latches = true) : c ∈ (m.latching c).safety.latched := by
  have hl : (m.latching c).safety.latched = addOnce m.safety.latched c := if_pos hc
  rw [hl]
  exact mem_addOnce _ c

theorem Mach.latching_get (m : Mach) (c : SafetyCause) (f : Field) : (m.latching c).get f = m.get f := rfl

theorem Mach.entered_get (m : Mach) (dst : RunState) (cause : Nat) {f : Field} (hf : f.addr ∈ heldRegs) :
    (m.entered dst cause).get f = m.get f := congrArg (fieldOf · f.lsb f.width) (m.entered_rd dst cause hf)

theorem Mach.entered_latched (m : Mach) (dst : RunState) (cause : Nat) :
    (m.entered dst cause).safety.latched = m.safety.latched := rfl

namespace Mach.Steady

theorem refl (m : Mach) : m.Steady m := ⟨fun _ _ => rfl, rfl, rfl, rfl, rfl, rfl, rfl⟩

theorem trans (h : m.Steady k) (h' : k.Steady l) : m.Steady l where
  rd a ha := (h'.rd a ha).trans (h.rd a ha)
  lastCause := h'.lastCause.trans h.lastCause
  runState := h'.runState.trans h.runState
  safeMode := h'.safeMode.trans h.safeMode
  openReq := h'.openReq.trans h.openReq
  guard := h'.guard.trans h.guard
  latched := h'.latched.trans h.latched

/-- A field of a held register reads as before. -/
theorem get (h : m.Steady k) {f : Field} (hf : f.addr ∈ heldRegs) : k.get f = m.get f := by
  rw [Mach.get, h.rd _ hf, Mach.get]

/-! ## Combinators -/

/-- The fields outside the registers do not matter, but for those that the relation names. -/
theorem fields {lifeCycle role ringBroken supply law refSrc mem power chain fly spin prog sense safety pair time host
    can0 can1 memi mgmt latches out answer freeTick} (h : m.Steady k) (hs : power.safeMode = k.power.safeMode := by rfl)
    (ho : power.openReq = k.power.openReq := by rfl) (hg : power.guard = k.power.guard := by rfl)
    (hl : safety.latched = k.safety.latched := by rfl) :
    m.Steady (Mach.mk lifeCycle k.runState role ringBroken supply law refSrc k.regs mem power chain fly spin prog sense safety
      pair time host can0 can1 memi mgmt latches out answer freeTick) where
  rd := h.rd
  lastCause := h.lastCause
  runState := h.runState
  safeMode := hs.trans h.safeMode
  openReq := ho.trans h.openReq
  guard := hg.trans h.guard
  latched := hl.trans h.latched

theorem ite {c : Prop} {_ : Decidable c} (hk : m.Steady k) (hl : m.Steady l) : m.Steady (if c then k else l) := by
  split
  · exact hk
  · exact hl

theorem when {c : Bool} {f : Mach → Mach} (h : m.Steady k) (hf : ∀ {k}, m.Steady k → m.Steady (f k)) :
    m.Steady (k.when c f) := .ite (hf h) h

theorem each_mem {α : Type} {l : List α} {f : Mach → α → Mach} (h : m.Steady k)
    (hf : ∀ a ∈ l, ∀ {k}, m.Steady k → m.Steady (f k a)) : m.Steady (k.each l f) :=
  List.foldlRecOn l f h fun _ hm a ha => hf a ha hm

theorem each {α : Type} {l : List α} {f : Mach → α → Mach} (h : m.Steady k)
    (hf : ∀ {k a}, m.Steady k → m.Steady (f k a)) : m.Steady (k.each l f) := .each_mem h fun _ _ => hf

/-! ## Writers -/

theorem wr {a : Nat} {w : Word} (h : m.Steady k) (ha : freeReg a = true := by decide) : m.Steady (k.wr a w) where
  rd b hb := (Mach.rd_wr_ne _ _ (ne_of_freeReg ha hb)).trans (h.rd b hb)
  lastCause := (Mach.get_wr_ne _ _ (runStat_ne_of_freeReg ha)).trans h.lastCause
  runState := h.runState
  safeMode := h.safeMode
  openReq := h.openReq
  guard := h.guard
  latched := h.latched

theorem set {f : Field} {v : Nat} (h : m.Steady k) (hf : freeReg f.addr = true := by decide) : m.Steady (k.set f v) := .wr h hf

theorem setB {f : Field} {b : Bool} (h : m.Steady k) (hf : freeReg f.addr = true := by decide) : m.Steady (k.setB f b) := .wr h hf

theorem on {f : Field} (h : m.Steady k) (hf : freeReg f.addr = true := by decide) : m.Steady (k.on f) := .wr h hf

theorem off {f : Field} (h : m.Steady k) (hf : freeReg f.addr = true := by decide) : m.Steady (k.off f) := .wr h hf

theorem setBit {a i : Nat} {b : Bool} (h : m.Steady k) (ha : freeReg a = true := by decide) : m.Steady (k.setBit a i b) := .wr h ha

theorem count {a : Nat} (h : m.Steady k) (ha : freeReg a = true := by decide) : m.Steady (k.count a) := .wr h ha

/-- The fields of PWR_RUN_STAT beside the cause. -/
theorem setRunStat {f : Field} {v : Nat} (h : m.Steady k) (ha : f.addr = Reg.PWR_RUN_STAT := by rfl)
    (hf : f.fits = true := by decide) (hc : f.apart F.PWR_RUN_STAT_last_cause = true := by decide) : m.Steady (k.set f v) where
  rd b hb := (Mach.rd_set_ne _ _ fun e => by rw [e, ha] at hb; revert hb; decide).trans (h.rd b hb)
  lastCause := (Mach.get_set_ne _ _ hf hc).trans h.lastCause
  runState := h.runState
  safeMode := h.safeMode
  openReq := h.openReq
  guard := h.guard
  latched := h.latched

/-- The same write on both sides. -/
theorem congr_set {f : Field} {v : Nat} (h : m.Steady k) (hf : f.addr ≠ Reg.PWR_RUN_STAT := by decide) :
    (m.set f v).Steady (k.set f v) where
  rd b hb := by
    by_cases e : b = f.addr
    · subst e
      simp only [Mach.set, Mach.rd_wr_self, h.rd _ hb]
    · rw [Mach.rd_set_ne _ _ e, Mach.rd_set_ne _ _ e, h.rd _ hb]
  lastCause := by
    rw [Mach.set, Mach.get_wr_ne _ _ (Ne.symm hf), Mach.set, Mach.get_wr_ne _ _ (Ne.symm hf), h.lastCause]
  runState := h.runState
  safeMode := h.safeMode
  openReq := h.openReq
  guard := h.guard
  latched := h.latched

theorem clearRegs {as : List Nat} (h : m.Steady k) (ha : ∀ a ∈ as, freeReg a = true) : m.Steady (k.clearRegs as) :=
  .each_mem h fun a hm _ h => .wr h (ha a hm)

theorem resetRange {lo hi : Nat} (h : m.Steady k) (hl : lo ≤ hi := by decide)
    (hh : ∀ a ∈ Reg.PWR_RUN_STAT :: heldRegs, ¬(lo ≤ a ∧ a < hi) := by decide) : m.Steady (k.resetRange lo hi) where
  rd a ha := by rw [Mach.rd_resetRange _ hl, if_neg (hh a (List.mem_cons_of_mem _ ha)), h.rd a ha]
  lastCause := by
    have hr := (Mach.rd_resetRange k hl Reg.PWR_RUN_STAT).trans (if_neg (hh _ List.mem_cons_self))
    exact (congrArg (fieldOf · 24 8) hr).trans h.lastCause
  runState := h.runState
  safeMode := h.safeMode
  openReq := h.openReq
  guard := h.guard
  latched := h.latched

theorem log {cls : Byte} {ev master : Nat} {d0 d1 : Word} (h : m.Steady k) : m.Steady (k.log cls ev master d0 d1) :=
  .ite (.on (.count (.fields (.wr h)))) (.fields (.wr h))

theorem mark {t : Timer} (h : m.Steady k) : m.Steady (k.mark t) := .fields h

theorem send {o : Out} (h : m.Steady k) : m.Steady (k.send o) := .fields h

theorem freeTicked (h : m.Steady k) : m.Steady k.freeTicked := .fields h

theorem zeroise {lo hi : Nat} (h : m.Steady k) : m.Steady (k.zeroise lo hi) := .fields h

theorem storeFull {a : Nat} {ws : List Word} (h : m.Steady k) : m.Steady (k.storeFull a ws) := .fields h

/-! ## Captures, the cross-link and the claim -/

/-- R380: the registers of the capture units are 16 bytes apart, and SAF_FAULT is none of them. -/
theorem captureUnit {u : Nat} (h : m.Steady k) : m.Steady (k.captureUnit u) := by
  have hc : freeReg (Reg.TB_CAP_CTRL u) = true := freeReg_of_ne (by unfold Reg.TB_CAP_CTRL; omega)
    (by unfold Reg.TB_CAP_CTRL Reg.SAF_FAULT; omega)
  have hs : freeReg (Reg.TB_CAP_SEC u) = true := freeReg_of_ne (by unfold Reg.TB_CAP_SEC; omega)
    (by unfold Reg.TB_CAP_SEC Reg.SAF_FAULT; omega)
  have hn : freeReg (Reg.TB_CAP_NS u) = true := freeReg_of_ne (by unfold Reg.TB_CAP_NS; omega)
    (by unfold Reg.TB_CAP_NS Reg.SAF_FAULT; omega)
  exact .ite h (.ite (.count (.on h hc)) (.on (.on (.setB (.set (.wr h hs) hn) hc) hc)))

theorem captureSource {c : Nat} (h : m.Steady k) : m.Steady (k.captureSource c) := .each h fun h => .when h .captureUnit

theorem startTripRule (h : m.Steady k) : m.Steady k.startTripRule := .ite (.fields h) h

theorem sendXl {f : XlFrame} (h : m.Steady k) : m.Steady (k.sendXl f) := .ite (.fields (.send h)) h

theorem sendMirror {i : MirrorItem} (h : m.Steady k) : m.Steady (k.sendMirror i) := .fields (.sendXl h)

theorem blockTake {n : Nat} {w c : Word} (h : m.Steady k) : m.Steady (k.blockTake n w c) := by
  unfold Mach.blockTake
  split
  next hn =>
    exact .when (.wr h (freeReg_of_ne (by unfold Reg.FLY_BLOCK; omega) (by unfold Reg.FLY_BLOCK Reg.SAF_FAULT; omega))) .fields
  next => exact h

theorem setAllBlock {w : Word} (h : m.Steady k) : m.Steady (k.setAllBlock w) :=
  .each h fun h => .blockTake (.when h .sendMirror)

theorem resyncAbort (h : m.Steady k) : m.Steady k.resyncAbort := .ite (.fields (.when (.off h) .on)) h

theorem sweepEnd (h : m.Steady k) : m.Steady k.sweepEnd := .fields (.on (.set (.set (.off h))))

theorem releaseClaim {c : ClaimCause} (h : m.Steady k) : m.Steady (k.releaseClaim c) :=
  .ite (.when (.captureSource (.when (.fields (.sendXl (.on (.set (.off (.resyncAbort h)))))) .sweepEnd))
    (fun h => .fields (.wr h))) h

theorem setCan {x : Nat} {p : CanPort} (h : m.Steady k) : m.Steady (k.setCan x p) := .ite (.fields h) (.fields h)

/-- R423: the fixed buffers of a port lie in its own block, beside SAF_FAULT. -/
theorem canFixed {x : Nat} (h : m.Steady k) : m.Steady (k.canFixed x) := by
  have hi : ∀ b ≤ 1, freeReg (Reg.CAN_MB_ID x b) = true := fun b hb => freeReg_of_ne (by unfold Reg.CAN_MB_ID; omega)
    (by unfold Reg.CAN_MB_ID Reg.SAF_FAULT; omega)
  have hm : freeReg (Reg.CAN_MB_MASK x 1) = true := freeReg_of_ne (by unfold Reg.CAN_MB_MASK; omega)
    (by unfold Reg.CAN_MB_MASK Reg.SAF_FAULT; omega)
  have hc : ∀ b ≤ 1, freeReg (Reg.CAN_MB_CTRL x b) = true := fun b hb => freeReg_of_ne (by unfold Reg.CAN_MB_CTRL; omega)
    (by unfold Reg.CAN_MB_CTRL Reg.SAF_FAULT; omega)
  exact .on (.off (.wr (.wr (.on (.on (.wr h (hi 0 (by decide))) (hc 0 (by decide))) (hc 0 (by decide))) (hi 1 (by decide))) hm)
    (hc 1 (by decide))) (hc 1 (by decide))

theorem canStart {x : Nat} (h : m.Steady k) : m.Steady (k.canStart x) := .setCan (.canFixed h)

theorem dissolvePair (h : m.Steady k) : m.Steady k.dissolvePair :=
  .when (.fields (.when (.releaseClaim h) fun h => .wr h)) .canFixed

/-! ## Cycles and the stop broadcast -/

theorem arrayUnload (h : m.Steady k) : m.Steady k.arrayUnload :=
  .fields (.set (.when h fun h => .when (.set h) fun h => .set h))

theorem cyclesStart (h : m.Steady k) : m.Steady k.cyclesStart := .on (.wr (.wr (.wr (.wr h))))

theorem cyclesStop (h : m.Steady k) : m.Steady k.cyclesStop :=
  .fields (.when (.arrayUnload (.off (.off (.off (.set (.off (.off (.off (.off h))))))))) .sweepEnd)

theorem cyclesCheck (h : m.Steady k) : m.Steady k.cyclesCheck := .when h .cyclesStop

theorem demandStop {src : StopSrc} (h : m.Steady k) : m.Steady (k.demandStop src) := by
  have hs : freeReg (stopField src).addr = true := by cases src <;> decide
  exact .ite (.ite (.on (.on h hs)) (.when (.captureSource (.fields (.each (.count (.on (.on (.on (.on h hs)))))
    fun h => .fields (.send h)))) .sendXl)) h

theorem loopOpens (h : m.Steady k) : m.Steady k.loopOpens := .when (.fields (.freeTicked (.set (.off h)))) .captureSource

theorem permits (h : m.Steady k) : m.Steady k.permits :=
  .when (.when (.setB (.setB (.setB (.setB (.setB h))))) fun h => .on h) fun h => .startTripRule (.on h)

/-! ## Run states -/

theorem prechargeFailed {code : Nat} (h : m.Steady k) : m.Steady (k.prechargeFailed code) := .ite (.on (.set (.set h))) h

/-- The forced BLOCK of a rest state (R465), which its entry logs. -/
theorem blockForced (h : m.Steady k) :
    m.Steady { (k.setAllBlock 0xFFFFFFFF).log 0x03 1 with power := { k.power with blockHold := true } } :=
  have hk : k.Steady ((k.setAllBlock 0xFFFFFFFF).log 0x03 1) := .log (.setAllBlock (.refl k))
  h.trans (.fields hk hk.safeMode.symm hk.openReq.symm hk.guard.symm)

/-- What follows the record of a transition keeps the run state and its cause. -/
theorem toRun {dst : RunState} {cause : Nat} (h : m.Steady (k.recordRun dst cause)) : m.Steady (k.toRun dst cause) :=
  .when (.when (.when (.when (.when (.when (.when (.when (.when (.when (.when h .prechargeFailed)
    (fun h => .fields (.cyclesStart h))) .fields) fun h => .off h) (fun h => .dissolvePair (.cyclesStop h))) .releaseClaim)
    .fields) .fields) fun h => .setRunStat h) .startTripRule) .blockForced

theorem congr_entered {dst : RunState} {cause : Nat} (h : m.Steady k) : (m.entered dst cause).Steady (k.entered dst cause) where
  rd a ha := by rw [Mach.entered_rd _ _ _ ha, Mach.entered_rd _ _ _ ha, h.rd a ha]
  lastCause := by rw [Mach.entered_lastCause, Mach.entered_lastCause]
  runState := rfl
  safeMode := h.safeMode
  openReq := h.openReq
  guard := h.guard
  latched := h.latched

/-- The run state follows its recorded cause. -/
theorem entering {dst : RunState} {cause : Nat} (h : (m.set F.PWR_RUN_STAT_last_cause cause).Steady k) :
    (m.entered dst cause).Steady { k with runState := dst } where
  rd := h.rd
  lastCause := h.lastCause
  runState := rfl
  safeMode := h.safeMode
  openReq := h.openReq
  guard := h.guard
  latched := h.latched

theorem recordRun {dst : RunState} {cause : Nat} : (k.entered dst cause).Steady (k.recordRun dst cause) :=
  .entering (.when (.on (.wr (.refl _))) .sendMirror)

/-- A transition ends in the state and with the cause that it names (R463). -/
theorem enters {dst : RunState} {cause : Nat} (h : m.Steady k) : (m.entered dst cause).Steady (k.toRun dst cause) :=
  (congr_entered h).trans (.toRun .recordRun)

/-! ## Safety causes -/

/-- A record of a cause latches it and touches nothing else that is held (R327). -/
theorem recordCause {c : SafetyCause} {opens : Bool} : (m.latching c).Steady (m.recordCause c opens) := by
  unfold Mach.recordCause
  extract_lets n k1 k2 k3 sf actsA actsB k4
  have h3 : m.Steady k3 := .when (.on (.when (.set (.set (.refl m))) fun h => .set h)) .captureSource
  have h4 : (m.latching c).Steady k4 := {
    rd := h3.rd
    lastCause := h3.lastCause
    runState := h3.runState
    safeMode := h3.safeMode
    openReq := h3.openReq
    guard := h3.guard
    latched := congrArg (fun l => if c.latches then addOnce l c else l) h3.latched }
  exact .log (.permits (.when (.startTripRule (.when h4 .loopOpens)) fun h => .when (.demandStop h) fun h => .off h))

end Mach.Steady

/-- Held registers keep their words in a transition. -/
theorem Mach.rd_toRun {dst : RunState} {cause a : Nat} (ha : a ∈ heldRegs) : (m.toRun dst cause).rd a = m.rd a :=
  ((Mach.Steady.enters (.refl m)).rd a ha).trans (m.entered_rd _ _ ha)

/-- Held registers keep their words while a cause is taken. -/
theorem Mach.rd_safetyCause {c : SafetyCause} {n a : Nat} (ha : a ∈ heldRegs) : (m.safetyCause c n).rd a = m.rd a := by
  have h : (m.latching c).Steady (m.recordCause c) := .recordCause
  refine Eq.trans ?_ (h.rd a ha)
  unfold Mach.safetyCause Mach.causeRun Mach.when
  split <;> split
  · exact Mach.rd_toRun ha
  · rfl
  · exact Mach.rd_toRun ha
  · rfl

/-- Held registers keep their words when a start fails. -/
theorem Mach.rd_startFail {err : BitVec 16} {a : Nat} (ha : a ∈ heldRegs) : (m.startFail err).rd a = m.rd a := by
  have h : m.Steady (((m.set F.PWR_RUN_STAT_fail err.toNat).on F.PWR_IRQ_STAT_start_fail).when
      (m.pair.formed && m.role != .active) (·.sendMirror (.runState 0 (BitVec.ofNat 8 Cause.startFail)))) :=
    .when (.on (.setRunStat (.refl m))) .sendMirror
  exact (Mach.rd_toRun ha).trans (h.rd a ha)

/-- A cause that latches, taken outside FAULT_LATCHED, leads there (R327, R463). -/
theorem Mach.Steady.latchingCause {c : SafetyCause} {n : Nat} (hc : c.latches = true) (hr : m.runState ≠ .faultLatched) :
    ((m.latching c).entered .faultLatched n).Steady (m.safetyCause c n) := by
  have h : (m.latching c).Steady (m.recordCause c) := .recordCause
  have hb : ((m.recordCause c).runState != .faultLatched) = true := by rw [h.runState]; exact bne_iff_ne.mpr hr
  unfold Mach.safetyCause Mach.causeRun
  rw [if_pos hc, hb]
  exact .enters h

/-! ## The open request and the reset guard -/

namespace Mach.Steady

theorem openRequest (h : m.Steady k) : m.asking.Steady k.openRequest := by
  have ht : m.Steady k.startTripRule := .startTripRule h
  have ha : m.asking.Steady { k.startTripRule with power := { k.power with openReq := true } } :=
    ⟨ht.rd, ht.lastCause, ht.runState, h.safeMode, rfl, h.guard, ht.latched⟩
  exact .mark ha

end Mach.Steady

/-- Held registers keep their words through the first steps of the guard. -/
theorem Mach.rd_guardSteps {c a : Nat} (ha : a ∈ heldRegs) : (m.guardSteps c).rd a = m.rd a := by
  refine Eq.trans ?_ ((Mach.Steady.openRequest (.demandStop (src := .sw) (.refl m))).rd a ha)
  unfold Mach.guardSteps
  extract_lets k
  split
  · rfl
  · exact Mach.rd_toRun ha

/-- The guard makes the open request (R475). -/
theorem Mach.guardSteps_openReq {c : Nat} : (m.guardSteps c).power.openReq = true := by
  have h : m.asking.Steady ((m.demandStop .sw).openRequest) := .openRequest (.demandStop (.refl m))
  unfold Mach.guardSteps
  extract_lets k
  split
  · exact h.openReq
  · exact (Mach.Steady.enters h).openReq

/-! ## What ends with a session -/

namespace Mach.Steady

theorem opSchedule (h : m.Steady k) : m.Steady k.opSchedule :=
  .each h fun {_ n} h => .when h fun h => .set h (freeReg_of_ne (Nat.le_add_right_of_le (by decide))
    (show 0x60004 + 128 * n ≠ 0xF000C by omega))

/-- R421: the status words of a slot lie 128 bytes apart, and SAF_FAULT is none of them. -/
theorem opFinal {n st : Nat} {err : BitVec 16} {aux : Nat} (h : m.Steady k) : m.Steady (k.opFinal n st err aux) := by
  have h0 : freeReg (Reg.OP_STATUS0 n) = true := freeReg_of_ne (by unfold Reg.OP_STATUS0; omega)
    (by unfold Reg.OP_STATUS0 Reg.SAF_FAULT; omega)
  have h1 : freeReg (Reg.OP_STATUS1 n) = true := freeReg_of_ne (by unfold Reg.OP_STATUS1; omega)
    (by unfold Reg.OP_STATUS1 Reg.SAF_FAULT; omega)
  exact .opSchedule (.fields (.setBit (.set (.set (.off (.when (.set (.when h .fields) h1) fun h => .set h h0) h0) h0) h0)))

theorem opRelease {n : Nat} (hn : n < 16) (h : m.Steady k) : m.Steady (k.opRelease n) := by
  have free : ∀ a, 0x60000 ≤ a → a < 0x70000 → freeReg a = true := fun a hl hh =>
    freeReg_of_ne (by omega) (by unfold Reg.SAF_FAULT; omega)
  have h0 : freeReg (Reg.OP_STATUS0 n) = true := free _ (by unfold Reg.OP_STATUS0; omega) (by unfold Reg.OP_STATUS0; omega)
  have h1 : freeReg (Reg.OP_STATUS1 n) = true := free _ (by unfold Reg.OP_STATUS1; omega) (by unfold Reg.OP_STATUS1; omega)
  have hk : freeReg (Reg.OP_ACK n) = true := free _ (by unfold Reg.OP_ACK; omega) (by unfold Reg.OP_ACK; omega)
  have ho : freeReg (Reg.OP_OWNER n) = true := free _ (by unfold Reg.OP_OWNER; omega) (by unfold Reg.OP_OWNER; omega)
  have hg : ∀ a ∈ (List.range 16).map (Reg.OP_ARG n), freeReg a = true := by
    intro a ha
    obtain ⟨i, hi, rfl⟩ := List.mem_map.mp ha
    have := List.mem_range.mp hi
    exact free _ (by unfold Reg.OP_ARG; omega) (by unfold Reg.OP_ARG; omega)
  have hw : ∀ a ∈ Reg.PWR_RUN_STAT :: heldRegs, ¬(opWindow n ≤ a ∧ a < opWindow n + 0x800) := by
    have hr : ∀ a ∈ Reg.PWR_RUN_STAT :: heldRegs, a < 0x60000 ∨ 0x70000 < a := by decide
    intro a ha
    have := hr a ha
    unfold opWindow
    omega
  exact .wr (.when h fun h => .wr (.resetRange (.clearRegs (.wr (.wr h h0) h1) hg) (Nat.le_add_right _ _) hw) hk) ho

theorem releaseLocks {master : Nat} (h : m.Steady k) : m.Steady (k.releaseLocks master) := by
  have free : ∀ a, 0x40000 ≤ a → a < 0x70000 → freeReg a = true := fun a hl hh =>
    freeReg_of_ne (by omega) (by unfold Reg.SAF_FAULT; omega)
  unfold Mach.releaseLocks
  refine .when (.each_mem (.each_mem (.each_mem h fun b hb _ h => ?_) fun b hb _ h => ?_) fun b hb _ h => ?_) fun h => .wr h
  all_goals have hb := List.mem_range.mp hb
  · exact .when h fun h => .ite (.fields h) (.wr h (free _ (by unfold Reg.MBX_LOCK; omega) (by unfold Reg.MBX_LOCK; omega)))
  · exact .when h fun h => .wr h (free _ (by unfold Reg.MBX_GLOCK; omega) (by unfold Reg.MBX_GLOCK; omega))
  · exact .when h fun h => .when (.opRelease hb h) .opFinal

theorem streamClear {s : Nat} (hs : s < 16) (h : m.Steady k) : m.Steady (k.streamClear s) := by
  have hr : ∀ a ∈ Reg.PWR_RUN_STAT :: heldRegs, a < 0x50000 ∨ 0x52000 < a := by decide
  refine .fields (.resetRange h (Nat.le_add_right _ _) fun a ha => ?_)
  have := hr a ha
  unfold Reg.Q_STR_CFG
  omega

theorem keyAbort {master : Nat} (h : m.Steady k) : m.Steady (k.keyAbort master) := .fields (.on (.set (.set h)))

theorem setStage {st : Nat} (h : m.Steady k) : m.Steady (k.setStage st) := .ite h (.on (.set h))

theorem irqEnCleared {s : Nat} (h : m.Steady k) :
    m.Steady (k.when (decide (1 ≤ s ∧ s ≤ 8)) (·.wr (Reg.GLB_IRQ_EN s) 0)) := by
  unfold Mach.when
  split
  next hs =>
    have hs := of_decide_eq_true hs
    have hr : ∀ a ∈ Reg.PWR_RUN_STAT :: heldRegs, 0x20000 ≤ a := by decide
    refine .wr h (decide_eq_true fun hm => ?_)
    have := hr _ hm
    unfold Reg.GLB_IRQ_EN at this
    omega
  next => exact h

theorem closeSession {s : Nat} (h : m.Steady k) : m.Steady (k.closeSession s) := by
  refine .ite ?_ h
  extract_lets n1 n2 n3 _ k l
  have h3 : m.Steady n3 := .each_mem (.irqEnCleared (.releaseLocks h)) fun b hb _ h =>
    .when h (.streamClear (List.mem_range.mp hb))
  have hk : m.Steady k := .fields h3
  have hl : m.Steady l := by
    simp only [l]
    split
    · exact .ite (.keyAbort hk) hk
    · exact hk
  exact .on (.setBit (.when hl .setStage))

theorem closeSessions (h : m.Steady k) : m.Steady k.closeSessions := .each h .closeSession

/-! ## Domains -/

theorem setAbsent {b : Bool} (h : m.Steady k) : m.Steady (k.setAbsent b) := .fields h

theorem domainClear {d : Domain} (h : m.Steady k) : m.Steady (k.domainClear d) := by
  unfold Mach.domainClear
  split
  · have hp : ∀ x ∈ [Reg.MGT_PCNT_BOOT, Reg.MGT_PCNT_HOURS, Reg.MGT_PCNT_CLOSE, Reg.MGT_PCNT_UPDATE].map fun a => (a, k.rd a),
        freeReg x.1 = true := by
      intro x hx
      obtain ⟨a, ha, rfl⟩ := List.mem_map.mp hx
      have hf : ∀ a ∈ [Reg.MGT_PCNT_BOOT, Reg.MGT_PCNT_HOURS, Reg.MGT_PCNT_CLOSE, Reg.MGT_PCNT_UPDATE], freeReg a = true := by
        decide
      exact hf a ha
    exact .fields (.each_mem (.wr (.resetRange (.resetRange (.resetRange h)))) fun x hx _ h => .wr h (hp x hx))
  · exact .fields (.zeroise (.zeroise (.wr (.zeroise (.resetRange h)))))
  · exact .zeroise h
  · exact .zeroise h
  · exact .fields (.resetRange h)
  · exact .fields (.setBit (.resetRange h))
  · exact .fields (.setB (.resetRange h))
  · exact .fields (.resetRange h)
  · exact .fields (.resetRange h)
  · exact h

theorem irqSettle (h : m.Steady k) : m.Steady k.irqSettle := .ite h (.fields h)

theorem domainReset {d : Domain} (h : m.Steady k) : m.Steady (k.domainReset d) := .irqSettle (.fields (.domainClear h))

/-- A domain that goes off changes its own state and no other held register. -/
theorem domainDrop {d : Domain} {st : Nat} : (m.set (pdField d) st).Steady (m.domainDrop d st) := by
  refine .cyclesCheck (.congr_set (.domainReset ?_) (show Reg.PWR_PD_STAT ≠ Reg.PWR_RUN_STAT by decide))
  have h : m.Steady m := .refl m
  split
  · exact .closeSessions h
  · exact .closeSession h
  · exact .dissolvePair (.releaseClaim h)
  · exact .when (.releaseClaim h) .cyclesStop
  · exact .releaseClaim h
  · exact .setAbsent (.when h .mark)
  · exact h

/-- The supervisor records the reset type (R472); beside it Distaff's restart leaves what is held. -/
theorem distaffDown {ty : Nat} : (m.set F.PWR_RESET_CAUSE_type ty).Steady (m.distaffDown ty) :=
  .setAbsent (.when (.log (.refl _)) .mark)

theorem chargerSet (h : m.Steady k) : m.Steady k.chargerSet := by
  unfold Mach.chargerSet
  extract_lets want draws k1 start k2
  exact .when (.setB (.when h .freeTicked)) fun h => .fields h

theorem storeSettle (h : m.Steady k) : m.Steady k.storeSettle :=
  .chargerSet (.when h fun h => .set (.freeTicked h))

theorem loadProgram {p : ProgImage} (h : m.Steady k) : m.Steady (k.loadProgram p) := by
  unfold Mach.loadProgram
  extract_lets k1 k2 k3 k4 k5
  have h3 : m.Steady k3 := .set (.set (.set (.storeFull (.zeroise h))))
  have h4 : m.Steady k4 := by
    simp only [k4]
    split
    · exact h3
    · exact .off (.storeFull (.zeroise h3))
  exact .fields (.set (.wr h4))

theorem loadBootSlot (h : m.Steady k) : m.Steady k.loadBootSlot := by
  unfold Mach.loadBootSlot
  split
  · exact .fields (.loadProgram h)
  · exact .ite (.wr h) h

end Mach.Steady

end Sys2Proof.Machine

end

/-! # Domains and clocks

What each command of R20 to R24 and R37 leaves, from what the operations it is made of keep. -/

section

namespace Sys2Proof.Machine

-- One theorem at a time: each worker of the checker keeps a stack of its own.
set_option Elab.async false

variable {m k : Mach}

/-! ## The fields of PWR_PD_STAT -/

theorem domainIx_lt (d : Domain) : domainIx d < 10 := by cases d <;> decide

theorem allDomains_getElem (d : Domain) : allDomains[domainIx d]? = some d := by cases d <;> rfl

theorem mem_allDomains (d : Domain) : d ∈ allDomains := List.mem_of_getElem? (allDomains_getElem d)

theorem domainIx_injective : Function.Injective domainIx := fun d e h =>
  Option.some.inj ((allDomains_getElem d).symm.trans (h ▸ allDomains_getElem e))

theorem pdField_fits (d : Domain) : (pdField d).fits = true := by
  have := domainIx_lt d
  exact decide_eq_true (show 2 * domainIx d + 2 ≤ 32 by omega)

theorem pdField_apart {d e : Domain} (h : e ≠ d) : (pdField d).apart (pdField e) = true := by
  have hne := domainIx_injective.ne h
  have hb : 2 * domainIx d + 2 ≤ 2 * domainIx e ∨ 2 * domainIx e + 2 ≤ 2 * domainIx d := by omega
  unfold Field.apart
  rw [Bool.or_assoc, Bool.or_eq_true, Bool.or_eq_true]
  exact .inr (hb.imp decide_eq_true decide_eq_true)

theorem pdField_held (d : Domain) : (pdField d).addr ∈ heldRegs := show Reg.PWR_PD_STAT ∈ heldRegs by decide

/-- The states of the domains after one is set. -/
theorem Mach.get_set_pdField (m : Mach) (d e : Domain) (v : Nat) :
    (m.set (pdField d) v).get (pdField e) = if e = d then v % 4 else m.get (pdField e) := by
  split
  next h =>
    subst h
    exact m.get_set v (pdField_fits e)
  next h => exact m.get_set_ne v (pdField_fits d) (pdField_apart h)

/-! ## Domains switched -/

/-- The state of a domain after it is requested off: a rail fault stays (R37). -/
def offState (n : Nat) : Nat := if n = 3 then 3 else 0

/-- The state of a domain after it is requested on: what is not on zeroises (R24). -/
def onState (n : Nat) : Nat := if n = 2 then 2 else 1

theorem offState_offState (n : Nat) : offState (offState n) = offState n := by unfold offState; split <;> rfl

theorem onState_onState (n : Nat) : onState (onState n) = onState n := by unfold onState; split <;> rfl

/-- The domains of a list have changed their states by `g`; the other domains, what is requested on and safe mode are as before. -/
structure Mach.Switched (g : Nat → Nat) (ds : List Domain) (m k : Mach) : Prop where
  state : ∀ d, k.get (pdField d) = if d ∈ ds then g (m.get (pdField d)) else m.get (pdField d)
  requested : k.get F.PWR_PD_CTRL_pd_on = m.get F.PWR_PD_CTRL_pd_on
  safeMode : k.power.safeMode = m.power.safeMode

/-- A domain whose state is set, with what is held as it was. -/
theorem Mach.Switched.of_steady {g : Nat → Nat} {d : Domain} {v : Nat} (h : (m.set (pdField d) v).Steady k)
    (hv : v % 4 = g (m.get (pdField d))) : Mach.Switched g [d] m k where
  state e := by
    rw [h.get (pdField_held e), Mach.get_set_pdField]
    by_cases he : e = d
    · simp [he, hv]
    · simp [he]
  requested := (h.get (by decide)).trans (Mach.get_wr_ne _ _ (show Reg.PWR_PD_CTRL ≠ Reg.PWR_PD_STAT by decide))
  safeMode := h.safeMode

/-- A domain whose state does not change. -/
theorem Mach.Switched.of_fixed {g : Nat → Nat} {d : Domain} (h : g (m.get (pdField d)) = m.get (pdField d)) :
    Mach.Switched g [d] m m where
  state e := by
    by_cases he : e = d
    · simp [he, h]
    · simp [he]
  requested := rfl
  safeMode := rfl

/-- Domains switched one after another, where switching a domain twice is switching it once. -/
theorem Mach.Switched.each {g : Nat → Nat} {f : Mach → Domain → Mach} (hg : ∀ n, g (g n) = g n)
    (hf : ∀ {m : Mach} {d : Domain}, m.power.safeMode = false → Mach.Switched g [d] m (f m d)) (ds : List Domain)
    (hs : m.power.safeMode = false) : Mach.Switched g ds m (m.each ds f) := by
  induction ds generalizing m with
  | nil => exact ⟨fun d => by simp [Mach.each], rfl, rfl⟩
  | cons x ds ih =>
    have hx : Mach.Switched g [x] m (f m x) := hf hs
    have ht : Mach.Switched g ds (f m x) (m.each (x :: ds) f) := ih (hx.safeMode.trans hs)
    refine ⟨fun d => ?_, ht.requested.trans hx.requested, ht.safeMode.trans hx.safeMode⟩
    rw [ht.state, hx.state]
    by_cases hd : d = x <;> by_cases hm : d ∈ ds <;> simp [hd, hm, hg]

theorem Mach.domainRequestOff_switched {d : Domain} : Mach.Switched offState [d] m (m.domainRequestOff d) := by
  unfold Mach.domainRequestOff
  split
  next h =>
    have h3 : m.get (pdField d) = 3 := eq_of_beq h
    exact .of_fixed (by rw [h3]; rfl)
  next h =>
    have h3 : m.get (pdField d) ≠ 3 := fun e => h (beq_iff_eq.mpr e)
    exact .of_steady .domainDrop (by simp [offState, h3])

theorem Mach.domainStart_switched {d : Domain} (hs : m.power.safeMode = false) :
    Mach.Switched onState [d] m (m.domainStart d) := by
  have hh : m.domHeldOff d = false := by rw [Mach.domHeldOff, hs, Bool.false_and]
  unfold Mach.domainStart
  split
  next h =>
    refine .of_fixed ?_
    rcases h with h | h | h
    · rw [h]; rfl
    · rw [h]; rfl
    · rw [hh] at h; cases h
  next h =>
    have h2 : m.get (pdField d) ≠ 2 := fun e => h (.inl e)
    exact .of_steady (.congr_set (.domainReset (.refl m)) (show Reg.PWR_PD_STAT ≠ Reg.PWR_RUN_STAT by decide))
      (by simp [onState, h2])

theorem Mach.mem_dropped {on : BitVec 10} {d : Domain} :
    d ∈ m.dropped on ↔ on.getLsbD (domainIx d) = false ∧ m.bit Reg.PWR_PD_CTRL (domainIx d) = true := by
  simp [Mach.dropped, mem_allDomains]

/-- A write of PWR_PD_CTRL that may drop what it drops (R22): the register takes it, and each domain follows its bit. -/
theorem Mach.pdWrite_states {n : Nat} {on : BitVec 10} (hd : (m.dropped on).all (m.mayDrop n) = true)
    (hs : m.power.safeMode = false) :
    (m.pdWrite n on).get F.PWR_PD_CTRL_pd_on = on.toNat ∧
      ∀ d, (m.pdWrite n on).get (pdField d) =
        if on.getLsbD (domainIx d) then onState (m.get (pdField d))
        else if d ∈ m.dropped on then offState (m.get (pdField d)) else m.get (pdField d) := by
  unfold Mach.pdWrite
  rw [if_pos hd]
  extract_lets k1
  have h1 : Mach.Switched offState (m.dropped on) (m.set F.PWR_PD_CTRL_pd_on on.toNat) k1 :=
    .each offState_offState (fun _ => Mach.domainRequestOff_switched) _ hs
  have h2 : Mach.Switched onState _ k1 _ := .each onState_onState Mach.domainStart_switched
    (allDomains.filter fun d => on.getLsbD (domainIx d)) (h1.safeMode.trans hs)
  have h3 := Mach.Steady.storeSettle (.refl (k1.each (allDomains.filter fun d => on.getLsbD (domainIx d)) Mach.domainStart))
  constructor
  · rw [h3.get (by decide), h2.requested, h1.requested, Mach.get_set _ _ (by decide)]
    exact Nat.mod_eq_of_lt on.isLt
  · intro d
    have hset : (m.set F.PWR_PD_CTRL_pd_on on.toNat).get (pdField d) = m.get (pdField d) :=
      Mach.get_wr_ne _ _ (show Reg.PWR_PD_STAT ≠ Reg.PWR_PD_CTRL by decide)
    rw [h3.get (pdField_held d), h2.state, h1.state, hset]
    by_cases hon : on.getLsbD (domainIx d) = true
    · simp [mem_allDomains, Mach.mem_dropped, hon]
    · simp [hon]

/-- A domain that has zeroised comes on, and no other changes (R24). -/
theorem Mach.zeroiseDone_steady {d : Domain} (h : m.get (pdField d) = 1) : (m.set (pdField d) 2).Steady (m.zeroiseDone d) := by
  have hr : (m.set (pdField d) 2).Steady (m.set (pdField d) 2) := .refl _
  unfold Mach.zeroiseDone
  rw [if_pos h]
  dsimp only
  split
  · exact .loadBootSlot hr
  · exact .wr hr
  · exact .canStart (.canStart hr)
  · exact .when hr .demandStop
  · exact hr

/-- A rail fault holds its domain off and records its reset type, and the guard's first steps leave both; an energised string is
held by the guard (R472, R475). -/
theorem Mach.railFault_steady (m : Mach) (d : Domain) :
    (∀ a ∈ heldRegs, (m.railFault d).rd a = ((m.set (pdField d) 3).set F.PWR_RESET_CAUSE_type ResetType.domain).rd a) ∧
      (m.energised = true → d ∈ [Domain.spin0, .spin1, .frame, .chain, .sense] →
        (m.railFault d).power.openReq = true ∧ (m.railFault d).power.guard = some .hold) := by
  unfold Mach.railFault
  extract_lets energised k1 k2 guarded
  have h2 : ((m.set (pdField d) 3).set F.PWR_RESET_CAUSE_type ResetType.domain).Steady k2 := .log (.congr_set .domainDrop)
  have hc (k : Mach) : k.Steady k.cyclesCheck := .cyclesCheck (.refl k)
  constructor
  · intro a ha
    refine ((hc _).rd a ha).trans (Eq.trans ?_ (h2.rd a ha))
    unfold Mach.when
    split
    · exact Mach.rd_guardSteps ha
    · rfl
  · intro he hd
    have hg : (energised && guarded) = true := by
      have hall : ∀ e ∈ [Domain.spin0, .spin1, .frame, .chain, .sense],
          (e == .spin0 || e == .spin1 || e == .frame || e == .chain || e == .sense) = true := by decide
      simp only [energised, guarded, he, hall d hd, Bool.true_and]
    rw [hg, Mach.when_true]
    exact ⟨(hc _).openReq.trans Mach.guardSteps_openReq, (hc _).guard⟩

/-! ## Clocks -/

theorem islandIx_lt (i : Island) : islandIx i < 12 := by cases i <;> decide

/-- All islands in bit order (R15). -/
def allIslands : List Island := [.mgmt, .spin, .frame, .cha, .chb, .xlink, .eth0, .eth1, .time, .can, .safe, .sense]

theorem allIslands_getElem (i : Island) : allIslands[islandIx i]? = some i := by cases i <;> rfl

theorem islandIx_injective : Function.Injective islandIx := fun i j h =>
  Option.some.inj ((allIslands_getElem i).symm.trans (h ▸ allIslands_getElem j))

/-- A bit of a register after one is written. -/
theorem Mach.bit_setBit (m : Mach) (a : Nat) {i : Nat} (j : Nat) (b : Bool) (hi : i < 32) :
    (m.setBit a i b).bit a j = if j = i then b else m.bit a j := by
  unfold Mach.bit Mach.setBit
  rw [Mach.rd_wr_self, splice_getLsbD _ _ (by omega)]
  by_cases h : j = i
  · subst h
    cases b <;> simp
  · rw [if_neg (by omega), if_neg h]

/-- A clock fault as PWR_CI_STAT and PWR_CI_FAULT show it (R20). -/
def Mach.clockLost (m : Mach) (i : Island) : Mach :=
  (m.setBit Reg.PWR_CI_STAT (islandIx i) false).setBit Reg.PWR_CI_FAULT (islandIx i) true

theorem Mach.clockLost_clkOk (m : Mach) (i : Island) : (m.clockLost i).bit Reg.PWR_CI_STAT (islandIx i) = false := by
  have hi := islandIx_lt i
  have hb := m.bit_setBit Reg.PWR_CI_STAT (islandIx i) false (show islandIx i < 32 by omega)
  rw [if_pos rfl] at hb
  have hne : (m.clockLost i).rd Reg.PWR_CI_STAT = (m.setBit Reg.PWR_CI_STAT (islandIx i) false).rd Reg.PWR_CI_STAT :=
    Mach.rd_wr_ne _ _ (by decide)
  rw [Mach.bit, hne]
  exact hb

theorem Mach.clockLost_fault (m : Mach) (i : Island) : (m.clockLost i).bit Reg.PWR_CI_FAULT (islandIx i) = true := by
  have hi := islandIx_lt i
  rw [Mach.clockLost, Mach.bit_setBit _ _ _ _ (by omega), if_pos rfl]

/-- What follows a fault on a cycle island leaves the held registers beside SAF_FAULT. -/
theorem Mach.rd_cycleClockFault {i : Island} {a : Nat} (ha : a ∈ heldRegs) (hs : a ≠ Reg.SAF_FAULT) :
    (m.cycleClockFault i).rd a = m.rd a := by
  have latch : ((m.safFault F.SAF_FAULT_clock).safetyCause .clock).rd a = m.rd a := by
    rw [Mach.rd_safetyCause ha, Mach.safFault]
    exact (Mach.rd_set_ne _ _ (ne_of_freeReg (by decide) ha)).trans (Mach.rd_set_ne _ _ hs)
  have rest : (m.when m.cyclesOn fun m => ((m.demandStop .clock).cyclesStop).log 0x03 (16 + islandIx i)).rd a = m.rd a :=
    (Mach.Steady.when (.refl m) fun h => .log (.cyclesStop (.demandStop h))).rd a ha
  unfold Mach.cycleClockFault
  split
  · exact latch
  · exact latch
  · exact latch
  · exact (Mach.rd_startFail ha).trans ((Mach.Steady.demandStop (.refl m)).rd a ha)
  · exact rest
  · exact rest
  · rfl

/-- Outside CI_MGMT and CI_SAFE only the fault of a cycle island leads to more than its report. -/
theorem Mach.clockFault_eq {i : Island} (hm : i ≠ .mgmt) (hs : i ≠ .safe) :
    m.clockFault i = if cycleIsland i then (m.clockLost i).cycleClockFault i else m.clockLost i := by
  cases i with
  | mgmt => exact absurd rfl hm
  | safe => exact absurd rfl hs
  | _ => rfl

theorem Mach.clockFault_safe : m.clockFault .safe = (m.clockLost .safe).linkLoss .b := rfl

/-- The loss of the channel link leaves the held registers beside SAF_FAULT. -/
theorem Mach.rd_linkLoss {c : Channel} {a : Nat} (ha : a ∈ heldRegs) (hs : a ≠ Reg.SAF_FAULT) :
    (m.linkLoss c).rd a = m.rd a := by
  have hl : a ≠ F.SAF_STAT_link_ok.addr := ne_of_freeReg (by decide) ha
  have hi : a ≠ F.SAF_IRQ_STAT_fault.addr := ne_of_freeReg (by decide) ha
  unfold Mach.linkLoss
  extract_lets k0 _ k1
  have h0 : k0.rd a = m.rd a := (Mach.rd_set_ne _ 1 hi).trans ((Mach.rd_set_ne _ 1 hs).trans (Mach.rd_set_ne _ 0 hl))
  have h1 : k0.Steady k1 := .fields (.refl k0)
  exact (Mach.rd_safetyCause ha).trans ((h1.rd a ha).trans h0)

/-- What follows a clock fault leaves what shows it. -/
theorem Mach.rd_clockFault {i : Island} {a : Nat} (ha : a ∈ [Reg.PWR_CI_STAT, Reg.PWR_CI_FAULT]) :
    (m.clockFault i).rd a = (m.clockLost i).rd a := by
  have side : ∀ a ∈ [Reg.PWR_CI_STAT, Reg.PWR_CI_FAULT], a ∈ heldRegs ∧ a ≠ Reg.SAF_FAULT ∧ a ≠ Reg.PWR_RESET_CAUSE := by
    decide
  obtain ⟨hh, hs, hc⟩ := side a ha
  by_cases hmgmt : i = .mgmt
  · have hd : ((m.clockLost .mgmt).set F.PWR_RESET_CAUSE_type ResetType.watchdog).Steady (m.clockFault .mgmt) :=
      .fields .distaffDown
    rw [hmgmt]
    exact (hd.rd a hh).trans (Mach.rd_set_ne _ _ hc)
  by_cases hsafe : i = .safe
  · rw [hsafe, Mach.clockFault_safe]
    exact Mach.rd_linkLoss hh hs
  rw [Mach.clockFault_eq hmgmt hsafe]
  split
  · exact Mach.rd_cycleClockFault hh hs
  · rfl

/-- R20, R463: in a run state that may energise the string a fault on a cycle island latches CLOCK. -/
theorem Mach.cycleClockFault_latches {i : Island} (hr : m.runState = .precharge ∨ m.runState = .run ∨ m.runState = .stopping) :
    (((m.safFault F.SAF_FAULT_clock).latching .clock).entered .faultLatched Cause.safetyLatched).Steady (m.cycleClockFault i) := by
  have hk : m.cycleClockFault i = (m.safFault F.SAF_FAULT_clock).safetyCause .clock := by
    unfold Mach.cycleClockFault
    rcases hr with hr | hr | hr <;> rw [hr]
  have hn : (m.safFault F.SAF_FAULT_clock).runState ≠ .faultLatched := by
    rw [Mach.safFault, Mach.on_eq, Mach.set_runState, Mach.on_eq, Mach.set_runState]
    rcases hr with hr | hr | hr <;> rw [hr] <;> decide
  rw [hk]
  exact .latchingCause rfl hn

theorem Mach.clockFault_latches {i : Island} (hi : cycleIsland i = true)
    (hr : m.runState = .precharge ∨ m.runState = .run ∨ m.runState = .stopping) :
    ((((m.clockLost i).safFault F.SAF_FAULT_clock).latching .clock).entered .faultLatched Cause.safetyLatched).Steady
      (m.clockFault i) := by
  rw [Mach.clockFault_eq (by rintro rfl; cases hi) (by rintro rfl; cases hi), if_pos hi]
  exact Mach.cycleClockFault_latches hr

/-- A clock that is good again (R20). -/
def Mach.clockBack (m : Mach) (i : Island) : Mach := m.setBit Reg.PWR_CI_STAT (islandIx i) true

theorem Mach.clockBack_clkOk (m : Mach) (i j : Island) : (m.clockBack i).clkOk j = if j = i then true else m.clkOk j := by
  have hi := islandIx_lt i
  rw [Mach.clockBack, Mach.clkOk, Mach.bit_setBit _ _ _ _ (by omega)]
  simp only [islandIx_injective.eq_iff]
  rfl

/-- What a good clock leads to: the demand is withdrawn with the last cycle island's fault, and the interval begins. -/
def Mach.clockSettled (m : Mach) (i : Island) : Mach := (m.when m.cycleClocksOk (·.withdrawStop .clock)).mark (.clock i)

theorem Mach.clockSettled_rd (m : Mach) (i : Island) : (m.clockSettled i).rd Reg.PWR_CI_STAT = m.rd Reg.PWR_CI_STAT :=
  (Mach.Steady.mark (.when (.refl m) fun h => .off h)).rd _ (by decide)

theorem Mach.clockSettled_withdraws (m : Mach) (i : Island) (h : m.cycleClocksOk = true) :
    (m.clockSettled i).get F.FLY_STOP_src_clock = 0 := by
  have hw : m.clockSettled i = (m.withdrawStop .clock).mark (.clock i) := by rw [Mach.clockSettled, h, Mach.when_true]
  rw [hw]
  exact Mach.get_set m 0 (f := F.FLY_STOP_src_clock) (by decide)

/-- For CI_MGMT Distaff's restart may begin as well (R460). -/
theorem Mach.clockGood_eq (m : Mach) (i : Island) : m.clockGood i =
    { (m.clockBack i).clockSettled i with power := { ((m.clockBack i).clockSettled i).power with
        restartWait := if i = .mgmt then false else ((m.clockBack i).clockSettled i).power.restartWait } } := by
  unfold Mach.clockGood
  extract_lets _ _ k
  split
  next => rfl
  next hi =>
    rw [if_neg hi]
    rfl

end Sys2Proof.Machine

end

section

namespace Sys2Proof.Machine

-- One theorem at a time: each worker of the checker keeps a stack of its own.
set_option Elab.async false

/-! ## The clauses of R20 to R24, R37, R463 and R472 -/

/-- A write of PWR_PD_CTRL while the register takes accesses. -/
theorem exec_pwrPdCtrlWrite {n : Nat} {on : BitVec 10} {s : State} (hr : s.mach.reachable Reg.PWR_PD_CTRL = true) :
    exec (.pwrPdCtrlWrite n on) s = eff s (s.mach.ok.pdWrite n on) :=
  congrArg (eff s) (s.mach.access_reachable _ hr)

/-- R22, R24: a write that the present state permits. -/
theorem pwrPdCtrlWrite_taken {n : Nat} {on : BitVec 10} {s : State} (hr : s.mach.reachable Reg.PWR_PD_CTRL = true)
    (hd : (s.mach.dropped on).all (s.mach.mayDrop n) = true) (hs : s.mach.power.safeMode = false) :
    Completes (.pwrPdCtrlWrite n on) s fun t =>
      t.get F.PWR_PD_CTRL_pd_on = on.toNat ∧
      ∀ d : Domain, t.get (pdField d) =
        if on.getLsbD (domainIx d) then (if s.mach.get (pdField d) = 2 then 2 else 1)
        else if s.mach.bit Reg.PWR_PD_CTRL (domainIx d) = true ∧ s.mach.get (pdField d) ≠ 3 then 0
        else s.mach.get (pdField d) := by
  refine ⟨_, exec_pwrPdCtrlWrite hr, ?_⟩
  obtain ⟨hon, hstate⟩ := Mach.pdWrite_states (m := s.mach.ok) hd hs
  refine ⟨hon, fun d => (hstate d).trans ?_⟩
  rw [Mach.get_ok]
  by_cases hb : on.getLsbD (domainIx d) = true
  · rw [if_pos hb, if_pos hb]
    rfl
  · have hm : d ∈ s.mach.ok.dropped on ↔ s.mach.bit Reg.PWR_PD_CTRL (domainIx d) = true :=
      Mach.mem_dropped.trans (and_iff_right (eq_false_of_ne_true hb))
    rw [if_neg hb, if_neg hb]
    by_cases hc : s.mach.bit Reg.PWR_PD_CTRL (domainIx d) = true <;> by_cases h3 : s.mach.get (pdField d) = 3 <;>
      simp [hm, hc, h3, offState]

/-- R22: a write that drops a domain which the present state does not permit to drop is refused whole. -/
theorem pwrPdCtrlWrite_refused {n : Nat} {on : BitVec 10} {s : State} (hr : s.mach.reachable Reg.PWR_PD_CTRL = true)
    (hd : (s.mach.dropped on).all (s.mach.mayDrop n) = false) :
    Completes (.pwrPdCtrlWrite n on) s fun t => t = { s.mach with answer := (Err.refusedState, 0, []) } := by
  have hn : ¬(s.mach.ok.dropped on).all (s.mach.ok.mayDrop n) = true := fun h => Bool.false_ne_true (hd.symm.trans h)
  exact ⟨_, exec_pwrPdCtrlWrite hr, by rw [Mach.pdWrite, if_neg hn]; rfl⟩

/-- R24: a domain that has zeroised comes on, and no other domain changes. -/
theorem domainZeroiseDone_on {d : Domain} {s : State} (h : s.mach.get (pdField d) = 1) :
    Completes (.domainZeroiseDone d) s fun t =>
      t.get (pdField d) = 2 ∧ ∀ e : Domain, e ≠ d → t.get (pdField e) = s.mach.get (pdField e) := by
  have hk := Mach.zeroiseDone_steady h
  refine ⟨_, rfl, ?_, fun e he => ?_⟩
  · rw [hk.get (pdField_held d), Mach.get_set_pdField, if_pos rfl]
  · rw [hk.get (pdField_held e), Mach.get_set_pdField, if_neg he]

/-- R20: what a clock fault shows, and what it latches on a cycle island. -/
theorem clockFault_shows (i : Island) (s : State) :
    Completes (.clockFault i) s fun t =>
      t.clkOk i = false ∧ t.bit Reg.PWR_CI_FAULT (islandIx i) = true ∧
      (cycleIsland i = true → s.mach.runState = .precharge ∨ s.mach.runState = .run ∨ s.mach.runState = .stopping →
        t.runState = .faultLatched ∧ t.get F.SAF_FAULT_clock = 1 ∧ SafetyCause.clock ∈ t.safety.latched
          ∧ t.get F.PWR_RUN_STAT_last_cause = Cause.safetyLatched) := by
  refine ⟨_, rfl, ?_, ?_, fun hi hr => ?_⟩
  · rw [Mach.clkOk, Mach.bit, Mach.rd_clockFault (by decide)]
    exact s.mach.clockLost_clkOk i
  · rw [Mach.bit, Mach.rd_clockFault (by decide)]
    exact s.mach.clockLost_fault i
  · have h := Mach.clockFault_latches hi hr
    refine ⟨h.runState, ?_, ?_, h.lastCause.trans (Mach.entered_lastCause _ _ _)⟩
    · have hclock : ((s.mach.clockLost i).safFault F.SAF_FAULT_clock).get F.SAF_FAULT_clock = 1 :=
        (Mach.get_wr_ne _ _ (by decide)).trans (Mach.get_set _ _ (by decide))
      rw [h.get (by decide), Mach.entered_get _ _ _ (by decide), Mach.latching_get, hclock]
    · rw [h.latched, Mach.entered_latched]
      exact Mach.mem_latching _ rfl

/-- R20, R460: what a good clock shows and withdraws. -/
theorem clockGoodAgain_shows (i : Island) (s : State) :
    Completes (.clockGoodAgain i) s fun t =>
      t.clkOk i = true ∧ (∀ j, j ≠ i → t.clkOk j = s.mach.clkOk j) ∧ t.runState = s.mach.runState ∧ t.mem = s.mach.mem
        ∧ ((∀ j, cycleIsland j = true → j ≠ i → s.mach.clkOk j = true) → t.get F.FLY_STOP_src_clock = 0)
        ∧ (i = .mgmt → t.power.restartWait = false) := by
  have hk : ∀ j, (s.mach.clockGood i).clkOk j = if j = i then true else s.mach.clkOk j := by
    intro j
    rw [← Mach.clockBack_clkOk, Mach.clockGood_eq]
    exact congrArg (BitVec.getLsbD · (islandIx j)) ((s.mach.clockBack i).clockSettled_rd i)
  refine ⟨_, rfl, ?_, fun j hj => ?_, ?_, ?_, fun hall => ?_, fun hm => ?_⟩
  · rw [hk, if_pos rfl]
  · rw [hk, if_neg hj]
  · rw [Mach.clockGood_eq]
    unfold Mach.clockSettled Mach.when
    split <;> rfl
  · rw [Mach.clockGood_eq]
    unfold Mach.clockSettled Mach.when
    split <;> rfl
  · have hok : (s.mach.clockBack i).cycleClocksOk = true := by
      refine List.all_eq_true.mpr fun j hj => ?_
      have hc : cycleIsland j = true := by revert j; decide
      rw [Mach.clockBack_clkOk]
      split
      next => rfl
      next h => exact hall j hc h
    rw [Mach.clockGood_eq]
    exact (s.mach.clockBack i).clockSettled_withdraws i hok
  · rw [Mach.clockGood_eq, if_pos hm]

/-- R37, R463, R472: a rail fault, and the guard that an energised string then has. -/
theorem railFault_holdsOff (d : Domain) (s : State) :
    Completes (.railFault d) s fun t =>
      t.get (pdField d) = 3 ∧ t.get F.PWR_RESET_CAUSE_type = ResetType.domain ∧
      (s.mach.energised = true → d ∈ [Domain.spin0, .spin1, .frame, .chain, .sense] →
        t.power.openReq = true ∧ t.power.guard = some .hold) := by
  obtain ⟨hrd, hguard⟩ := s.mach.railFault_steady d
  refine ⟨_, rfl, ?_, ?_, hguard⟩
  · rw [Mach.get, hrd _ (pdField_held d)]
    exact (Mach.get_wr_ne _ _ (show Reg.PWR_PD_STAT ≠ Reg.PWR_RESET_CAUSE by decide)).trans
      (s.mach.get_set 3 (pdField_fits d))
  · rw [Mach.get, hrd _ (by decide)]
    exact Mach.get_set _ _ (by decide)

end Sys2Proof.Machine

end

open Sys2Proof.Machine in
/-- Settles O28: every operation that follows a switched domain or a clock's fault leaves the registers which show it. -/
theorem domainsAndClocks : Obligations.DomainsAndClocks :=
  ⟨fun _ _ _ hr hd hs => pwrPdCtrlWrite_taken hr hd hs, fun _ _ _ hr hd => pwrPdCtrlWrite_refused hr hd,
    fun _ _ h => domainZeroiseDone_on h, clockFault_shows, clockGoodAgain_shows, railFault_holdsOff⟩
